-- ==== Sys2Proof/Word.lean ====
section
/-! DEFINITION. The word types of the Glaune 4: bytes, 32-bit registers (R6) and 64-bit words and times. -/
namespace Sys2Proof

/-- A byte. -/
abbrev Byte := BitVec 8

/-- A register, an address register or an FP32 code (R6, R78, R112). -/
abbrev W32 := BitVec 32

/-- A program word, a global time or a digest (R80, R18, R299). -/
abbrev W64 := BitVec 64

/-- A string of bytes, lowest address first (R6). -/
abbrev Bytes := List Byte

end Sys2Proof
end

