-- ==== Sys2Proof/Syntax.lean ====
section
/-! DEFINITION. The commands of the block: one constructor for each row of spec/opcode_table.json, with the operands
that the row's rule gives it. A program word is carried without the class and opcode bits that the row itself
fixes (Tables 3-3, 3-4, 3-6, 5-5, 6-3 to 6-6, 8-2, 11-2). -/
namespace Sys2Proof

/-- A global cluster index (R11). -/
abbrev ClusterId := Fin 512
/-- A stage partition (R35). -/
abbrev PartId := Fin 64
/-- A stage context id (R39). -/
abbrev CtxId := Fin 256
/-- A queue of a stage context, as Table 2-3 numbers them (R44). -/
abbrev QueueId := Fin 4
/-- A stack of HBM (R9). -/
abbrev StackId := Fin 8
/-- A Cirque die (R9). -/
abbrev DieId := Fin 4
/-- A fabric link (R293). -/
abbrev LinkId := Fin 32
/-- A link-layer instance: 0 to 31 the fabric links (R293), 32 + n Pliand port n (R390). -/
abbrev LayerId := Fin 36
/-- A Pliand port (R389). -/
abbrev HostPortId := Fin 4
/-- A Twiac link (R369). -/
abbrev TwiId := Fin 18
/-- A copy engine: 0 to 511 that of the cluster, 512 + n the hub engine of Pliand port n (R203, R404). -/
abbrev CopyEngineId := Fin 516

/-- The threads of a cluster sequencer (Table 3-1, R76). -/
inductive Thr where
  | F | B | U | H
  deriving DecidableEq, Repr

/-- What a memory read of a scrubber or of a controller finds in the code word (R200, R226). -/
inductive Ecc where
  | clean | corrected | uncorrectable
  deriving DecidableEq, Repr

/-- The opener of a register access: a Pliand port or the Bridge controller (R426). -/
inductive Opener where
  | port (n : HostPortId)
  | bridge
  deriving DecidableEq, Repr

/-- Where an arriving slot comes from: a LOCAL producer queue, the fabric, or a FEED in transfer (R45). -/
inductive Arrival where
  | fromLocal (c : CtxId) (q : QueueId)
  | fromFabric (hdr payload : Bytes)
  | fromFeed
  deriving DecidableEq, Repr

/-- A request to a Moraine controller: a stack-local address, a length and, for a write, its bytes (R220). -/
structure HbmReq where
  fromEngine : Bool
  addr : Nat
  len : Nat
  write : Option Bytes
  deriving DecidableEq, Repr

/-- A Snowpack publication arrival (R251). -/
structure SnpPub where
  sender : W32
  version : BitVec 16
  step : W32
  stack : StackId
  ix : Nat
  codes : List (BitVec 16)
  deriving DecidableEq, Repr

/-- The identity of a collective: job, CID and step (R340). -/
structure CollKey where
  job : Fin 4
  cid : BitVec 16
  step : W32
  deriving DecidableEq, Repr

/-- A COLL DATA segment as Table 11-8 lays it out (R363). -/
structure CollData where
  key : CollKey
  src : W32
  xid : W32
  kind : Nat
  op : Nat
  failed : Bool
  comp : Bool
  nonfin : Bool
  rank : Nat
  ifmt : Nat
  block : Nat
  alpha : W32
  count : Nat
  nr : Nat
  offset : Nat
  body : Bytes
  deriving DecidableEq, Repr

/-- An active message: the header fields of Table 11-6 and the payload (R354). -/
structure AmMsg where
  dest : W32
  dcl : Nat
  handler : Nat
  job : Fin 4
  scl : Nat
  src : W32
  mb : W32
  step : W32
  ver : BitVec 16
  arg : BitVec 48
  payload : Bytes
  deriving DecidableEq, Repr

/-- Where a message to place comes from: the messages that wait for cluster g, or the fabric (R355). -/
inductive AmSrc where
  | waiting (g : ClusterId)
  | fabric (xid : W32) (m : AmMsg)
  deriving DecidableEq, Repr

/-- A DQADD contribution (Table 11-7, R358). -/
structure DqMsg where
  queue : Fin 64
  contrib : Nat
  fmt : Nat
  entry : Nat
  job : Fin 4
  src : W32
  mb : W32
  step : W32
  ver : BitVec 16
  count : Nat
  body : Bytes
  deriving DecidableEq, Repr

/-- Where a contribution comes from: those that wait on queue q, or the fabric (R359). -/
inductive DqSrc where
  | waiting (q : Fin 64)
  | fabric (xid : W32) (m : DqMsg)
  deriving DecidableEq, Repr

/-- The content of a STATUS unit (Table 10-7): widths and speeds are the largest that the partner advertises, coded as
`LNK_CTRL`.WMAX and SMAX. -/
structure LinkStatusMsg where
  addr : W32
  port : Fin 8
  link : Fin 4
  session : BitVec 16
  width : Fin 3
  speed : Fin 3
  allocs : List Nat
  eth : Bool
  extra : Bool
  deriving DecidableEq, Repr

/-- A clock source that is lost or a reference that stops (Table 15-5, R463): dieDead and hubDead are the loss of both sources of a die or
of the hub, oscillator n that of the fast internal oscillator of die n, or of the hub (4). -/
inductive ClockEvent where
  | refclk
  | corePll (d : DieId)
  | hubPll
  | serdesPll (p : Fin 12)
  | basePll (s : StackId)
  | dieDead (d : DieId)
  | hubDead
  | oscillator (n : Fin 5)
  deriving DecidableEq, Repr

/-- A PLL that has locked (Table 15-5, R462), or REFCLK, which has been stable for 1 ms (R463). -/
inductive Pll where
  | core (d : DieId)
  | hub
  | serdes (p : Fin 12)
  | base (s : StackId)
  | ref
  deriving DecidableEq, Repr

/-- A core rail below a voltage in mV, or its power-good lost (Table 17-5, R503). -/
structure CoreFault where
  die : DieId
  mv : Option (BitVec 10)
  deriving DecidableEq, Repr

/-- A write of PWR_DIEd.REQ = 1 by an opener (R429, R454). -/
structure DieRequest where
  die : DieId
  o : Opener
  deriving DecidableEq, Repr

/-- A write of PLH_CFG.EN by an opener (R416, R429). -/
structure PortEnable where
  en : Bool
  o : Opener
  deriving DecidableEq, Repr

/-- The unit whose report closes its part of an epoch attempt: unit code and instance (Table 15-4, R431). -/
structure UnitRef where
  code : Nat
  index : Nat
  deriving DecidableEq, Repr

/-- What a start meets outside the block: whether helper data correct the PUF response (R492), whether REFCLK is stable, for each attempt of
the rail sequence the rail whose power-good does not come, as long as there is one (R502), calibration blocks that the AON store returns
with other bytes than were written and the results of the training of blocks (R473), the capability blocks that the partners of Twiac
links send in their order (R377), and the duration. -/
structure BootEnv where
  pufGood : Bool
  refclkGood : Bool
  stalls : List (Fin 11)
  damaged : List (Fin 20 × Bytes)
  trained : List (Fin 20 × Bytes)
  caps : List (TwiId × Bytes)
  bootMs : Nat
  deriving DecidableEq, Repr

/-- What the Firn scrubber finds anew in one 8-byte word of a granule (R202). -/
structure WordFinding where
  word : Fin 4
  ecc : Ecc
  deriving DecidableEq, Repr

/-- An entry of the retirement table of a stack (R227, R228). -/
structure RetirementRef where
  stack : StackId
  ix : Fin 512
  deriving DecidableEq, Repr

/-- What a GRANT carries: the rank of its sender and the block limit (R345, Table 11-8). -/
structure GrantMsg where
  rank : Nat
  limit : Nat
  deriving DecidableEq, Repr

/-- What a RECEIPT says of a transfer: status code, detail and placed bytes (R312). -/
structure ReceiptMsg where
  status : Fin 11
  detail : BitVec 16
  count : Nat
  deriving DecidableEq, Repr

/-- A transfer by its source and its XID there (Table 10-4). -/
structure XferRef where
  src : W32
  xid : W32
  deriving DecidableEq, Repr

/-- The target of a single-die reset (Table 15-9): a Cirque die or the base die of a stack. -/
inductive DieTarget where
  | cirque (d : DieId)
  | base (s : StackId)
  deriving DecidableEq, Repr

/-- The source that leaves PS4 (R457). -/
inductive WakeSource where
  | i2c
  | light (p : HostPortId)
  deriving DecidableEq, Repr

/-- An answer of a candidate partner (R487). -/
inductive PartnerAnswer where
  | accept
  | refuse (reason : Nat)
  deriving DecidableEq, Repr

/-- A MIRROR segment (Table 16-4). -/
structure MirrorSeg where
  src : W32
  xid : W32
  job : Fin 4
  restore : Bool
  part : Nat
  stack : StackId
  ctx : CtxId
  gen : W32
  step : W32
  first : Nat
  body : Bytes
  deriving DecidableEq, Repr

/-- The commands of the block. Every doc line names the row and the rule that gives its meaning. -/
inductive Instr where
  /-- CTRL_NOP (R82) -/
  | ctrlNop (g : ClusterId) (t : Thr) (w : BitVec 56)
  /-- CTRL_END (R83) -/
  | ctrlEnd (g : ClusterId) (t : Thr) (w : BitVec 56)
  /-- CTRL_SETA (R82) -/
  | ctrlSeta (g : ClusterId) (t : Thr) (w : BitVec 56)
  /-- CTRL_ADDA (R82) -/
  | ctrlAdda (g : ClusterId) (t : Thr) (w : BitVec 56)
  /-- CTRL_LOOP (R84) -/
  | ctrlLoop (g : ClusterId) (t : Thr) (w : BitVec 56)
  /-- CTRL_GROUP (R81) -/
  | ctrlGroup (g : ClusterId) (t : Thr) (w : BitVec 56)
  /-- CTRL_WAIT (R81) -/
  | ctrlWait (g : ClusterId) (t : Thr) (w : BitVec 56)
  /-- COMMIT (R273) -/
  | commit (g : ClusterId) (t : Thr) (w : BitVec 56)
  /-- COMMIT_EXCHANGE_END (R273): stream t of partition p -/
  | commitExchangeEnd (p : PartId) (t : Thr)
  /-- LAYERDONE (R101) -/
  | layerdone (g : ClusterId) (t : Thr) (w : BitVec 56)
  /-- PROGRAM_FETCH (R83) -/
  | programFetch (g : ClusterId) (t : Thr)
  /-- ROW_FETCH (R95) -/
  | rowFetch (p : PartId)
  /-- PARTITION_BARRIER (R94) -/
  | partitionBarrier (p : PartId)
  /-- EARLY_FORWARD (R100) -/
  | earlyForward (p : PartId)
  /-- LAYER_UPDATE_RUN (R101): the U stream of cluster g -/
  | layerUpdateRun (g : ClusterId)
  /-- FILL_SWITCH (R103) -/
  | fillSwitch (p : PartId)
  /-- FILL_PROGRAM_END (R104) -/
  | fillProgramEnd (p : PartId)
  /-- FILL_OVERRUN (R103): after us microseconds -/
  | fillOverrun (p : PartId) (us : Nat)
  /-- ITERATION_OVERRUN (R91): after us microseconds -/
  | iterationOverrun (p : PartId) (us : Nat)
  /-- TAB_START (R97) -/
  | tabStart (p : PartId)
  /-- TAB_RESUME (R97) -/
  | tabResume (p : PartId)
  /-- TAB_STOP (R97) -/
  | tabStop (p : PartId)
  /-- TAKE (R51) -/
  | take (g : ClusterId) (t : Thr) (w : BitVec 56)
  /-- TAKE_COMPLETE (R51) -/
  | takeComplete (c : CtxId) (q : QueueId)
  /-- RELEASE (R52) -/
  | release (g : ClusterId) (t : Thr) (w : BitVec 56)
  /-- FILL_BACK_COMPLETE (R64) -/
  | fillBackComplete (c : CtxId) (q : QueueId)
  /-- CLAIM (R53) -/
  | claim (g : ClusterId) (t : Thr) (w : BitVec 56)
  /-- CLAIM_COMPLETE (R53) -/
  | claimComplete (c : CtxId) (q : QueueId)
  /-- SEND (R54) -/
  | send (g : ClusterId) (t : Thr) (w : BitVec 56)
  /-- SEND_ADMIT (R55) -/
  | sendAdmit (c : CtxId) (q : QueueId)
  /-- SEND_COMPLETE (R54) -/
  | sendComplete (c : CtxId) (q : QueueId)
  /-- BIND_REQUEST (R47) -/
  | bindRequest (c : CtxId) (q : QueueId)
  /-- BIND_ANSWER_RECEIVE (R47): the consumer's capacity and slot pages -/
  | bindAnswerReceive (c : CtxId) (q : QueueId) (capacity pages : Nat)
  /-- SLOT_ARRIVAL (R63) -/
  | slotArrival (c : CtxId) (q : QueueId) (a : Arrival)
  /-- CREDIT_RECORD_REFRESH (R59) -/
  | creditRecordRefresh (c : CtxId) (q : QueueId)
  /-- CREDIT_RECORD_RECEIVE (R58) -/
  | creditRecordReceive (c : CtxId) (q : QueueId) (released : BitVec 16)
  /-- STAGE_QUEUE_STALL (R68): after us microseconds -/
  | stageQueueStall (c : CtxId) (q : QueueId) (us : Nat)
  /-- CTX_ENABLE (R516) -/
  | ctxEnable (c : CtxId)
  /-- CTX_DISABLE (R40) -/
  | ctxDisable (c : CtxId)
  /-- CTX_FINISH (R40) -/
  | ctxFinish (c : CtxId)
  /-- CTX_DRAINED (R41) -/
  | ctxDrained (c : CtxId)
  /-- COPY_WORD (R85) -/
  | copyWord (g : ClusterId) (t : Thr) (w : BitVec 60)
  /-- COPY_DESCRIPTOR_START (R206) -/
  | copyDescriptorStart (e : CopyEngineId) (ch : Fin 8)
  /-- COPY_READ_ISSUE (R211) -/
  | copyReadIssue (e : CopyEngineId) (ch : Fin 8)
  /-- COPY_READ_RETURN (R213): the answer to issued request k -/
  | copyReadReturn (e : CopyEngineId) (ch : Fin 8) (k : Nat)
  /-- COPY_READ_TIMEOUT (R214): issued request k -/
  | copyReadTimeout (e : CopyEngineId) (ch : Fin 8) (k : Nat)
  /-- ITEM_RETIRE (R18): the item numbered id -/
  | itemRetire (id : Nat)
  /-- FIRN_SCRUB (R202): granule n of the slice of cluster g, and what it finds anew in one of its words -/
  | firnScrub (g : ClusterId) (n : BitVec 17) (found : WordFinding)
  /-- SCRUB_OVERRUN (R202) -/
  | scrubOverrun (g : ClusterId)
  /-- HBM_REQUEST_ACCEPT (R220) -/
  | hbmRequestAccept (s : StackId) (r : HbmReq)
  /-- HBM_REQUEST_SERVE (R221): what the access finds anew in the burst numbered n of those that it reads -/
  | hbmRequestServe (s : StackId) (n : Nat) (found : Ecc)
  /-- PAGE_IDLE_CLOSE (R222): HBM channel and bank -/
  | pageIdleClose (s : StackId) (ch : Fin 16) (bank : Fin 64)
  /-- HBM_REFRESH (R223): HBM channel and bank -/
  | hbmRefresh (s : StackId) (ch : Fin 16) (bank : Fin 64)
  /-- HBM_SCRUB (R224): burst at stack-local address 64 n -/
  | hbmScrub (s : StackId) (n : BitVec 31) (found : Ecc)
  /-- RET_CONFIRM (R228): opener and entry -/
  | retConfirm (o : Opener) (e : RetirementRef)
  /-- RETIREMENT_TABLE_SAVE (R229) -/
  | retirementTableSave
  /-- MCFG (R150) -/
  | mcfg (g : ClusterId) (t : Thr) (w : BitVec 56)
  /-- MLOAD (R152) -/
  | mload (g : ClusterId) (t : Thr) (w : BitVec 56)
  /-- MSTREAM (R153) -/
  | mstream (g : ClusterId) (t : Thr) (w : BitVec 56)
  /-- MCLR (R154) -/
  | mclr (g : ClusterId) (t : Thr) (w : BitVec 56)
  /-- MEMIT (R155) -/
  | memit (g : ClusterId) (t : Thr) (w : BitVec 56)
  /-- BOW_WAIT (R159): core k of cluster g has waited us microseconds -/
  | bowWait (g : ClusterId) (k : Fin 8) (us : Nat)
  /-- VCFG (R167) -/
  | vcfg (g : ClusterId) (t : Thr) (w : BitVec 58)
  /-- VSTR (R173) -/
  | vstr (g : ClusterId) (t : Thr) (w : BitVec 58)
  /-- VTBL (R184) -/
  | vtbl (g : ClusterId) (t : Thr) (w : BitVec 58)
  /-- VMOV (R176) -/
  | vmov (g : ClusterId) (t : Thr) (w : BitVec 52)
  /-- VADD (R176) -/
  | vadd (g : ClusterId) (t : Thr) (w : BitVec 52)
  /-- VSUB (R176) -/
  | vsub (g : ClusterId) (t : Thr) (w : BitVec 52)
  /-- VMUL (R176) -/
  | vmul (g : ClusterId) (t : Thr) (w : BitVec 52)
  /-- VFMA (R176) -/
  | vfma (g : ClusterId) (t : Thr) (w : BitVec 52)
  /-- VMAX (R176) -/
  | vmax (g : ClusterId) (t : Thr) (w : BitVec 52)
  /-- VMIN (R176) -/
  | vmin (g : ClusterId) (t : Thr) (w : BitVec 52)
  /-- VABS (R176) -/
  | vabs (g : ClusterId) (t : Thr) (w : BitVec 52)
  /-- VNEG (R176) -/
  | vneg (g : ClusterId) (t : Thr) (w : BitVec 52)
  /-- VRCP (R176) -/
  | vrcp (g : ClusterId) (t : Thr) (w : BitVec 52)
  /-- VRSQ (R176) -/
  | vrsq (g : ClusterId) (t : Thr) (w : BitVec 52)
  /-- VCRV (R186) -/
  | vcrv (g : ClusterId) (t : Thr) (w : BitVec 52)
  /-- VDROP (R188) -/
  | vdrop (g : ClusterId) (t : Thr) (w : BitVec 52)
  /-- VNRM (R176) -/
  | vnrm (g : ClusterId) (t : Thr) (w : BitVec 52)
  /-- VSEL (R176) -/
  | vsel (g : ClusterId) (t : Thr) (w : BitVec 52)
  /-- RSUM (R177) -/
  | rsum (g : ClusterId) (t : Thr) (w : BitVec 52)
  /-- RMAX (R177) -/
  | rmax (g : ClusterId) (t : Thr) (w : BitVec 52)
  /-- RDOT (R177) -/
  | rdot (g : ClusterId) (t : Thr) (w : BitVec 52)
  /-- NSTAT (R178) -/
  | nstat (g : ClusterId) (t : Thr) (w : BitVec 52)
  /-- RSTAT (R178) -/
  | rstat (g : ClusterId) (t : Thr) (w : BitVec 52)
  /-- SMXS (R189) -/
  | smxs (g : ClusterId) (t : Thr) (w : BitVec 52)
  /-- SMXN (R190) -/
  | smxn (g : ClusterId) (t : Thr) (w : BitVec 52)
  /-- GACC (R239) -/
  | gacc (g : ClusterId) (t : Thr) (w : BitVec 56)
  /-- OPT (R243) -/
  | opt (g : ClusterId) (t : Thr) (w : BitVec 56)
  /-- VBEGIN (R248) -/
  | vbegin (g : ClusterId) (t : Thr) (w : BitVec 56)
  /-- VBEGIN_OPEN (R248) -/
  | vbeginOpen (c : CtxId)
  /-- SNOWPACK_SLOT_WAIT (R248): the VBEGIN numbered n of those that wait, the oldest first -/
  | snowpackSlotWait (c : CtxId) (n : Nat)
  /-- VEND (R252) -/
  | vend (g : ClusterId) (t : Thr) (w : BitVec 56)
  /-- BUILD_BECOMES_HEAD (R252) -/
  | buildBecomesHead (c : CtxId)
  /-- VEND_TIMEOUT (R252) -/
  | vendTimeout (c : CtxId)
  /-- VREAD (R260) -/
  | vread (g : ClusterId) (t : Thr) (w : BitVec 56)
  /-- VPUB (R250) -/
  | vpub (g : ClusterId) (t : Thr) (w : BitVec 56)
  /-- SNP_ARRIVAL (R251) -/
  | snpArrival (c : CtxId) (a : SnpPub) (xid : W32)
  /-- FAILURE_NOTICE_RECEIVE (R254): build number and build step -/
  | failureNoticeReceive (c : CtxId) (ver : BitVec 16) (step : W32)
  /-- COMPACTION_COMPLETE (R259): the compaction of full slot k -/
  | compactionComplete (c : CtxId) (k : Fin 8)
  /-- SNP_RESET (R262) -/
  | snpReset (c : CtxId)
  /-- SNP_ADOPT (R262): slot and version of the write -/
  | snpAdopt (c : CtxId) (slot : Fin 8) (ver : BitVec 16)
  /-- NU_UNSTICK (R276) -/
  | nuUnstick (g : ClusterId)
  /-- NU_CLRPEND (R279) -/
  | nuClrpend (g : ClusterId)
  /-- COLL (R341) -/
  | coll (g : ClusterId) (t : Thr) (w : BitVec 56)
  /-- COLL_START (R344): open-collective entry i -/
  | collStart (i : Fin 16)
  /-- COLL_GRANT_RECEIVE (R345): a block limit for the own blocks, from device src -/
  | collGrantReceive (k : CollKey) (src : W32) (m : GrantMsg)
  /-- COLL_DATA_RECEIVE (R346) -/
  | collDataReceive (d : CollData)
  /-- COLL_TIMEOUT (R347) -/
  | collTimeout (i : Fin 16)
  /-- COLL_COMPLETE (R348) -/
  | collComplete (i : Fin 16)
  /-- DIGEST_RECEIVE (R353): the TX digest that device src has for this one -/
  | digestReceive (k : CollKey) (src : W32) (d : W64)
  /-- AMSEND (R354) -/
  | amsend (g : ClusterId) (t : Thr) (w : BitVec 56)
  /-- AM_PLACE (R355) -/
  | amPlace (a : AmSrc)
  /-- HANDLER_START (R356) -/
  | handlerStart (g : ClusterId)
  /-- AMSG_STALL (R366): the message numbered n of those that wait for the ring of cluster g, the oldest first -/
  | amsgStall (g : ClusterId) (n : Nat)
  /-- DQADD (R358) -/
  | dqadd (g : ClusterId) (t : Thr) (w : BitVec 56)
  /-- DQADD_ARRIVAL (R359) -/
  | dqaddArrival (a : DqSrc)
  /-- FLOW_UNIT_SEND (R300) -/
  | flowUnitSend (l : LayerId)
  /-- FLOW_UNIT_RECEIVE (R301): the 256 bytes that arrive -/
  | flowUnitReceive (l : LayerId) (u : Bytes)
  /-- REPLAY_TIMEOUT (R305) -/
  | replayTimeout (l : LayerId)
  /-- SEGMENT_PLACE (R312): the transfer xid of device src -/
  | segmentPlace (src xid : W32)
  /-- RECEIPT_RECEIVE (R312): the link, its TIMESTAMP, XID and content -/
  | receiptReceive (l : LinkId) (t : W64) (xid : W32) (m : ReceiptMsg)
  /-- CANCEL_RECEIVE (R320): the link, and the transfer that it names -/
  | cancelReceive (l : LinkId) (x : XferRef)
  /-- BYPASS_FALLBACK (R313) -/
  | bypassFallback (l : LayerId)
  /-- LINK_TRAINED (R314): lanes that trained, the highest speed they train at, and the session of a fresh INIT -/
  | linkTrained (l : LinkId) (lanes : BitVec 4) (speed : Fin 3) (session : BitVec 16)
  /-- STATUS_RECEIVE (R315) -/
  | statusReceive (l : LinkId) (m : LinkStatusMsg)
  /-- STATUS_PERIODIC (R315) -/
  | statusPeriodic (l : LinkId)
  /-- LNK_RETRAIN (R316) -/
  | lnkRetrain (l : LinkId)
  /-- DRAIN_END (R316): by timeout of 10 µs or not -/
  | drainEnd (l : LinkId) (timedOut : Bool)
  /-- LANE_LOCK_LOST (R317) -/
  | laneLockLost (l : LinkId)
  /-- RETRAIN_TIMEOUT (R314) -/
  | retrainTimeout (l : LinkId)
  /-- GRACE_EXPIRED (R320) -/
  | graceExpired (l : LinkId)
  /-- DOWN_RECEIVE (R322) -/
  | downReceive (l : LinkId)
  /-- TIME_REQ_SEND (R331) -/
  | timeReqSend
  /-- TIME_REQ_RECEIVE (R331): t1 in 1/256 ns -/
  | timeReqReceive (l : LinkId) (t1 : Nat)
  /-- TIME_RSP_RECEIVE (R332): t1, t2, t3, t4 in 1/256 ns, the parent's depth and SYNC -/
  | timeRspReceive (l : LinkId) (t1 t2 t3 t4 : Nat) (depth : Nat) (sync : Bool)
  /-- ETH_FRAME_RECEIVE (R335): the frame from its destination address on, without preamble and frame check sequence -/
  | ethFrameReceive (l : LinkId) (f : Bytes)
  /-- ETH_ACK_IDLE (R335) -/
  | ethAckIdle (l : LinkId)
  /-- PTP_EVENT_MESSAGE (R336): sent or received, with the message bytes -/
  | ptpEventMessage (l : LinkId) (sent : Bool) (msg : Bytes)
  /-- TWIAC_PACKET_RECEIVE (R371): at a link end, the 16 header bytes and the data -/
  | twiacPacketReceive (n : TwiId) (hdr data : Bytes)
  /-- FLIT_RETRY (R374): a flit of group k fails -/
  | flitRetry (n : TwiId) (k : Fin 16)
  /-- CAPABILITY_BLOCK_RECEIVE (R378): the partner's 64 bytes -/
  | capabilityBlockReceive (n : TwiId) (b : Bytes)
  /-- CAPABILITY_REREQUEST (R377) -/
  | capabilityRerequest (n : TwiId)
  /-- TWIAC_CLOCK_LOSS (R382) -/
  | twiacClockLoss (n : TwiId)
  /-- THERMAL_REPORT (R379): sensor of TWI_TEMPn and its reading in °C -/
  | thermalReport (n : Fin 12) (degC : BitVec 8)
  /-- THROTTLE_STEP_DOWN (R379) -/
  | throttleStepDown (n : Fin 12)
  /-- DOORBELL_RECEIVE (R399): word and value -/
  | doorbellReceive (p : HostPortId) (word : Fin 16) (value : W32)
  /-- DOORBELL_POLL (R396) -/
  | doorbellPoll (p : HostPortId)
  /-- READ_DATA_RECEIVE (R400): tag, host error, data -/
  | readDataReceive (p : HostPortId) (tag : Nat) (hostError : Bool) (data : Bytes)
  /-- SQ_NOP (R403): the entry at the start of ring k -/
  | sqNop (p k : HostPortId)
  /-- SQ_COPY (R404) -/
  | sqCopy (p k : HostPortId)
  /-- SQ_FEED (R405) -/
  | sqFeed (p k : HostPortId)
  /-- FEED_ADMIT (R405) -/
  | feedAdmit (c : CtxId) (q : QueueId)
  /-- SQ_POST (R407) -/
  | sqPost (p k : HostPortId)
  /-- SQ_TAB (R409) -/
  | sqTab (p k : HostPortId)
  /-- SQ_AMSG (R410) -/
  | sqAmsg (p k : HostPortId)
  /-- MQ_RECORD_WRITE (R413) -/
  | mqRecordWrite (p : HostPortId)
  /-- INTERRUPT_HOLDOFF_END (R415) -/
  | interruptHoldoffEnd (p : HostPortId) (v : Fin 5)
  /-- MGMT_REQ (R419): a read, or a write of value, at an offset of the register window -/
  | mgmtReq (p : HostPortId) (tag : Nat) (offset : W32) (write : Option W32)
  /-- ADAPTER_STATUS_RECEIVE (R391): the session of this training -/
  | adapterStatusReceive (p : HostPortId) (session : BitVec 16)
  /-- PORT_LIGHT_DETECT (R391) -/
  | portLightDetect (p : HostPortId)
  /-- PORT_GRACE_EXPIRED (R416) -/
  | portGraceExpired (p : HostPortId)
  /-- PLH_PORT_ENABLE (R416): the EN written, and by whom -/
  | plhPortEnable (p : HostPortId) (en : PortEnable)
  /-- PLH_SQ_ENABLE (R398): the EN written -/
  | plhSqEnable (p k : HostPortId) (en : Bool)
  /-- PLH_MQ_ENABLE (R398): the EN written -/
  | plhMqEnable (p : HostPortId) (en : Bool)
  /-- POLL_CFG_SEND (R396) -/
  | pollCfgSend (p : HostPortId)
  /-- REGISTER_WRITE (R424): opener, view, offset in the register space, data -/
  | registerWrite (o : Opener) (view : Fin 4) (offset : BitVec 24) (d : W32)
  /-- REGISTER_READ_CLEAR (R424): opener and offset -/
  | registerReadClear (o : Opener) (offset : BitVec 24)
  /-- TIM_NOW_READ (R445): the low word, or else the high word -/
  | timNowRead (o : Opener) (low : Bool)
  /-- TIM_SET (R446): the value of TIM_SET_HI and TIM_SET_LO -/
  | timSet (t : W64)
  /-- CFI_UNLOCK (R428): view and key -/
  | cfiUnlock (o : Opener) (view : Fin 4) (key : BitVec 16)
  /-- CFI_COMMIT (R436) -/
  | cfiCommit (domains : BitVec 5) (learn : Bool)
  /-- CONFIG_SWEEP (R435) -/
  | configSweep (d : Fin 5)
  /-- EPOCH_ADVANCE (R430) -/
  | epochAdvance (o : Opener)
  /-- EPOCH_DISCARD (R432) -/
  | epochDiscard
  /-- EPOCH_UNIT_REPORT (R431) -/
  | epochUnitReport (u : UnitRef)
  /-- EPOCH_COMMIT (R431) -/
  | epochCommit
  /-- EPOCH_TIMEOUT (R432) -/
  | epochTimeout
  /-- EVENT_LOG_DELIVER (R441) -/
  | eventLogDeliver
  /-- SUPPRESSION_WINDOW_END (R443) -/
  | suppressionWindowEnd
  /-- CLUSTER_IDLE_PS1 (R450) -/
  | clusterIdlePs1 (g : ClusterId)
  /-- CLUSTER_IDLE_PS2 (R450) -/
  | clusterIdlePs2 (g : ClusterId)
  /-- UNASSIGNED_CLUSTER_SLEEP (R451) -/
  | unassignedClusterSleep (g : ClusterId)
  /-- CIR_PM_HOLD (R452): the REQ written -/
  | cirPmHold (g : ClusterId) (req : Fin 4)
  /-- CLUSTER_WAKE (R453) -/
  | clusterWake (g : ClusterId)
  /-- PS3_REQUEST (R454) -/
  | ps3Request (d : DieRequest)
  /-- DIE_WAKE (R455): by a Twiac packet of the link, or by REQ 0 -/
  | dieWake (d : DieId) (byPacket : Option TwiId)
  /-- STANDBY_REQUEST (R456): by the port, or by the Bridge -/
  | standbyRequest (o : Opener)
  /-- STANDBY_WAKE (R457) -/
  | standbyWake (w : WakeSource) (b : BootEnv)
  /-- RAIL_SETTLED (R467): the sensed voltage -/
  | railSettled (d : DieId) (mv : BitVec 10)
  /-- RAIL_SETTLE_TIMEOUT (R467) -/
  | railSettleTimeout (d : DieId)
  /-- PLL_LOCKED (R462) -/
  | pllLocked (p : Pll)
  /-- CLOCK_LOSS (R463) -/
  | clockLoss (e : ClockEvent) (b : BootEnv)
  /-- THERMAL_FORCE (R469): the sensor reading at the limit: a junction, or else the Firn die, of die d -/
  | thermalForce (d : DieId) (junction : Bool) (degC : BitVec 8)
  /-- FORCED_CLEAR (R469) -/
  | forcedClear (d : DieId)
  /-- THERMAL_TRIP (R469): sensor 0 to 11 as TWI_TEMPn, 12 to 15 Cirque junctions, 16 hub junction -/
  | thermalTrip (sensor : Fin 17) (degC : BitVec 8) (dwelt : Bool)
  /-- POWER_ON_RESET (R472) -/
  | powerOnReset (b : BootEnv)
  /-- PACKAGE_WARM_RESET (R472) -/
  | packageWarmReset (b : BootEnv)
  /-- SINGLE_DIE_RESET (R383) -/
  | singleDieReset (x : DieTarget)
  /-- CLUSTER_RESET (R471) -/
  | clusterReset (g : ClusterId)
  /-- LINK_RESET (R322) -/
  | linkReset (l : LinkId)
  /-- HOST_PORT_RESET (R416) -/
  | hostPortReset (p : HostPortId)
  /-- RAIL_PG_TIMEOUT (R502): rail in the order of Table 17-4 -/
  | railPgTimeout (rail : Fin 11)
  /-- VCORE_FAULT (R503) -/
  | vcoreFault (d : CoreFault)
  /-- VFIRN_PG_LOSS (R503) -/
  | vfirnPgLoss
  /-- VSERDES_PG_LOSS (R503) -/
  | vserdesPgLoss
  /-- VHUB_PG_LOSS (R503) -/
  | vhubPgLoss (b : BootEnv)
  /-- HBM_RAIL_FAULT (R503): HBM_VPP, HBM_VDD, HBM_VDDQ or VMOR -/
  | hbmRailFault (rail : Fin 4)
  /-- I2C_REG_READ (R507) -/
  | i2cRegRead (offset : W32)
  /-- I2C_REG_WRITE (R507) -/
  | i2cRegWrite (offset value : W32)
  /-- I2C_WAKE (R507) -/
  | i2cWake (b : BootEnv)
  /-- I2C_WARM_RESET (R507): the byte after the code -/
  | i2cWarmReset (key : Byte) (b : BootEnv)
  /-- I2C_STATUS (R507) -/
  | i2cStatus
  /-- I2C_FLASH_READ (R507) -/
  | i2cFlashRead (offset : W32) (len : Nat)
  /-- I2C_FLASH_WRITE (R507) -/
  | i2cFlashWrite (offset : W32) (data : Bytes)
  /-- I2C_FLASH_ERASE (R507) -/
  | i2cFlashErase (offset : W32)
  /-- RECOVERY_POLL (R477) -/
  | recoveryPoll
  /-- RECOVERY_CONFIGURE (R487) -/
  | recoveryConfigure (job : Fin 4)
  /-- RECOVERY_HALT (R485) -/
  | recoveryHalt (job : Fin 4)
  /-- RECOVERY_ATTEST (R497) -/
  | recoveryAttest (job : Fin 4)
  /-- RECOVERY_RESTORE (R491) -/
  | recoveryRestore (job : Fin 4)
  /-- MIRROR_START (R479) -/
  | mirrorStart (job : Fin 4)
  /-- MIRROR_COMMIT_RECEIVE (R482): from device src: generation, step and head digest -/
  | mirrorCommitReceive (job : Fin 4) (src : W32) (gen step : W32) (digest : W64)
  /-- MIRROR_COMMITTED_RECEIVE (R482) -/
  | mirrorCommittedReceive (job : Fin 4) (src : W32) (gen : W32)
  /-- MIRROR_COMMIT_TIMEOUT (R484) -/
  | mirrorCommitTimeout (job : Fin 4)
  /-- HELLO_RECEIVE (R487): from device src with its FEED -/
  | helloReceive (job : Fin 4) (src : W32) (feed : BitVec 16)
  /-- PARTNER_ANSWER_RECEIVE (R487) -/
  | partnerAnswerReceive (job : Fin 4) (src : W32) (a : PartnerAnswer)
  /-- PARTNER_ANSWER_TIMEOUT (R487) -/
  | partnerAnswerTimeout (job : Fin 4)
  /-- HEARTBEAT_SEND (R488) -/
  | heartbeatSend (job : Fin 4)
  /-- PARTNER_LOST (R490) -/
  | partnerLost (job : Fin 4)
  /-- RESTORE_REQ_RECEIVE (R491): from device src, a restore entry of Table 16-5 and the generation -/
  | restoreReqReceive (job : Fin 4) (src : W32) (gen : W32) (entry : Bytes)
  /-- MIRROR_SEGMENT_RECEIVE (R482) -/
  | mirrorSegmentReceive (m : MirrorSeg)
  /-- BIND_REQUEST_RECEIVE (R47): the producer's device and queue -/
  | bindRequestReceive (c : CtxId) (q : QueueId)
  /-- HEARTBEAT_RECEIVE (R488) -/
  | heartbeatReceive (job : Fin 4) (src : W32)
  /-- LCTL_RETRAIN_RECEIVE (R316): requested width and speed -/
  | lctlRetrainReceive (l : LinkId) (width speed : Fin 3)
  /-- PLIAND_LANE_LOCK_LOST (R391) -/
  | pliandLaneLockLost (p : HostPortId)
  /-- VCORE_RESTORED (R503) -/
  | vcoreRestored (d : DieId)
  /-- PS3_ENTRY_COMPLETE (R455) -/
  | ps3EntryComplete (d : DieId)
  /-- RESERVED_CLASS_WORD (R80) -/
  | reservedClassWord (g : ClusterId) (t : Thr) (w : BitVec 64)
  deriving DecidableEq, Repr

end Sys2Proof
end

