-- ==== Sys2Proof/Config.lean ====
section
/-! DEFINITION. What the spec leaves open: free values (constants without a body, so that nothing can be proved of them). Each
is applied to State.free, which a step that reads one advances, or to its operands. -/
namespace Sys2Proof

/-- A byte of memory with undefined content (R64, R219, R386, R515): seed of the range and address. -/
opaque Config.freeByte : Nat → Nat → BitVec 8

/-- A word with undefined content (R105): seed and place. -/
opaque Config.freeWord : Nat → Nat → BitVec 32

/-- The receive units that a Pliand port gives VC v, or the bypass channel as v = 8 (R390 names the ones that have an
allocation and no size). -/
opaque Config.portAlloc : Nat → Nat → BitVec 10

/-- The GEN byte of the capability block of a die of a KIND (Table 12-3 gives it no value): KIND. -/
opaque Config.dieGen : Nat → BitVec 8

/-- Byte i of the device's serial number (R493). -/
opaque Config.ident : Nat → BitVec 8

/-- Byte i of the SM3 digest of bytes (R229, R473, R493, R494, R497): the hash is another document's. -/
opaque Config.sm3 : List (BitVec 8) → Nat → BitVec 8

/-- Does an SM2 signature over bytes verify under a public key x ‖ y (R494, R495): key, bytes, signature? -/
opaque Config.sm2Ok : List (BitVec 8) → List (BitVec 8) → List (BitVec 8) → Bool

/-- Does the signature of an X.509 v3 certificate verify under a public key (R493): key, certificate? -/
opaque Config.certOk : List (BitVec 8) → List (BitVec 8) → Bool

/-- Byte i of the public key x ‖ y that a certificate carries (R493). -/
opaque Config.certKey : List (BitVec 8) → Nat → BitVec 8

/-- The bytes that the first of the certificates in the body of image 1 takes (R493). -/
opaque Config.certLen : List (BitVec 8) → Nat

/-- The device certificate in the body of image 0 (R493), which also holds the PUF helper data. -/
opaque Config.deviceCert : List (BitVec 8) → List (BitVec 8)

/-- Byte i of the SM3 digest of the root public key in the Bridge's mask ROM (R493). -/
opaque Config.rootDigest : Nat → BitVec 8

/-- Does a regulator acknowledge a write of its voltage target (R504): seed? -/
opaque Config.avsAck : Nat → Bool

/-- Octet i of the fields of an Ethernet frame's IP header that R334 does not give: 0 type of service or traffic class, 1 and 2 the
identification, 3 the time to live or hop limit, 4 to 6 the flow label, 7 the don't-fragment bit. -/
opaque Config.ipOpen : Nat → BitVec 8

/-- The offset from its PTP master, in 1/256 ns, that the Bridge's servo finds at a Sync message (R331, R336): seed. -/
opaque Config.ptpOffset : Nat → Int

/-- The state that the best master clock algorithm gives a PTP port (R336), whose Announce messages the spec gives no form: seed, link;
0 master, 1 slave, 2 passive. -/
opaque Config.ptpState : Nat → Nat → Fin 3

end Sys2Proof
end

