-- ==== Sys2Proof/Machine/Bits.lean ====
section
/-! DEFINITION. Bit fields, sign extension and the little-endian byte order of R6. -/
namespace Sys2Proof.Machine

/-- Bits [lo + w - 1 : lo] of x. -/
def bits (x lo w : Nat) : Nat := x / 2 ^ lo % 2 ^ w

/-- Bit i of x. -/
def bit (x i : Nat) : Bool := x / 2 ^ i % 2 == 1

/-- x with bits [lo + w - 1 : lo] replaced by v. -/
def setBits (x lo w v : Nat) : Nat :=
  x / 2 ^ (lo + w) * 2 ^ (lo + w) + v % 2 ^ w * 2 ^ lo + x % 2 ^ lo

/-- 1 for true. -/
def b2n (b : Bool) : Nat := if b then 1 else 0

/-- x as a two's complement number of w bits. -/
def signed (w x : Nat) : Int := if x % 2 ^ w < 2 ^ (w - 1) then (x % 2 ^ w : Nat) else (x % 2 ^ w : Nat) - (2 ^ w : Nat)

/-- i modulo 2^w. -/
def wrapInt (w : Nat) (i : Int) : Nat := (i % (2 ^ w : Nat)).toNat

/-- The little-endian value of a string of bytes (R6). -/
def leNat : Bytes → Nat
  | [] => 0
  | b :: r => b.toNat + 256 * leNat r

/-- The n bytes of x, lowest first (R6). -/
def leBytes : Nat → Nat → Bytes
  | 0, _ => []
  | n + 1, x => BitVec.ofNat 8 x :: leBytes n (x / 256)

/-- Bytes [o, o + n) of a record, as a little-endian number. -/
def field (r : Bytes) (o n : Nat) : Nat := leNat ((r.drop o).take n)

/-- The record r with the n bytes at o replaced by those of x. -/
def putField (r : Bytes) (o n x : Nat) : Bytes := r.take o ++ leBytes n x ++ r.drop (o + n)

/-- The number of one bits among bits [n - 1 : 0] of x. -/
def popCount : Nat → Nat → Nat
  | 0, _ => 0
  | n + 1, x => x % 2 + popCount n (x / 2)

/-- The positions of the one bits of x from position i, for n positions. -/
def onesFrom (i : Nat) : Nat → Nat → List Nat
  | 0, _ => []
  | n + 1, x => if x % 2 = 1 then i :: onesFrom (i + 1) n (x / 2) else onesFrom (i + 1) n (x / 2)

/-- The lowest one bit of x among bits [lo + n - 1 : lo]. -/
def lowestOne (x lo n : Nat) : Option Nat := (onesFrom lo n (x / 2 ^ lo)).head?

/-- x div y, rounded up. -/
def ceilDiv (x y : Nat) : Nat := (x + y - 1) / y

end Sys2Proof.Machine
end

