-- ==== Sys2Proof/Machine/Num.lean ====
section
/-! DEFINITION. The number formats and their arithmetic: values of codes (R112 to R117), conversions with round-to-nearest-even
and their events (R121 to R126), IEEE results in FP32 (R118, R119), exact sums (R140), stochastic rounding (R128), Serac
(R284) and the CRCs of R299 and R435. Every value is computed exactly and rounded once. -/
namespace Sys2Proof.Machine

/-- The formats of Table 4-1. -/
inductive Fmt where
  | fp32 | w16 | w12 | w8 | int8
  deriving DecidableEq, Repr

/-- The FMT codes of Table 5-6. -/
def fmtOf : Nat → Option Fmt
  | 0 => some .fp32 | 1 => some .w16 | 2 => some .w12 | 3 => some .w8 | 4 => some .int8 | _ => none

/-- Bytes of an element in memory (Table 5-6). -/
def fmtSize : Fmt → Nat
  | .fp32 => 4 | .w16 => 2 | .w12 => 2 | .w8 => 1 | .int8 => 1

/-- A value: NaN with its sign, an infinity, or ± m × 2^e. -/
inductive Val where
  | nan (neg : Bool)
  | inf (neg : Bool)
  | fin (neg : Bool) (m : Nat) (e : Int)
  deriving DecidableEq, Repr

/-- Mantissa bits of a floating format. -/
def fmtK : Fmt → Nat
  | .fp32 => 23 | .w16 => 7 | .w12 => 5 | .w8 => 1 | .int8 => 0

/-- Exponent of the smallest subnormal (Table 4-1). -/
def fmtMin : Fmt → Int
  | .fp32 => -149 | .w16 => -133 | .w12 => -35 | .w8 => -31 | .int8 => 0

/-- Code of the greatest finite magnitude (Table 4-1). -/
def fmtMax : Fmt → Nat
  | .fp32 => 0x7F7FFFFF | .w16 => 0x7F7F | .w12 => 0x7FE | .w8 => 0x7E | .int8 => 127

/-- Bits of a code. -/
def fmtBits : Fmt → Nat
  | .fp32 => 32 | .w16 => 16 | .w12 => 12 | .w8 => 8 | .int8 => 8

/-- The formats without infinities saturate (R123). -/
def fmtSat : Fmt → Bool
  | .fp32 => false | .w16 => false | _ => true

/-- The value of a code (R113, R114, Tables 4-2 to 4-5); bits above the code's width are ignored (R115). -/
def valueOf (f : Fmt) (c : Nat) : Val :=
  if f = .int8 then
    let x := signed 8 c
    .fin (decide (x < 0)) x.natAbs 0
  else
    let b := fmtBits f
    let neg := bit c (b - 1)
    let mag := c % 2 ^ (b - 1)
    let k := fmtK f
    if mag > fmtMax f then
      if fmtSat f then .nan neg else if mag = fmtMax f + 1 then .inf neg else .nan neg
    else if mag / 2 ^ k = 0 then .fin neg mag (fmtMin f)
    else .fin neg (2 ^ k + mag % 2 ^ k) (fmtMin f + (mag / 2 ^ k : Nat) - 1)

/-- m × 2^e rounded to an integer, ties to even. -/
def roundInt (m : Nat) (e : Int) : Nat :=
  if 0 ≤ e then m * 2 ^ e.toNat
  else
    let s := (-e).toNat
    let q := m / 2 ^ s
    let r := m % 2 ^ s
    if 2 * r > 2 ^ s ∨ (2 * r = 2 ^ s ∧ q % 2 = 1) then q + 1 else q

/-- The code of the magnitude m × 2^e in a format of k mantissa bits with quantum 2^emin, the code sequence continued above
the greatest finite code (R122). -/
def roundMag (k : Nat) (emin : Int) (m : Nat) (e : Int) : Nat :=
  if m = 0 then 0
  else
    let u := max emin ((Nat.log2 m : Int) + e - k)
    roundInt m (e - u) + (u - emin).toNat * 2 ^ k

/-- The conversion events of R125. -/
structure Events where
  zero : Bool := false
  sat : Bool := false
  nonfin : Bool := false
  deriving DecidableEq, Repr

/-- Attaches a sign to a magnitude code. -/
def withSign (f : Fmt) (neg : Bool) (mag : Nat) : Nat := if neg then mag + 2 ^ (fmtBits f - 1) else mag

/-- The canonical NaN of a format with a sign (R120). -/
def nanCode (f : Fmt) (neg : Bool) : Nat :=
  match f with
  | .fp32 => withSign f neg 0x7FC00000
  | .w16 => withSign f neg 0x7FC0
  | .w12 => withSign f neg 0x7FF
  | .w8 => withSign f neg 0x7F
  | .int8 => 0

/-- Conversion of a value to a format, with its events (R120 to R126): a NaN reports NONFINITE alone, in INT8 too (Table 4-6;
DEDUCED, log entry 11). -/
def convert (f : Fmt) (v : Val) : Nat × Events :=
  match v with
  | .nan neg => (nanCode f neg, { nonfin := true })
  | .inf neg =>
    if f = .int8 then (if neg then 0x80 else 0x7F, { sat := true, nonfin := true })
    else if fmtSat f then (withSign f neg (fmtMax f), { sat := true, nonfin := true })
    else (withSign f neg (fmtMax f + 1), { nonfin := true })
  | .fin neg m e =>
    if f = .int8 then
      let q := roundInt m e
      if neg then
        if q > 128 then (0x80, { sat := true }) else ((256 - q) % 256, { zero := decide (q = 0) })
      else if q > 127 then (0x7F, { sat := true }) else (q, { zero := decide (q = 0) })
    else
      let c := roundMag (fmtK f) (fmtMin f) m e
      if c > fmtMax f then
        if fmtSat f then (withSign f neg (fmtMax f), { sat := true })
        else (withSign f neg (fmtMax f + 1), { nonfin := true })
      else (withSign f neg c, { zero := decide (c = 0) })

/-- An arithmetic result in FP32 or W16: every NaN is the canonical positive one (R119). -/
def rneTo (f : Fmt) (v : Val) : Nat :=
  match v with
  | .nan _ => nanCode f false
  | _ => (convert f v).1

/-- An arithmetic result in FP32 (R119). -/
def rne32 (v : Val) : W32 := BitVec.ofNat 32 (rneTo .fp32 v)

/-- The value of an FP32 code. -/
def val32 (x : W32) : Val := valueOf .fp32 x.toNat

/-- Is the value NaN? -/
def Val.isNan : Val → Bool
  | .nan _ => true
  | _ => false

/-- The sign of a value. -/
def Val.sign : Val → Bool
  | .nan s => s
  | .inf s => s
  | .fin s _ _ => s

/-- Is the value NaN or an infinity? -/
def Val.nonfinite : Val → Bool
  | .fin _ _ _ => false
  | _ => true

/-- The value with its sign reversed. -/
def Val.neg : Val → Val
  | .nan s => .nan (!s)
  | .inf s => .inf (!s)
  | .fin s m e => .fin (!s) m e

/-- The exact product; 0 × ∞ is NaN. -/
def Val.mul : Val → Val → Val
  | .nan _, _ => .nan false
  | _, .nan _ => .nan false
  | .inf s, .inf t => .inf (s != t)
  | .inf s, .fin t m _ => if m = 0 then .nan false else .inf (s != t)
  | .fin s m _, .inf t => if m = 0 then .nan false else .inf (s != t)
  | .fin s m e, .fin t n f => .fin (s != t) (m * n) (e + f)

/-- The least exponent of the finite values of a list. -/
def minExp : List Val → Int
  | [] => 0
  | .fin _ _ e :: [] => e
  | .fin _ _ e :: r => min e (minExp r)
  | _ :: r => minExp r

/-- The sum of the finite values as a multiple of 2^e. -/
def sumAt (e : Int) : List Val → Int
  | [] => 0
  | .fin s m f :: r => (if s then -((m * 2 ^ (f - e).toNat : Nat) : Int) else ((m * 2 ^ (f - e).toNat : Nat) : Int)) + sumAt e r
  | _ :: r => sumAt e r

/-- The exact sum of addends (R140, cases 1 to 4 before the rounding). -/
def sumVals (l : List Val) : Val :=
  if l.any Val.isNan then .nan false
  else
    let pos := l.any (fun v => v = .inf false)
    let ng := l.any (fun v => v = .inf true)
    if pos && ng then .nan false
    else if pos then .inf false
    else if ng then .inf true
    else
      let e := minExp l
      let s := sumAt e l
      if s = 0 then .fin (l.all Val.sign) 0 e
      else .fin (decide (s < 0)) s.natAbs e

/-- Integer square root: the greatest r below 2^n with r² ≤ x. -/
def isqrtGo (x : Nat) : Nat → Nat → Nat
  | 0, r => r
  | n + 1, r => if (r + 2 ^ n) * (r + 2 ^ n) ≤ x then isqrtGo x n (r + 2 ^ n) else isqrtGo x n r

/-- Integer square root. -/
def isqrt (x : Nat) : Nat := isqrtGo x (Nat.log2 x / 2 + 1) 0

/-- A quotient with 64 more bits and a sticky bit, for one rounding. -/
def Val.div : Val → Val → Val
  | .nan _, _ => .nan false
  | _, .nan _ => .nan false
  | .inf _, .inf _ => .nan false
  | .inf s, .fin t _ _ => .inf (s != t)
  | .fin s _ _, .inf t => .fin (s != t) 0 0
  | .fin s m e, .fin t n f =>
    if n = 0 then (if m = 0 then .nan false else .inf (s != t))
    else
      let sh := 64 + Nat.log2 n
      .fin (s != t) (2 * (m * 2 ^ sh / n) + b2n (m * 2 ^ sh % n != 0)) (e - f - sh - 1)

/-- A square root with a sticky bit, for one rounding. -/
def Val.sqrt : Val → Val
  | .nan _ => .nan false
  | .inf s => if s then .nan false else .inf false
  | .fin s m e =>
    if m = 0 then .fin s 0 e
    else if s then .nan false
    else
      let sh : Nat := if e % 2 = 0 then 128 else 129
      let x := m * 2 ^ sh
      let r := isqrt x
      .fin false (2 * r + b2n (r * r != x)) ((e - sh) / 2 - 1)

/-- A reciprocal square root with a sticky bit, for one rounding: +∞ at ±0 (R176). -/
def Val.rsqrt : Val → Val
  | .nan _ => .nan false
  | .inf s => if s then .nan false else .fin false 0 0
  | .fin s m e =>
    if m = 0 then .inf false
    else if s then .nan false
    else
      let m' := if e % 2 = 0 then m else 2 * m
      let e' := if e % 2 = 0 then e else e - 1
      let h := 65 + Nat.log2 m' / 2
      let x := 2 ^ (2 * h)
      let r := isqrt (x / m')
      .fin false (2 * r + b2n (r * r * m' != x)) (-(e' / 2) - h - 1)

/-- The order of two values that are not NaN: is a below b? Zeros of both signs are equal. -/
def Val.lt (a b : Val) : Bool :=
  match a, b with
  | .nan _, _ => false
  | _, .nan _ => false
  | .inf true, .inf true => false
  | .inf true, _ => true
  | _, .inf true => false
  | .inf false, _ => false
  | _, .inf false => true
  | x, y => decide (sumAt (minExp [x, y]) [x] < sumAt (minExp [x, y]) [y])

/-- FP32 addition, rounded once (R119). -/
def fadd (a b : W32) : W32 := rne32 (sumVals [val32 a, val32 b])
/-- FP32 negation of the sign bit. -/
def fneg (a : W32) : W32 := a ^^^ 0x80000000#32
/-- FP32 subtraction. -/
def fsub (a b : W32) : W32 := rne32 (sumVals [val32 a, (val32 b).neg])
/-- FP32 multiplication. -/
def fmul (a b : W32) : W32 := rne32 ((val32 a).mul (val32 b))
/-- a × b + c with one rounding. -/
def ffma (a b c : W32) : W32 := rne32 (sumVals [(val32 a).mul (val32 b), val32 c])
/-- FP32 division. -/
def fdiv (a b : W32) : W32 := rne32 ((val32 a).div (val32 b))
/-- FP32 square root. -/
def fsqrt (a : W32) : W32 := rne32 (val32 a).sqrt

/-- Stochastic rounding of an FP32 code to W16 (R128). -/
def sr16 (v : W32) (r : Nat) : Nat :=
  if (val32 v).isNan then nanCode .w16 (val32 v).sign
  else
    let hi := v.toNat / 2 ^ 16
    if v.toNat % 2 ^ 16 + r ≥ 2 ^ 16 then hi + 1 else hi

/-- The events of sr16 (R129): a finite value that rounds to an infinity reports NONFINITE. -/
def sr16Events (v : W32) (r : Nat) : Events :=
  let c := valueOf .w16 (sr16 v r)
  { zero := (match c with | .fin _ 0 _ => true | _ => false), nonfin := (val32 v).nonfinite || c.nonfinite }

/-- The signed order number of a W16 code (R258). -/
def ord16 (c : Nat) : Int := if c < 0x8000 then c else -((c - 0x8000 : Nat) : Int)

/-- The W16 code of an order number (R258). -/
def code16 (k : Int) : Nat := if 0 ≤ k then k.toNat else 0x8000 + (-k).toNat

/-! Serac (R284). -/

/-- The four words of Serac's state. -/
structure SeracWords where
  x0 : W32
  x1 : W32
  x2 : W32
  x3 : W32
  deriving DecidableEq, Repr

/-- Rotation to the left. -/
def rotl (x : W32) (n : Nat) : W32 := x.rotateLeft n

/-- Key word j mod 5 of the key, with k4 of R284. -/
def seracKey (k0 k1 k2 k3 : W32) (j : Nat) : W32 :=
  match j % 5 with
  | 0 => k0 | 1 => k1 | 2 => k2 | 3 => k3 | _ => k0 ^^^ k1 ^^^ k2 ^^^ k3 ^^^ 0x7a31d4e9#32

/-- inject(j) of R284. -/
def seracInject (k0 k1 k2 k3 : W32) (j : Nat) (x : SeracWords) : SeracWords :=
  ⟨x.x0 + seracKey k0 k1 k2 k3 j, x.x1 + seracKey k0 k1 k2 k3 (j + 1), x.x2 + seracKey k0 k1 k2 k3 (j + 2),
    x.x3 + seracKey k0 k1 k2 k3 (j + 3) + BitVec.ofNat 32 j⟩

/-- An even round. -/
def seracEven (a b : Nat) (x : SeracWords) : SeracWords :=
  let x0 := x.x0 + x.x1
  let x2 := x.x2 + x.x3
  ⟨x0, rotl x.x1 a ^^^ x0, x2, rotl x.x3 b ^^^ x2⟩

/-- An odd round before its inject. -/
def seracOdd (a b : Nat) (x : SeracWords) : SeracWords :=
  let x0 := x.x0 + x.x3
  let x2 := x.x2 + x.x1
  ⟨x0, rotl x.x1 b ^^^ x2, x2, rotl x.x3 a ^^^ x0⟩

/-- Serac (R284): the 128 output bits, x0 lowest. -/
def serac (k0 k1 k2 k3 : W32) (stream step : W32) (pos : Nat) : Nat :=
  let i := seracInject k0 k1 k2 k3
  let x : SeracWords := ⟨BitVec.ofNat 32 pos, BitVec.ofNat 32 (pos / 2 ^ 32), step, stream⟩
  let x := i 1 (seracOdd 12 25 (seracEven 7 19 (i 0 x)))
  let x := i 2 (seracOdd 16 9 (seracEven 29 3 x))
  let x := i 3 (seracOdd 5 27 (seracEven 21 14 x))
  let x := i 4 (seracOdd 24 2 (seracEven 18 11 x))
  let x := i 5 (seracOdd 8 22 (seracEven 13 30 x))
  x.x0.toNat + x.x1.toNat * 2 ^ 32 + x.x2.toNat * 2 ^ 64 + x.x3.toNat * 2 ^ 96

/-! Cyclic redundancy checks. -/

/-- n bits of a reflected CRC with polynomial p. -/
def crcRefl (p : Nat) : Nat → Nat → Nat
  | 0, c => c
  | n + 1, c => crcRefl p n (if c % 2 = 1 then (c / 2) ^^^ p else c / 2)

/-- CRC-32C of a byte string (R435): reflected polynomial 0x82F63B78, initial value and final XOR all ones. -/
def crc32cGo (c : Nat) : Bytes → Nat
  | [] => c
  | b :: r => crc32cGo (crcRefl 0x82F63B78 8 (c ^^^ b.toNat)) r

/-- CRC-32C (R435). -/
def crc32c (b : Bytes) : W32 := BitVec.ofNat 32 (crc32cGo 0xFFFFFFFF b ^^^ 0xFFFFFFFF)

/-- n bits of the CRC-64 of R299. -/
def crc64Bits : Nat → Nat → Nat
  | 0, c => c
  | n + 1, c => crc64Bits n (if c / 2 ^ 63 = 1 then (c * 2 % 2 ^ 64) ^^^ 0x42F0E1EBA9EA3693 else c * 2)

/-- The CRC-64 register after a byte string. -/
def crc64Go (c : Nat) : Bytes → Nat
  | [] => c
  | b :: r => crc64Go (crc64Bits 8 (c ^^^ (b.toNat * 2 ^ 56))) r

/-- CRC-64 with the ECMA-182 polynomial, not reflected, initial value and final XOR all ones (R299). -/
def crc64 (b : Bytes) : Nat := crc64Go (2 ^ 64 - 1) b ^^^ (2 ^ 64 - 1)

end Sys2Proof.Machine
end

