-- ==== Sys2Proof/Machine/Tbl.lean ====
section
/-! DEFINITION. Sparse tables: a numbered set of like things of which most stand at their reset value. A table lists
(key, value) pairs with rising keys and never lists the value that an unlisted key has, so that equal tables are equal
data. -/
namespace Sys2Proof.Machine

/-- A sparse table over numbered keys. -/
abbrev Tbl (α : Type) := List (Nat × α)

variable {α : Type}

/-- The value of key k, d where it is not listed. -/
def Tbl.get (d : α) : Tbl α → Nat → α
  | [], _ => d
  | (j, v) :: r, k => if j = k then v else Tbl.get d r k

/-- Removes key k. -/
def Tbl.erase (t : Tbl α) (k : Nat) : Tbl α := t.filter fun e => e.1 != k

/-- Lists value v at key k. -/
def Tbl.insert : Tbl α → Nat → α → Tbl α
  | [], k, v => [(k, v)]
  | (j, w) :: r, k, v =>
    if j = k then (k, v) :: r else if k < j then (k, v) :: (j, w) :: r else (j, w) :: Tbl.insert r k v

/-- Gives key k the value v; the default value d is not listed. -/
def Tbl.put [DecidableEq α] (d : α) (t : Tbl α) (k : Nat) (v : α) : Tbl α :=
  if v = d then Tbl.erase t k else Tbl.insert t k v

/-- Keys rise strictly from at least n, and no value is the default d. -/
def Tbl.wfFrom [DecidableEq α] (d : α) : Nat → Tbl α → Bool
  | _, [] => true
  | n, (k, v) :: r => decide (n ≤ k) && decide (v ≠ d) && Tbl.wfFrom d (k + 1) r

/-- The canonical form of a table. -/
def Tbl.wf [DecidableEq α] (d : α) (t : Tbl α) : Bool := Tbl.wfFrom d 0 t

/-- The sum of f over a list. -/
def sumBy {β : Type} (f : β → Nat) : List β → Nat
  | [] => 0
  | x :: r => f x + sumBy f r

/-- The list a, a + 1, …, a + n - 1. -/
def upFrom (a : Nat) : Nat → List Nat
  | 0 => []
  | n + 1 => a :: upFrom (a + 1) n

end Sys2Proof.Machine
end

