-- ==== Sys2Proof/Machine/Registers.lean ====
section
/-! DEFINITION. The registers of the register space (R423, Table 14-1): where each stands, its fields, and what each bit
is (Table 0-3): the masks are read from the register tables of the home chapters. -/
namespace Sys2Proof.Machine

/-- A field of a register: its lowest bit and its width. -/
structure Fld where
  lo : Nat
  w : Nat
  deriving DecidableEq, Repr

/-- A register and its instances: offset base + Σ iᵢ × strideᵢ with iᵢ below countᵢ, the masks of its bits by access code
(Table 0-3; every other bit is RO), its reset value, the staged bits (R427) and the configuration fields (R435). -/
structure RegDef where
  base : Nat
  dims : List (Nat × Nat)
  rw : Nat
  rwk : Nat
  wo : Nat
  w1c : Nat
  rc : Nat
  rst : Nat
  stg : Nat
  cfg : Nat
  deriving DecidableEq, Repr

/-! Offsets in the register space. -/

def Reg.stgCaps : Nat := 0x200000
def Reg.stgExclude (n : Nat) : Nat := 0x200100 + n * 0x4
def Reg.stgPartMap (p n : Nat) : Nat := 0x201000 + p * 0x80 + n * 0x4
def Reg.stgPartCtrl (p : Nat) : Nat := 0x201040 + p * 0x80
def Reg.stgPartStatus (p : Nat) : Nat := 0x201044 + p * 0x80
def Reg.stgCtxCtrl (c : Nat) : Nat := 0x210000 + c * 0x100
def Reg.stgCtxStatus (c : Nat) : Nat := 0x210004 + c * 0x100
def Reg.stgCtxStash (c : Nat) : Nat := 0x210008 + c * 0x100
def Reg.stgCtxStashBase (c : Nat) : Nat := 0x21000C + c * 0x100
def Reg.stgCtxStashPages (c : Nat) : Nat := 0x210010 + c * 0x100
def Reg.stgqCfg (c q : Nat) : Nat := 0x210020 + c * 0x100 + q * 0x30
def Reg.stgqSlot (c q : Nat) : Nat := 0x210024 + c * 0x100 + q * 0x30
def Reg.stgqHdr (c q : Nat) : Nat := 0x210028 + c * 0x100 + q * 0x30
def Reg.stgqFirn (c q : Nat) : Nat := 0x21002C + c * 0x100 + q * 0x30
def Reg.stgqPeer (c q : Nat) : Nat := 0x210030 + c * 0x100 + q * 0x30
def Reg.stgqPeerDev (c q : Nat) : Nat := 0x210034 + c * 0x100 + q * 0x30
def Reg.stgqSpillBase (c q : Nat) : Nat := 0x210038 + c * 0x100 + q * 0x30
def Reg.stgqSpillDepth (c q : Nat) : Nat := 0x21003C + c * 0x100 + q * 0x30
def Reg.stgqCount (c q : Nat) : Nat := 0x210040 + c * 0x100 + q * 0x30
def Reg.stgqOcc (c q : Nat) : Nat := 0x210044 + c * 0x100 + q * 0x30
def Reg.stgqBound (c q : Nat) : Nat := 0x210048 + c * 0x100 + q * 0x30
def Reg.stgqStall (c q : Nat) : Nat := 0x21004C + c * 0x100 + q * 0x30
def Reg.stgTabCtrl (p : Nat) : Nat := 0x240000 + p * 0x1000
def Reg.stgTabBase (p : Nat) : Nat := 0x240004 + p * 0x1000
def Reg.stgTabLen (p : Nat) : Nat := 0x240008 + p * 0x1000
def Reg.stgTabStatus (p : Nat) : Nat := 0x24000C + p * 0x1000
def Reg.stgTabIter (p : Nat) : Nat := 0x240010 + p * 0x1000
def Reg.stgTabStep (p : Nat) : Nat := 0x240014 + p * 0x1000
def Reg.stgTabSkip (p : Nat) : Nat := 0x240018 + p * 0x1000
def Reg.stgTabEval (p : Nat) : Nat := 0x24001C + p * 0x1000
def Reg.stgTabWaitcfg (p : Nat) : Nat := 0x240030 + p * 0x1000
def Reg.stgTabFc (p : Nat) : Nat := 0x240034 + p * 0x1000
def Reg.stgTabFill (p : Nat) : Nat := 0x240038 + p * 0x1000
def Reg.stgTabFillWin (p : Nat) : Nat := 0x24003C + p * 0x1000
def Reg.stgTabBubble (p : Nat) : Nat := 0x240040 + p * 0x1000
def Reg.stgTabFills (p : Nat) : Nat := 0x240044 + p * 0x1000
def Reg.stgTabTc (p n : Nat) : Nat := 0x240020 + p * 0x1000 + n * 0x4
def Reg.cirMcCtrl (g k : Nat) : Nat := 0x400400 + g * 0x2000 + k * 0x40
def Reg.cirMcGang (g k : Nat) : Nat := 0x400404 + g * 0x2000 + k * 0x40
def Reg.cirMcLoff (g k : Nat) : Nat := 0x400408 + g * 0x2000 + k * 0x40
def Reg.cirMcEoff (g k : Nat) : Nat := 0x40040C + g * 0x2000 + k * 0x40
def Reg.cirMcSoff (g k : Nat) : Nat := 0x400410 + g * 0x2000 + k * 0x40
def Reg.cirMcStatus (g k : Nat) : Nat := 0x400414 + g * 0x2000 + k * 0x40
def Reg.cirMcFrzBank (g k : Nat) : Nat := 0x400420 + g * 0x2000 + k * 0x40
def Reg.cirMcFrzAcc (g k : Nat) : Nat := 0x400424 + g * 0x2000 + k * 0x40
def Reg.cirMcFrzBow (g k : Nat) : Nat := 0x400428 + g * 0x2000 + k * 0x40
def Reg.cirMcHold (g k : Nat) : Nat := 0x40042C + g * 0x2000 + k * 0x40
def Reg.cirMcUnits (g k : Nat) : Nat := 0x400430 + g * 0x2000 + k * 0x40
def Reg.cirMcMismatch (g k : Nat) : Nat := 0x400434 + g * 0x2000 + k * 0x40
def Reg.cirMcCaps (g k : Nat) : Nat := 0x400438 + g * 0x2000 + k * 0x40
def Reg.cirMcBank (g k b : Nat) : Nat := 0x400418 + g * 0x2000 + k * 0x40 + b * 0x4
def Reg.cirVeStatus (g : Nat) : Nat := 0x400800 + g * 0x2000
def Reg.cirVeCaps (g : Nat) : Nat := 0x400804 + g * 0x2000
def Reg.cirVeElems (g : Nat) : Nat := 0x400828 + g * 0x2000
def Reg.cirVeHaz (g : Nat) : Nat := 0x40082C + g * 0x2000
def Reg.cirVePort (g : Nat) : Nat := 0x400830 + g * 0x2000
def Reg.cirVeMasked (g : Nat) : Nat := 0x400834 + g * 0x2000
def Reg.cirVeDropped (g : Nat) : Nat := 0x400838 + g * 0x2000
def Reg.cirVeTbl (g n : Nat) : Nat := 0x400808 + g * 0x2000 + n * 0x4
def Reg.cirVeTchk (g n : Nat) : Nat := 0x400818 + g * 0x2000 + n * 0x4
def Reg.cirCeCfg (g : Nat) : Nat := 0x400C00 + g * 0x2000
def Reg.cirCeStatus (g : Nat) : Nat := 0x400C04 + g * 0x2000
def Reg.cirCeBytes (g : Nat) : Nat := 0x400C28 + g * 0x2000
def Reg.cirCeMerged (g : Nat) : Nat := 0x400C2C + g * 0x2000
def Reg.cirCeAged (g : Nat) : Nat := 0x400C30 + g * 0x2000
def Reg.cirCeSlotwait (g : Nat) : Nat := 0x400C34 + g * 0x2000
def Reg.cirCeTmo (g : Nat) : Nat := 0x400C38 + g * 0x2000
def Reg.cirCeLatMax (g : Nat) : Nat := 0x400C3C + g * 0x2000
def Reg.cirCeCh (g k : Nat) : Nat := 0x400C08 + g * 0x2000 + k * 0x4
def Reg.cirFpShare (g : Nat) : Nat := 0x400E00 + g * 0x2000
def Reg.cirFpScrub (g : Nat) : Nat := 0x400E04 + g * 0x2000
def Reg.cirFpCe (g : Nat) : Nat := 0x400E08 + g * 0x2000
def Reg.cirFpUe (g : Nat) : Nat := 0x400E0C + g * 0x2000
def Reg.cirFpErraddr (g : Nat) : Nat := 0x400E10 + g * 0x2000
def Reg.cirFpConflict (g : Nat) : Nat := 0x400E14 + g * 0x2000
def Reg.cirNuCtrl (g : Nat) : Nat := 0x400F00 + g * 0x2000
def Reg.cirNuLtab (g : Nat) : Nat := 0x400F04 + g * 0x2000
def Reg.cirNuLog (g : Nat) : Nat := 0x400F08 + g * 0x2000
def Reg.cirNuStatus (g : Nat) : Nat := 0x400F24 + g * 0x2000
def Reg.cirNuReplays (g : Nat) : Nat := 0x400F28 + g * 0x2000
def Reg.cirNuFails (g : Nat) : Nat := 0x400F2C + g * 0x2000
def Reg.cirNuMismatch (g : Nat) : Nat := 0x400F30 + g * 0x2000
def Reg.cirNuCommits (g : Nat) : Nat := 0x400F34 + g * 0x2000
def Reg.cirNuHold (g n : Nat) : Nat := 0x400F0C + g * 0x2000 + n * 0x4
def Reg.cirNuSeed (g n : Nat) : Nat := 0x400F14 + g * 0x2000 + n * 0x4
def Reg.cirRimeConv (g n : Nat) : Nat := 0x401000 + g * 0x2000 + n * 0x20
def Reg.cirRimeZero (g n : Nat) : Nat := 0x401004 + g * 0x2000 + n * 0x20
def Reg.cirRimeSat (g n : Nat) : Nat := 0x401008 + g * 0x2000 + n * 0x20
def Reg.cirRimeNonfin (g n : Nat) : Nat := 0x40100C + g * 0x2000 + n * 0x20
def Reg.cirRimeTconv (g n : Nat) : Nat := 0x401010 + g * 0x2000 + n * 0x20
def Reg.cirRimeTzero (g n : Nat) : Nat := 0x401014 + g * 0x2000 + n * 0x20
def Reg.cirRimeTsat (g n : Nat) : Nat := 0x401018 + g * 0x2000 + n * 0x20
def Reg.cirRimeTnonfin (g n : Nat) : Nat := 0x40101C + g * 0x2000 + n * 0x20
def Reg.cirNuWlvl (g n : Nat) : Nat := 0x401800 + g * 0x2000 + n * 0x4
def Reg.cirPmCtrl (g : Nat) : Nat := 0x401C00 + g * 0x2000
def Reg.cirPmStatus (g : Nat) : Nat := 0x401C04 + g * 0x2000
def Reg.cirPmTime1 (g : Nat) : Nat := 0x401C08 + g * 0x2000
def Reg.cirPmTime2 (g : Nat) : Nat := 0x401C0C + g * 0x2000
def Reg.cirPmEntries (g : Nat) : Nat := 0x401C10 + g * 0x2000
def Reg.morEngStatus (s : Nat) : Nat := 0x800000 + s * 0x100000
def Reg.morEngCaps (s : Nat) : Nat := 0x800004 + s * 0x100000
def Reg.morEngCfg (s : Nat) : Nat := 0x800008 + s * 0x100000
def Reg.morEngElems (s : Nat) : Nat := 0x80000C + s * 0x100000
def Reg.morEngKib (s : Nat) : Nat := 0x800010 + s * 0x100000
def Reg.morEngNonfin (s : Nat) : Nat := 0x800014 + s * 0x100000
def Reg.morEngLatMax (s : Nat) : Nat := 0x800018 + s * 0x100000
def Reg.morHmap (s : Nat) : Nat := 0x8C0000 + s * 0x100000
def Reg.morCtlCfg (s : Nat) : Nat := 0x8C0004 + s * 0x100000
def Reg.morCtlStatus (s : Nat) : Nat := 0x8C0008 + s * 0x100000
def Reg.morLatMax (s : Nat) : Nat := 0x8C000C + s * 0x100000
def Reg.morEccCe (s : Nat) : Nat := 0x8C0010 + s * 0x100000
def Reg.morEccUe (s : Nat) : Nat := 0x8C0014 + s * 0x100000
def Reg.morRetCfg (s : Nat) : Nat := 0x8C0018 + s * 0x100000
def Reg.morRetStatus (s : Nat) : Nat := 0x8C001C + s * 0x100000
def Reg.morRetSel (s : Nat) : Nat := 0x8C0020 + s * 0x100000
def Reg.morRetEntry (s : Nat) : Nat := 0x8C0024 + s * 0x100000
def Reg.morRetAddr (s : Nat) : Nat := 0x8C0028 + s * 0x100000
def Reg.morRetCtrl (s : Nat) : Nat := 0x8C002C + s * 0x100000
def Reg.morRetDrops (s : Nat) : Nat := 0x8C0030 + s * 0x100000
def Reg.morAct (s : Nat) : Nat := 0x8C0034 + s * 0x100000
def Reg.morHit (s : Nat) : Nat := 0x8C0038 + s * 0x100000
def Reg.snpCaps : Nat := 0x280000
def Reg.snpCtxCfg (c : Nat) : Nat := 0x281000 + c * 0x80
def Reg.snpCtxElems (c : Nat) : Nat := 0x281004 + c * 0x80
def Reg.snpCtxStore (c : Nat) : Nat := 0x281008 + c * 0x80
def Reg.snpCtxExc (c : Nat) : Nat := 0x28100C + c * 0x80
def Reg.snpCtxPeers (c : Nat) : Nat := 0x281010 + c * 0x80
def Reg.snpCtxTmo (c : Nat) : Nat := 0x281014 + c * 0x80
def Reg.snpCtxCtrl (c : Nat) : Nat := 0x281018 + c * 0x80
def Reg.snpCtxHead (c : Nat) : Nat := 0x28101C + c * 0x80
def Reg.snpCtxBuild (c : Nat) : Nat := 0x281020 + c * 0x80
def Reg.snpCtxBstep (c : Nat) : Nat := 0x281024 + c * 0x80
def Reg.snpCtxStatus (c : Nat) : Nat := 0x281028 + c * 0x80
def Reg.snpCtxWait (c : Nat) : Nat := 0x28102C + c * 0x80
def Reg.snpCtxOver (c : Nat) : Nat := 0x281030 + c * 0x80
def Reg.snpCtxStray (c : Nat) : Nat := 0x281034 + c * 0x80
def Reg.snpSlot (c k : Nat) : Nat := 0x281040 + c * 0x80 + k * 0x4
def Reg.lnkCtrl (l : Nat) : Nat := 0x100000 + l * 0x4000
def Reg.lnkStatus (l : Nat) : Nat := 0x100004 + l * 0x4000
def Reg.lnkTmr (l : Nat) : Nat := 0x100008 + l * 0x4000
def Reg.lnkGrace (l : Nat) : Nat := 0x10000C + l * 0x4000
def Reg.lnkTxseq (l : Nat) : Nat := 0x100010 + l * 0x4000
def Reg.lnkRxseq (l : Nat) : Nat := 0x100014 + l * 0x4000
def Reg.lnkPeer (l : Nat) : Nat := 0x100018 + l * 0x4000
def Reg.lnkPeerid (l : Nat) : Nat := 0x10001C + l * 0x4000
def Reg.lnkAllocb (l : Nat) : Nat := 0x100040 + l * 0x4000
def Reg.lnkEthCfg (l : Nat) : Nat := 0x100044 + l * 0x4000
def Reg.lnkEthUdp (l : Nat) : Nat := 0x100048 + l * 0x4000
def Reg.lnkEthPeeraddr (l : Nat) : Nat := 0x100080 + l * 0x4000
def Reg.lnkCrcerr (l : Nat) : Nat := 0x100100 + l * 0x4000
def Reg.lnkReplays (l : Nat) : Nat := 0x100104 + l * 0x4000
def Reg.lnkNocredit (l : Nat) : Nat := 0x100108 + l * 0x4000
def Reg.lnkProto (l : Nat) : Nat := 0x10010C + l * 0x4000
def Reg.lnkRetrains (l : Nat) : Nat := 0x100110 + l * 0x4000
def Reg.lnkDowns (l : Nat) : Nat := 0x100114 + l * 0x4000
def Reg.lnkClamp (l : Nat) : Nat := 0x100118 + l * 0x4000
def Reg.lnkDup (l : Nat) : Nat := 0x10011C + l * 0x4000
def Reg.lnkEthDrop (l : Nat) : Nat := 0x100120 + l * 0x4000
def Reg.lnkTxu (l : Nat) : Nat := 0x100124 + l * 0x4000
def Reg.lnkRxu (l : Nat) : Nat := 0x100128 + l * 0x4000
def Reg.lnkAlloc (l v : Nat) : Nat := 0x100020 + l * 0x4000 + v * 0x4
def Reg.lnkEthMac (l h : Nat) : Nat := 0x10004C + l * 0x4000 + h * 0x4
def Reg.lnkEthNh (l h : Nat) : Nat := 0x100054 + l * 0x4000 + h * 0x4
def Reg.lnkEthIp (l i : Nat) : Nat := 0x100060 + l * 0x4000 + i * 0x4
def Reg.lnkEthPip (l i : Nat) : Nat := 0x100070 + l * 0x4000 + i * 0x4
def Reg.lnkPtpTx (l h : Nat) : Nat := 0x100088 + l * 0x4000 + h * 0x4
def Reg.lnkPtpRx (l h : Nat) : Nat := 0x100090 + l * 0x4000 + h * 0x4
def Reg.lnkDevaddr : Nat := 0x180000
def Reg.lnkAxes : Nat := 0x180004
def Reg.lnkTimeCfg : Nat := 0x180060
def Reg.lnkTimeStatus : Nat := 0x180064
def Reg.lnkPtpCfg : Nat := 0x180068
def Reg.lnkPortcfg (p : Nat) : Nat := 0x180010 + p * 0x4
def Reg.lnkAdmlim (v : Nat) : Nat := 0x180040 + v * 0x4
def Reg.lnkLate (p : Nat) : Nat := 0x180080 + p * 0x4
def Reg.lnkRefused (p : Nat) : Nat := 0x1800A0 + p * 0x4
def Reg.lnkCap (p : Nat) : Nat := 0x1800C0 + p * 0x4
def Reg.lnkRes (p k : Nat) : Nat := 0x180400 + p * 0x100 + k * 0x4
def Reg.drfCaps : Nat := 0x300000
def Reg.drfPool (j : Nat) : Nat := 0x300010 + j * 0x20
def Reg.drfTmo (j : Nat) : Nat := 0x300014 + j * 0x20
def Reg.drfHtab (j : Nat) : Nat := 0x300018 + j * 0x20
def Reg.drfAmring (j : Nat) : Nat := 0x30001C + j * 0x20
def Reg.drfDlog (j : Nat) : Nat := 0x300020 + j * 0x20
def Reg.drfDloglen (j : Nat) : Nat := 0x300024 + j * 0x20
def Reg.drfCollWait : Nat := 0x300100
def Reg.drfCollLate : Nat := 0x300104
def Reg.drfCollTmo : Nat := 0x300108
def Reg.drfDigmis : Nat := 0x30010C
def Reg.drfAmRx : Nat := 0x300110
def Reg.drfAmWait : Nat := 0x300114
def Reg.drfAmDead : Nat := 0x300118
def Reg.drfDqHoldwait : Nat := 0x30011C
def Reg.drfVc2Block : Nat := 0x300120
def Reg.drfVc4Block : Nat := 0x300124
def Reg.drfViol : Nat := 0x300128
def Reg.drfCollId (i : Nat) : Nat := 0x300200 + i * 0x10
def Reg.drfCollStep (i : Nat) : Nat := 0x300204 + i * 0x10
def Reg.drfCollDone (i : Nat) : Nat := 0x300208 + i * 0x10
def Reg.drfCollMiss (i : Nat) : Nat := 0x30020C + i * 0x10
def Reg.drfDqCfg (q : Nat) : Nat := 0x301000 + q * 0x20
def Reg.drfDqSize (q : Nat) : Nat := 0x301004 + q * 0x20
def Reg.drfDqReader (q : Nat) : Nat := 0x301008 + q * 0x20
def Reg.drfDqBase (q : Nat) : Nat := 0x30100C + q * 0x20
def Reg.drfDqStatus (q : Nat) : Nat := 0x301010 + q * 0x20
def Reg.drfDqAdds (q : Nat) : Nat := 0x301014 + q * 0x20
def Reg.drfDqDone (q : Nat) : Nat := 0x301018 + q * 0x20
def Reg.twiCaps : Nat := 0x380000
def Reg.twiCapsel : Nat := 0x380004
def Reg.twiCapw (n : Nat) : Nat := 0x380040 + n * 0x4
def Reg.twiThr (n : Nat) : Nat := 0x380080 + n * 0x4
def Reg.twiTemp (n : Nat) : Nat := 0x3800C0 + n * 0x4
def Reg.twiThrcc (d : Nat) : Nat := 0x3800F0 + d * 0x4
def Reg.twiLctrl (n : Nat) : Nat := 0x380100 + n * 0x20
def Reg.twiLstatus (n : Nat) : Nat := 0x380104 + n * 0x20
def Reg.twiLcrc (n : Nat) : Nat := 0x380108 + n * 0x20
def Reg.twiLretry (n : Nat) : Nat := 0x38010C + n * 0x20
def Reg.twiLproto (n : Nat) : Nat := 0x380110 + n * 0x20
def Reg.twiLisol (n : Nat) : Nat := 0x380114 + n * 0x20
def Reg.twiLneg (n : Nat) : Nat := 0x380118 + n * 0x20
def Reg.plhCfg (n : Nat) : Nat := 0x80000 + n * 0x10000
def Reg.plhStatus (n : Nat) : Nat := 0x80004 + n * 0x10000
def Reg.plhDbCfg (n : Nat) : Nat := 0x80008 + n * 0x10000
def Reg.plhIrq (n : Nat) : Nat := 0x80018 + n * 0x10000
def Reg.plhMqSize (n : Nat) : Nat := 0x80208 + n * 0x10000
def Reg.plhMqCtrl (n : Nat) : Nat := 0x8020C + n * 0x10000
def Reg.plhMqState (n : Nat) : Nat := 0x80210 + n * 0x10000
def Reg.plhMqHead (n : Nat) : Nat := 0x80214 + n * 0x10000
def Reg.plhEntries (n : Nat) : Nat := 0x80300 + n * 0x10000
def Reg.plhViol (n : Nat) : Nat := 0x80304 + n * 0x10000
def Reg.plhClamp (n : Nat) : Nat := 0x80308 + n * 0x10000
def Reg.plhMqLost (n : Nat) : Nat := 0x8030C + n * 0x10000
def Reg.plhCqWait (n : Nat) : Nat := 0x80310 + n * 0x10000
def Reg.plhDbAddr (n h : Nat) : Nat := 0x80010 + n * 0x10000 + h * 0x4
def Reg.plhMqBase (n h : Nat) : Nat := 0x80200 + n * 0x10000 + h * 0x4
def Reg.plhSqSize (n k : Nat) : Nat := 0x80108 + n * 0x10000 + k * 0x40
def Reg.plhSqCtrl (n k : Nat) : Nat := 0x8010C + n * 0x10000 + k * 0x40
def Reg.plhSqState (n k : Nat) : Nat := 0x80110 + n * 0x10000 + k * 0x40
def Reg.plhSqAux (n k : Nat) : Nat := 0x80114 + n * 0x10000 + k * 0x40
def Reg.plhCqSize (n k : Nat) : Nat := 0x80120 + n * 0x10000 + k * 0x40
def Reg.plhCqState (n k : Nat) : Nat := 0x80124 + n * 0x10000 + k * 0x40
def Reg.plhSqBase (n k h : Nat) : Nat := 0x80100 + n * 0x10000 + k * 0x40 + h * 0x4
def Reg.plhCqBase (n k h : Nat) : Nat := 0x80118 + n * 0x10000 + k * 0x40 + h * 0x4
def Reg.plhTenHbm (n : Nat) : Nat := 0xC0000 + n * 0x4
def Reg.plhTenJob (j : Nat) : Nat := 0xC0200 + j * 0x4
def Reg.plhTenDeny : Nat := 0xC0210
def Reg.glbId : Nat := 0x0
def Reg.glbCaps : Nat := 0x4
def Reg.glbEpoch : Nat := 0x10
def Reg.glbEpochAtt : Nat := 0x14
def Reg.glbEpochCtrl : Nat := 0x18
def Reg.glbEpochCfg : Nat := 0x1C
def Reg.glbEpochFail : Nat := 0x20
def Reg.glbEpuSel : Nat := 0x24
def Reg.glbEpuState : Nat := 0x28
def Reg.glbRollbacks : Nat := 0x2C
def Reg.glbScratch : Nat := 0x30
def Reg.glbRecdir (h : Nat) : Nat := 0x40 + h * 0x4
def Reg.cfiCfg : Nat := 0x30000
def Reg.cfiUnlock : Nat := 0x30004
def Reg.cfiCommit : Nat := 0x30008
def Reg.cfiStatus : Nat := 0x3000C
def Reg.cfiDrifts : Nat := 0x30050
def Reg.cfiKeydeny : Nat := 0x30054
def Reg.cfiKeyfail : Nat := 0x30058
def Reg.cfiSweepMax : Nat := 0x3005C
def Reg.cfiRef (d : Nat) : Nat := 0x30010 + d * 0x4
def Reg.cfiCrc (d : Nat) : Nat := 0x30030 + d * 0x4
def Reg.timStatus : Nat := 0x40008
def Reg.timEvCfg : Nat := 0x40020
def Reg.timEvBase : Nat := 0x40024
def Reg.timEvLen : Nat := 0x40028
def Reg.timEvSeq : Nat := 0x4002C
def Reg.timEvSel : Nat := 0x40030
def Reg.timEvStat : Nat := 0x40034
def Reg.timEvSupp : Nat := 0x40060
def Reg.timEvHbmerr : Nat := 0x40064
def Reg.timNow (h : Nat) : Nat := 0x40000 + h * 0x4
def Reg.timSet (h : Nat) : Nat := 0x40010 + h * 0x4
def Reg.timEvW (n : Nat) : Nat := 0x40040 + n * 0x4
def Reg.pwrCaps : Nat := 0x10000
def Reg.pwrCfg : Nat := 0x10004
def Reg.pwrPkg : Nat := 0x10008
def Reg.pwrState : Nat := 0x1000C
def Reg.pwrTrip : Nat := 0x10044
def Reg.pwrRefpos : Nat := 0x10110
def Reg.pwrBoot : Nat := 0x101C0
def Reg.pwrCalst : Nat := 0x101C4
def Reg.pwrBootms : Nat := 0x101C8
def Reg.pwrDie (d : Nat) : Nat := 0x10010 + d * 0x4
def Reg.pwrVset (d : Nat) : Nat := 0x10020 + d * 0x4
def Reg.pwrTj (n : Nat) : Nat := 0x10030 + n * 0x4
def Reg.pwrRefused (m : Nat) : Nat := 0x10100 + m * 0x4
def Reg.pwrReflog (n : Nat) : Nat := 0x10140 + n * 0x4
def Reg.pwrFirnKeep (n : Nat) : Nat := 0x10180 + n * 0x4
def Reg.clkCaps : Nat := 0x20000
def Reg.clkStatus : Nat := 0x20004
def Reg.clkHub : Nat := 0x20050
def Reg.clkVfrefused : Nat := 0x20054
def Reg.clkFails : Nat := 0x20058
def Reg.clkRst : Nat := 0x20060
def Reg.clkResets : Nat := 0x20064
def Reg.clkVfp (n : Nat) : Nat := 0x20010 + n * 0x4
def Reg.clkFset (d : Nat) : Nat := 0x20040 + d * 0x4

/-! Fields. -/

def Fld.stgCapsParts : Fld := ⟨0, 8⟩
def Fld.stgCapsVstages : Fld := ⟨8, 4⟩
def Fld.stgCapsSlots : Fld := ⟨12, 7⟩
def Fld.stgCapsSpill : Fld := ⟨19, 11⟩
def Fld.stgExcludeCluster : Fld := ⟨0, 32⟩
def Fld.stgPartMapCluster : Fld := ⟨0, 32⟩
def Fld.stgPartCtrlEnable : Fld := ⟨0, 1⟩
def Fld.stgPartCtrlVstages : Fld := ⟨1, 2⟩
def Fld.stgPartCtrlJob : Fld := ⟨4, 2⟩
def Fld.stgPartStatusState : Fld := ⟨0, 2⟩
def Fld.stgPartStatusClusters : Fld := ⟨2, 10⟩
def Fld.stgPartStatusErr : Fld := ⟨12, 4⟩
def Fld.stgPartStatusEpoch : Fld := ⟨16, 16⟩
def Fld.stgCtxCtrlEnable : Fld := ⟨0, 1⟩
def Fld.stgCtxCtrlFinish : Fld := ⟨1, 1⟩
def Fld.stgCtxCtrlWaitLimit : Fld := ⟨16, 16⟩
def Fld.stgCtxStatusState : Fld := ⟨0, 3⟩
def Fld.stgCtxStatusBound : Fld := ⟨4, 4⟩
def Fld.stgCtxStatusCfgErr : Fld := ⟨8, 4⟩
def Fld.stgCtxStatusStashUsed : Fld := ⟨12, 7⟩
def Fld.stgCtxStashMode : Fld := ⟨0, 2⟩
def Fld.stgCtxStashEntries : Fld := ⟨2, 6⟩
def Fld.stgCtxStashBasePage : Fld := ⟨0, 28⟩
def Fld.stgCtxStashPagesPages : Fld := ⟨0, 20⟩
def Fld.stgqCfgKind : Fld := ⟨0, 2⟩
def Fld.stgqCfgDepth : Fld := ⟨2, 6⟩
def Fld.stgqCfgSpillEn : Fld := ⟨8, 1⟩
def Fld.stgqSlotPages : Fld := ⟨0, 20⟩
def Fld.stgqHdrPage : Fld := ⟨0, 19⟩
def Fld.stgqFirnPage : Fld := ⟨0, 19⟩
def Fld.stgqPeerCtx : Fld := ⟨0, 8⟩
def Fld.stgqPeerPort : Fld := ⟨8, 3⟩
def Fld.stgqPeerDevAddr : Fld := ⟨0, 32⟩
def Fld.stgqSpillBasePage : Fld := ⟨0, 28⟩
def Fld.stgqSpillDepthDepth : Fld := ⟨0, 11⟩
def Fld.stgqCountLocal : Fld := ⟨0, 16⟩
def Fld.stgqCountPeer : Fld := ⟨16, 16⟩
def Fld.stgqOccFirn : Fld := ⟨0, 7⟩
def Fld.stgqOccSpill : Fld := ⟨16, 11⟩
def Fld.stgqBoundNs : Fld := ⟨0, 32⟩
def Fld.stgqStallUs : Fld := ⟨0, 32⟩
def Fld.stgTabCtrlStart : Fld := ⟨0, 1⟩
def Fld.stgTabCtrlResume : Fld := ⟨1, 1⟩
def Fld.stgTabCtrlStop : Fld := ⟨2, 1⟩
def Fld.stgTabCtrlEntry : Fld := ⟨4, 10⟩
def Fld.stgTabBaseRow0 : Fld := ⟨0, 17⟩
def Fld.stgTabLenRows : Fld := ⟨0, 11⟩
def Fld.stgTabStatusState : Fld := ⟨0, 3⟩
def Fld.stgTabStatusRow : Fld := ⟨4, 10⟩
def Fld.stgTabStatusFault : Fld := ⟨14, 4⟩
def Fld.stgTabIterLeft : Fld := ⟨0, 16⟩
def Fld.stgTabStepStep : Fld := ⟨0, 32⟩
def Fld.stgTabSkipPolicy : Fld := ⟨0, 2⟩
def Fld.stgTabSkipLimit : Fld := ⟨2, 8⟩
def Fld.stgTabSkipRun : Fld := ⟨10, 8⟩
def Fld.stgTabEvalEvery : Fld := ⟨0, 16⟩
def Fld.stgTabTcInit : Fld := ⟨0, 16⟩
def Fld.stgTabTcCount : Fld := ⟨16, 16⟩
def Fld.stgTabWaitcfgFcMax : Fld := ⟨0, 7⟩
def Fld.stgTabFcFc : Fld := ⟨0, 32⟩
def Fld.stgTabFillEn : Fld := ⟨0, 1⟩
def Fld.stgTabFillJob : Fld := ⟨1, 2⟩
def Fld.stgTabFillLimit : Fld := ⟨16, 16⟩
def Fld.stgTabFillWinStart : Fld := ⟨0, 6⟩
def Fld.stgTabFillWinSize : Fld := ⟨6, 6⟩
def Fld.stgTabBubbleUs : Fld := ⟨0, 32⟩
def Fld.stgTabFillsCount : Fld := ⟨0, 32⟩
def Fld.cirMcCtrlEn : Fld := ⟨0, 1⟩
def Fld.cirMcCtrlBowLimit : Fld := ⟨16, 16⟩
def Fld.cirMcGangLeader : Fld := ⟨0, 12⟩
def Fld.cirMcLoffOff : Fld := ⟨0, 31⟩
def Fld.cirMcEoffOff : Fld := ⟨0, 31⟩
def Fld.cirMcSoffOff : Fld := ⟨0, 25⟩
def Fld.cirMcStatusGstate : Fld := ⟨0, 2⟩
def Fld.cirMcStatusGerr : Fld := ⟨2, 4⟩
def Fld.cirMcStatusLoadbusy : Fld := ⟨6, 1⟩
def Fld.cirMcStatusStreambusy : Fld := ⟨7, 1⟩
def Fld.cirMcStatusEmitbusy : Fld := ⟨8, 1⟩
def Fld.cirMcStatusItems : Fld := ⟨9, 5⟩
def Fld.cirMcStatusOrdinal : Fld := ⟨14, 8⟩
def Fld.cirMcStatusLast : Fld := ⟨22, 8⟩
def Fld.cirMcBankLanes : Fld := ⟨0, 7⟩
def Fld.cirMcBankFmt : Fld := ⟨7, 3⟩
def Fld.cirMcBankElems : Fld := ⟨10, 10⟩
def Fld.cirMcBankValid : Fld := ⟨20, 1⟩
def Fld.cirMcFrzBankCc : Fld := ⟨0, 32⟩
def Fld.cirMcFrzAccCc : Fld := ⟨0, 32⟩
def Fld.cirMcFrzBowCc : Fld := ⟨0, 32⟩
def Fld.cirMcHoldCc : Fld := ⟨0, 32⟩
def Fld.cirMcUnitsCount : Fld := ⟨0, 32⟩
def Fld.cirMcMismatchCount : Fld := ⟨0, 16⟩
def Fld.cirMcCapsLanes : Fld := ⟨0, 7⟩
def Fld.cirMcCapsAccs : Fld := ⟨7, 7⟩
def Fld.cirMcCapsFifo : Fld := ⟨14, 6⟩
def Fld.cirMcCapsBank : Fld := ⟨20, 10⟩
def Fld.cirVeStatusBusy : Fld := ⟨0, 1⟩
def Fld.cirVeStatusItems : Fld := ⟨1, 5⟩
def Fld.cirVeStatusLast : Fld := ⟨6, 8⟩
def Fld.cirVeStatusTvalid : Fld := ⟨14, 4⟩
def Fld.cirVeCapsLanes : Fld := ⟨0, 8⟩
def Fld.cirVeCapsSlots : Fld := ⟨8, 3⟩
def Fld.cirVeCapsNlog : Fld := ⟨11, 4⟩
def Fld.cirVeCapsStreams : Fld := ⟨15, 4⟩
def Fld.cirVeCapsContexts : Fld := ⟨19, 3⟩
def Fld.cirVeTblMode : Fld := ⟨0, 2⟩
def Fld.cirVeTblNlog : Fld := ⟨2, 4⟩
def Fld.cirVeTblValid : Fld := ⟨6, 1⟩
def Fld.cirVeTchkCheck : Fld := ⟨0, 32⟩
def Fld.cirVeElemsCount : Fld := ⟨0, 32⟩
def Fld.cirVeHazCc : Fld := ⟨0, 32⟩
def Fld.cirVePortCc : Fld := ⟨0, 32⟩
def Fld.cirVeMaskedCount : Fld := ⟨0, 32⟩
def Fld.cirVeDroppedCount : Fld := ⟨0, 32⟩
def Fld.cirCeCfgTmo : Fld := ⟨0, 16⟩
def Fld.cirCeCfgBankcap : Fld := ⟨16, 6⟩
def Fld.cirCeCfgAge : Fld := ⟨22, 10⟩
def Fld.cirCeStatusBusy : Fld := ⟨0, 8⟩
def Fld.cirCeStatusLast : Fld := ⟨8, 8⟩
def Fld.cirCeChSlots : Fld := ⟨0, 6⟩
def Fld.cirCeChQueued : Fld := ⟨6, 5⟩
def Fld.cirCeChHeld : Fld := ⟨11, 7⟩
def Fld.cirCeBytesKib : Fld := ⟨0, 32⟩
def Fld.cirCeMergedCount : Fld := ⟨0, 32⟩
def Fld.cirCeAgedCount : Fld := ⟨0, 32⟩
def Fld.cirCeSlotwaitCc : Fld := ⟨0, 32⟩
def Fld.cirCeTmoCount : Fld := ⟨0, 32⟩
def Fld.cirCeLatMaxNs : Fld := ⟨0, 32⟩
def Fld.cirFpShareM : Fld := ⟨0, 4⟩
def Fld.cirFpShareV : Fld := ⟨4, 4⟩
def Fld.cirFpShareC : Fld := ⟨8, 4⟩
def Fld.cirFpShareX : Fld := ⟨12, 4⟩
def Fld.cirFpScrubPeriod : Fld := ⟨0, 16⟩
def Fld.cirFpCeCount : Fld := ⟨0, 32⟩
def Fld.cirFpUeCount : Fld := ⟨0, 32⟩
def Fld.cirFpErraddrOff : Fld := ⟨0, 22⟩
def Fld.cirFpErraddrValid : Fld := ⟨22, 1⟩
def Fld.cirFpConflictCc : Fld := ⟨0, 32⟩
def Fld.morHmapLocal : Fld := ⟨0, 8⟩
def Fld.morCtlCfgIdle : Fld := ⟨0, 16⟩
def Fld.morCtlCfgAge : Fld := ⟨16, 16⟩
def Fld.morCtlStatusWindow : Fld := ⟨0, 9⟩
def Fld.morLatMaxNs : Fld := ⟨0, 32⟩
def Fld.morEccCeCount : Fld := ⟨0, 32⟩
def Fld.morEccUeCount : Fld := ⟨0, 32⟩
def Fld.morRetCfgCeLimit : Fld := ⟨0, 8⟩
def Fld.morRetStatusUsed : Fld := ⟨0, 10⟩
def Fld.morRetStatusRetiring : Fld := ⟨10, 10⟩
def Fld.morRetStatusFull : Fld := ⟨20, 1⟩
def Fld.morRetSelIndex : Fld := ⟨0, 9⟩
def Fld.morRetEntryChannel : Fld := ⟨0, 4⟩
def Fld.morRetEntryBank : Fld := ⟨4, 6⟩
def Fld.morRetEntryRow : Fld := ⟨10, 16⟩
def Fld.morRetEntryState : Fld := ⟨26, 2⟩
def Fld.morRetAddrPage : Fld := ⟨0, 28⟩
def Fld.morRetCtrlIndex : Fld := ⟨0, 9⟩
def Fld.morRetCtrlConfirm : Fld := ⟨9, 1⟩
def Fld.morRetDropsCount : Fld := ⟨0, 32⟩
def Fld.morActCount : Fld := ⟨0, 32⟩
def Fld.morHitCount : Fld := ⟨0, 32⟩
def Fld.snpCapsSlots : Fld := ⟨0, 4⟩
def Fld.snpCapsContexts : Fld := ⟨4, 9⟩
def Fld.snpCtxCfgMode : Fld := ⟨0, 1⟩
def Fld.snpCtxCfgFull : Fld := ⟨1, 3⟩
def Fld.snpCtxCfgDelta : Fld := ⟨4, 3⟩
def Fld.snpCtxCfgWfmt : Fld := ⟨7, 3⟩
def Fld.snpCtxCfgKeep : Fld := ⟨10, 3⟩
def Fld.snpCtxCfgRime : Fld := ⟨16, 8⟩
def Fld.snpCtxElemsElems : Fld := ⟨0, 32⟩
def Fld.snpCtxStoreWindow : Fld := ⟨0, 3⟩
def Fld.snpCtxStoreOffset : Fld := ⟨3, 22⟩
def Fld.snpCtxExcEntries : Fld := ⟨0, 20⟩
def Fld.snpCtxPeersDlen : Fld := ⟨0, 9⟩
def Fld.snpCtxPeersPeerCtx : Fld := ⟨16, 8⟩
def Fld.snpCtxTmoVend : Fld := ⟨0, 16⟩
def Fld.snpCtxTmoSlotLimit : Fld := ⟨16, 16⟩
def Fld.snpCtxCtrlReset : Fld := ⟨0, 1⟩
def Fld.snpCtxCtrlAdopt : Fld := ⟨1, 1⟩
def Fld.snpCtxCtrlSlot : Fld := ⟨2, 3⟩
def Fld.snpCtxCtrlVersion : Fld := ⟨16, 16⟩
def Fld.snpCtxHeadVersion : Fld := ⟨0, 16⟩
def Fld.snpCtxHeadSlot : Fld := ⟨16, 3⟩
def Fld.snpCtxHeadValid : Fld := ⟨19, 1⟩
def Fld.snpCtxBuildVersion : Fld := ⟨0, 16⟩
def Fld.snpCtxBuildSlot : Fld := ⟨16, 3⟩
def Fld.snpCtxBuildState : Fld := ⟨19, 2⟩
def Fld.snpCtxBuildReady : Fld := ⟨21, 8⟩
def Fld.snpCtxBstepStep : Fld := ⟨0, 32⟩
def Fld.snpCtxStatusErr : Fld := ⟨0, 4⟩
def Fld.snpCtxWaitUs : Fld := ⟨0, 32⟩
def Fld.snpCtxOverCount : Fld := ⟨0, 32⟩
def Fld.snpCtxStrayCount : Fld := ⟨0, 32⟩
def Fld.snpSlotState : Fld := ⟨0, 3⟩
def Fld.snpSlotKind : Fld := ⟨3, 1⟩
def Fld.snpSlotVersion : Fld := ⟨4, 16⟩
def Fld.snpSlotPins : Fld := ⟨20, 8⟩
def Fld.snpSlotRef : Fld := ⟨28, 3⟩
def Fld.snpSlotCompact : Fld := ⟨31, 1⟩
def Fld.morEngStatusBusy : Fld := ⟨0, 1⟩
def Fld.morEngStatusQueued : Fld := ⟨1, 7⟩
def Fld.morEngStatusLast : Fld := ⟨8, 8⟩
def Fld.morEngStatusCompact : Fld := ⟨16, 1⟩
def Fld.morEngCapsQueue : Fld := ⟨0, 8⟩
def Fld.morEngCapsKernels : Fld := ⟨8, 8⟩
def Fld.morEngCfgBgShare : Fld := ⟨0, 4⟩
def Fld.morEngElemsCount : Fld := ⟨0, 32⟩
def Fld.morEngKibKib : Fld := ⟨0, 32⟩
def Fld.morEngNonfinCount : Fld := ⟨0, 32⟩
def Fld.morEngLatMaxNs : Fld := ⟨0, 32⟩
def Fld.cirNuCtrlReplay : Fld := ⟨0, 1⟩
def Fld.cirNuCtrlUnstick : Fld := ⟨1, 1⟩
def Fld.cirNuCtrlClrpend : Fld := ⟨2, 1⟩
def Fld.cirNuLtabBase : Fld := ⟨0, 17⟩
def Fld.cirNuLtabEntries : Fld := ⟨17, 11⟩
def Fld.cirNuLogBase : Fld := ⟨0, 16⟩
def Fld.cirNuHoldSets : Fld := ⟨0, 32⟩
def Fld.cirNuSeedKey : Fld := ⟨0, 32⟩
def Fld.cirNuStatusLayer : Fld := ⟨0, 16⟩
def Fld.cirNuStatusLevel : Fld := ⟨16, 2⟩
def Fld.cirNuStatusOutcome : Fld := ⟨18, 2⟩
def Fld.cirNuStatusThread : Fld := ⟨20, 2⟩
def Fld.cirNuReplaysCount : Fld := ⟨0, 32⟩
def Fld.cirNuFailsCount : Fld := ⟨0, 32⟩
def Fld.cirNuMismatchCount : Fld := ⟨0, 32⟩
def Fld.cirNuCommitsCount : Fld := ⟨0, 32⟩
def Fld.cirRimeConvCount : Fld := ⟨0, 32⟩
def Fld.cirRimeZeroCount : Fld := ⟨0, 32⟩
def Fld.cirRimeSatCount : Fld := ⟨0, 32⟩
def Fld.cirRimeNonfinCount : Fld := ⟨0, 32⟩
def Fld.cirRimeTconvCount : Fld := ⟨0, 32⟩
def Fld.cirRimeTzeroCount : Fld := ⟨0, 32⟩
def Fld.cirRimeTsatCount : Fld := ⟨0, 32⟩
def Fld.cirRimeTnonfinCount : Fld := ⟨0, 32⟩
def Fld.cirNuWlvlLevels : Fld := ⟨0, 32⟩
def Fld.lnkCtrlEn : Fld := ⟨0, 1⟩
def Fld.lnkCtrlRetrain : Fld := ⟨1, 1⟩
def Fld.lnkCtrlWmax : Fld := ⟨2, 2⟩
def Fld.lnkCtrlSmax : Fld := ⟨4, 2⟩
def Fld.lnkStatusState : Fld := ⟨0, 4⟩
def Fld.lnkStatusWidth : Fld := ⟨4, 2⟩
def Fld.lnkStatusSpeed : Fld := ⟨6, 2⟩
def Fld.lnkStatusLanes : Fld := ⟨8, 4⟩
def Fld.lnkStatusSession : Fld := ⟨12, 16⟩
def Fld.lnkTmrReplayTmo : Fld := ⟨0, 12⟩
def Fld.lnkTmrMaxreplay : Fld := ⟨12, 4⟩
def Fld.lnkTmrAckdly : Fld := ⟨16, 8⟩
def Fld.lnkTmrBypWait : Fld := ⟨24, 8⟩
def Fld.lnkGraceMs : Fld := ⟨0, 10⟩
def Fld.lnkTxseqNext : Fld := ⟨0, 16⟩
def Fld.lnkTxseqAcked : Fld := ⟨16, 16⟩
def Fld.lnkRxseqE : Fld := ⟨0, 16⟩
def Fld.lnkPeerAddr : Fld := ⟨0, 32⟩
def Fld.lnkPeeridPort : Fld := ⟨0, 3⟩
def Fld.lnkPeeridLink : Fld := ⟨3, 2⟩
def Fld.lnkPeeridSession : Fld := ⟨5, 16⟩
def Fld.lnkAllocUnits : Fld := ⟨0, 11⟩
def Fld.lnkAllocbUnits : Fld := ⟨0, 11⟩
def Fld.lnkEthCfgIpv6 : Fld := ⟨0, 1⟩
def Fld.lnkEthCfgDirect : Fld := ⟨1, 1⟩
def Fld.lnkEthCfgVlan : Fld := ⟨2, 1⟩
def Fld.lnkEthCfgNmax : Fld := ⟨3, 5⟩
def Fld.lnkEthCfgVid : Fld := ⟨8, 12⟩
def Fld.lnkEthCfgPcp : Fld := ⟨20, 3⟩
def Fld.lnkEthUdpSport : Fld := ⟨0, 16⟩
def Fld.lnkEthUdpDport : Fld := ⟨16, 16⟩
def Fld.lnkEthIpAddr : Fld := ⟨0, 32⟩
def Fld.lnkEthPipAddr : Fld := ⟨0, 32⟩
def Fld.lnkEthPeeraddrAddr : Fld := ⟨0, 32⟩
def Fld.lnkCrcerrCount : Fld := ⟨0, 32⟩
def Fld.lnkReplaysCount : Fld := ⟨0, 32⟩
def Fld.lnkNocreditCount : Fld := ⟨0, 32⟩
def Fld.lnkProtoCount : Fld := ⟨0, 32⟩
def Fld.lnkRetrainsCount : Fld := ⟨0, 32⟩
def Fld.lnkDownsCount : Fld := ⟨0, 32⟩
def Fld.lnkClampCount : Fld := ⟨0, 32⟩
def Fld.lnkDupCount : Fld := ⟨0, 32⟩
def Fld.lnkEthDropCount : Fld := ⟨0, 32⟩
def Fld.lnkTxuCount : Fld := ⟨0, 32⟩
def Fld.lnkRxuCount : Fld := ⟨0, 32⟩
def Fld.lnkDevaddrAddr : Fld := ⟨0, 32⟩
def Fld.lnkAxesPlen : Fld := ⟨0, 8⟩
def Fld.lnkAxesDlen : Fld := ⟨8, 8⟩
def Fld.lnkAxesTlen : Fld := ⟨16, 8⟩
def Fld.lnkAxesSlen : Fld := ⟨24, 8⟩
def Fld.lnkPortcfgMode : Fld := ⟨0, 1⟩
def Fld.lnkPortcfgAdm : Fld := ⟨8, 8⟩
def Fld.lnkPortcfgLen : Fld := ⟨16, 8⟩
def Fld.lnkAdmlimUs : Fld := ⟨0, 32⟩
def Fld.lnkTimeCfgEn : Fld := ⟨0, 1⟩
def Fld.lnkTimeCfgRoot : Fld := ⟨1, 1⟩
def Fld.lnkTimeCfgParent : Fld := ⟨2, 5⟩
def Fld.lnkTimeCfgSrc : Fld := ⟨7, 1⟩
def Fld.lnkTimeCfgPeriod : Fld := ⟨8, 8⟩
def Fld.lnkTimeStatusSync : Fld := ⟨0, 1⟩
def Fld.lnkTimeStatusDepth : Fld := ⟨1, 7⟩
def Fld.lnkTimeStatusOffset : Fld := ⟨16, 16⟩
def Fld.lnkPtpCfgDomain : Fld := ⟨0, 8⟩
def Fld.lnkPtpCfgEn : Fld := ⟨8, 1⟩
def Fld.lnkLateCount : Fld := ⟨0, 32⟩
def Fld.lnkRefusedCount : Fld := ⟨0, 32⟩
def Fld.lnkCapCap : Fld := ⟨0, 9⟩
def Fld.lnkCapCovered : Fld := ⟨9, 1⟩
def Fld.drfCapsQueues : Fld := ⟨0, 7⟩
def Fld.drfCapsColls : Fld := ⟨7, 5⟩
def Fld.drfCapsHandlers : Fld := ⟨12, 11⟩
def Fld.drfPoolBase : Fld := ⟨0, 14⟩
def Fld.drfPoolPages : Fld := ⟨14, 14⟩
def Fld.drfTmoColl : Fld := ⟨0, 16⟩
def Fld.drfTmoAmLimit : Fld := ⟨16, 16⟩
def Fld.drfHtabBase : Fld := ⟨0, 9⟩
def Fld.drfHtabEn : Fld := ⟨9, 1⟩
def Fld.drfAmringBase : Fld := ⟨0, 6⟩
def Fld.drfAmringSize : Fld := ⟨6, 6⟩
def Fld.drfDlogPage : Fld := ⟨0, 28⟩
def Fld.drfDloglenEntries : Fld := ⟨0, 16⟩
def Fld.drfDloglenPos : Fld := ⟨16, 16⟩
def Fld.drfCollWaitUs : Fld := ⟨0, 32⟩
def Fld.drfCollLateCount : Fld := ⟨0, 32⟩
def Fld.drfCollTmoCount : Fld := ⟨0, 32⟩
def Fld.drfDigmisCount : Fld := ⟨0, 32⟩
def Fld.drfAmRxCount : Fld := ⟨0, 32⟩
def Fld.drfAmWaitUs : Fld := ⟨0, 32⟩
def Fld.drfAmDeadCount : Fld := ⟨0, 32⟩
def Fld.drfDqHoldwaitUs : Fld := ⟨0, 32⟩
def Fld.drfVc2BlockUs : Fld := ⟨0, 32⟩
def Fld.drfVc4BlockUs : Fld := ⟨0, 32⟩
def Fld.drfViolCount : Fld := ⟨0, 32⟩
def Fld.drfCollIdCid : Fld := ⟨0, 16⟩
def Fld.drfCollIdJob : Fld := ⟨16, 2⟩
def Fld.drfCollIdAxis : Fld := ⟨18, 2⟩
def Fld.drfCollIdState : Fld := ⟨20, 3⟩
def Fld.drfCollStepStep : Fld := ⟨0, 32⟩
def Fld.drfCollDoneBlocks : Fld := ⟨0, 32⟩
def Fld.drfCollMissRank : Fld := ⟨0, 8⟩
def Fld.drfCollMissValid : Fld := ⟨8, 1⟩
def Fld.drfDqCfgEn : Fld := ⟨0, 1⟩
def Fld.drfDqCfgJob : Fld := ⟨1, 2⟩
def Fld.drfDqCfgMode : Fld := ⟨3, 1⟩
def Fld.drfDqCfgOfmt : Fld := ⟨4, 3⟩
def Fld.drfDqCfgKm1 : Fld := ⟨16, 8⟩
def Fld.drfDqSizeEntries : Fld := ⟨0, 13⟩
def Fld.drfDqSizeElems : Fld := ⟨13, 13⟩
def Fld.drfDqReaderCluster : Fld := ⟨0, 9⟩
def Fld.drfDqReaderHandler : Fld := ⟨9, 10⟩
def Fld.drfDqBasePage : Fld := ⟨0, 14⟩
def Fld.drfDqBaseHold : Fld := ⟨14, 10⟩
def Fld.drfDqStatusState : Fld := ⟨0, 2⟩
def Fld.drfDqStatusOpen : Fld := ⟨2, 13⟩
def Fld.drfDqAddsCount : Fld := ⟨0, 32⟩
def Fld.drfDqDoneCount : Fld := ⟨0, 32⟩
def Fld.twiCapsLinks : Fld := ⟨0, 5⟩
def Fld.twiCapsGroups : Fld := ⟨5, 5⟩
def Fld.twiCapselLink : Fld := ⟨0, 5⟩
def Fld.twiCapselSide : Fld := ⟨5, 1⟩
def Fld.twiCapwWord : Fld := ⟨0, 32⟩
def Fld.twiThrWarn : Fld := ⟨0, 8⟩
def Fld.twiThrHeavy : Fld := ⟨8, 8⟩
def Fld.twiThrHyst : Fld := ⟨16, 4⟩
def Fld.twiTempDegc : Fld := ⟨0, 8⟩
def Fld.twiTempStep : Fld := ⟨8, 2⟩
def Fld.twiThrccCc : Fld := ⟨0, 32⟩
def Fld.twiLctrlEn : Fld := ⟨0, 1⟩
def Fld.twiLctrlGmask : Fld := ⟨1, 16⟩
def Fld.twiLstatusState : Fld := ⟨0, 3⟩
def Fld.twiLstatusGood : Fld := ⟨3, 16⟩
def Fld.twiLstatusSpeed : Fld := ⟨19, 2⟩
def Fld.twiLcrcCount : Fld := ⟨0, 32⟩
def Fld.twiLretryCount : Fld := ⟨0, 32⟩
def Fld.twiLprotoCount : Fld := ⟨0, 32⟩
def Fld.twiLisolCount : Fld := ⟨0, 32⟩
def Fld.twiLnegMinor : Fld := ⟨0, 8⟩
def Fld.twiLnegFeatures : Fld := ⟨8, 16⟩
def Fld.twiLnegSubset : Fld := ⟨24, 1⟩
def Fld.plhCfgEn : Fld := ⟨0, 1⟩
def Fld.plhCfgJob : Fld := ⟨1, 2⟩
def Fld.plhCfgAdmin : Fld := ⟨3, 1⟩
def Fld.plhCfgGrace : Fld := ⟨16, 10⟩
def Fld.plhStatusState : Fld := ⟨0, 2⟩
def Fld.plhStatusSession : Fld := ⟨2, 16⟩
def Fld.plhStatusCfgErr : Fld := ⟨18, 4⟩
def Fld.plhDbCfgPeriod : Fld := ⟨0, 6⟩
def Fld.plhIrqEn : Fld := ⟨0, 5⟩
def Fld.plhIrqHoldoff : Fld := ⟨16, 16⟩
def Fld.plhSqSizeEntries : Fld := ⟨0, 17⟩
def Fld.plhSqCtrlEn : Fld := ⟨0, 1⟩
def Fld.plhSqStateHead : Fld := ⟨0, 16⟩
def Fld.plhSqStateTail : Fld := ⟨16, 16⟩
def Fld.plhSqAuxInflight : Fld := ⟨0, 7⟩
def Fld.plhSqAuxCqphase : Fld := ⟨7, 1⟩
def Fld.plhCqSizeEntries : Fld := ⟨0, 17⟩
def Fld.plhCqStateTail : Fld := ⟨0, 16⟩
def Fld.plhCqStateHead : Fld := ⟨16, 16⟩
def Fld.plhMqSizePages : Fld := ⟨0, 13⟩
def Fld.plhMqCtrlEn : Fld := ⟨0, 1⟩
def Fld.plhMqStateTail : Fld := ⟨0, 18⟩
def Fld.plhMqStatePhase : Fld := ⟨18, 1⟩
def Fld.plhMqHeadHead : Fld := ⟨0, 18⟩
def Fld.plhEntriesCount : Fld := ⟨0, 32⟩
def Fld.plhViolCount : Fld := ⟨0, 32⟩
def Fld.plhClampCount : Fld := ⟨0, 32⟩
def Fld.plhMqLostCount : Fld := ⟨0, 32⟩
def Fld.plhCqWaitUs : Fld := ⟨0, 32⟩
def Fld.plhTenJobMqport : Fld := ⟨0, 2⟩
def Fld.plhTenJobInline : Fld := ⟨2, 8⟩
def Fld.plhTenDenyCount : Fld := ⟨0, 32⟩
def Fld.glbIdVendor : Fld := ⟨0, 16⟩
def Fld.glbIdPart : Fld := ⟨16, 8⟩
def Fld.glbIdStepping : Fld := ⟨24, 8⟩
def Fld.glbCapsCirque : Fld := ⟨0, 3⟩
def Fld.glbCapsStacks : Fld := ⟨3, 4⟩
def Fld.glbCapsLinks : Fld := ⟨7, 6⟩
def Fld.glbCapsPorts : Fld := ⟨13, 3⟩
def Fld.glbEpochCurrent : Fld := ⟨0, 32⟩
def Fld.glbEpochAttAttempt : Fld := ⟨0, 32⟩
def Fld.glbEpochCtrlAdvance : Fld := ⟨0, 1⟩
def Fld.glbEpochCtrlDiscard : Fld := ⟨1, 1⟩
def Fld.glbEpochCtrlState : Fld := ⟨2, 2⟩
def Fld.glbEpochCtrlResult : Fld := ⟨4, 1⟩
def Fld.glbEpochCfgTmo : Fld := ⟨0, 16⟩
def Fld.glbEpochFailUnit : Fld := ⟨0, 16⟩
def Fld.glbEpochFailCode : Fld := ⟨16, 8⟩
def Fld.glbEpochFailTimeout : Fld := ⟨24, 1⟩
def Fld.glbEpuSelUnit : Fld := ⟨0, 16⟩
def Fld.glbEpuSelIndex : Fld := ⟨16, 16⟩
def Fld.glbEpuStateState : Fld := ⟨0, 3⟩
def Fld.glbEpuStateEpoch : Fld := ⟨16, 16⟩
def Fld.glbRollbacksCount : Fld := ⟨0, 32⟩
def Fld.glbScratchValue : Fld := ⟨0, 32⟩
def Fld.cfiCfgAlert : Fld := ⟨0, 1⟩
def Fld.cfiUnlockKey : Fld := ⟨0, 16⟩
def Fld.cfiCommitDomains : Fld := ⟨0, 5⟩
def Fld.cfiCommitLearn : Fld := ⟨8, 1⟩
def Fld.cfiStatusArmed : Fld := ⟨0, 5⟩
def Fld.cfiStatusStale : Fld := ⟨5, 5⟩
def Fld.cfiStatusSkipped : Fld := ⟨10, 5⟩
def Fld.cfiStatusDrift : Fld := ⟨15, 5⟩
def Fld.cfiStatusOpen : Fld := ⟨20, 5⟩
def Fld.cfiRefCrc : Fld := ⟨0, 32⟩
def Fld.cfiCrcCrc : Fld := ⟨0, 32⟩
def Fld.cfiDriftsCount : Fld := ⟨0, 32⟩
def Fld.cfiKeydenyCount : Fld := ⟨0, 32⟩
def Fld.cfiKeyfailCount : Fld := ⟨0, 32⟩
def Fld.cfiSweepMaxNs : Fld := ⟨0, 32⟩
def Fld.timStatusSet : Fld := ⟨0, 1⟩
def Fld.timStatusSync : Fld := ⟨1, 1⟩
def Fld.timEvCfgBurst : Fld := ⟨0, 8⟩
def Fld.timEvCfgHbm : Fld := ⟨8, 1⟩
def Fld.timEvBasePage : Fld := ⟨0, 28⟩
def Fld.timEvLenRecords : Fld := ⟨0, 21⟩
def Fld.timEvSeqSeq : Fld := ⟨0, 32⟩
def Fld.timEvSelSeq : Fld := ⟨0, 32⟩
def Fld.timEvStatValid : Fld := ⟨0, 1⟩
def Fld.timEvWWord : Fld := ⟨0, 32⟩
def Fld.timEvSuppCount : Fld := ⟨0, 32⟩
def Fld.timEvHbmerrCount : Fld := ⟨0, 32⟩
def Fld.pwrCapsStates : Fld := ⟨0, 4⟩
def Fld.pwrCapsPoints : Fld := ⟨4, 4⟩
def Fld.pwrCapsReflog : Fld := ⟨8, 8⟩
def Fld.pwrCfgP1en : Fld := ⟨0, 1⟩
def Fld.pwrCfgP2en : Fld := ⟨1, 1⟩
def Fld.pwrCfgUnasg : Fld := ⟨2, 1⟩
def Fld.pwrCfgForcecal : Fld := ⟨3, 1⟩
def Fld.pwrCfgT1 : Fld := ⟨4, 12⟩
def Fld.pwrCfgT2 : Fld := ⟨16, 16⟩
def Fld.pwrPkgStandby : Fld := ⟨0, 1⟩
def Fld.pwrPkgLightwake : Fld := ⟨1, 4⟩
def Fld.pwrPkgI2cwake : Fld := ⟨5, 1⟩
def Fld.pwrStateDie : Fld := ⟨0, 4⟩
def Fld.pwrStatePs1 : Fld := ⟨4, 10⟩
def Fld.pwrStatePs2 : Fld := ⟨14, 10⟩
def Fld.pwrDieReq : Fld := ⟨0, 1⟩
def Fld.pwrDiePs3 : Fld := ⟨1, 1⟩
def Fld.pwrDieWaking : Fld := ⟨2, 1⟩
def Fld.pwrVsetPoint : Fld := ⟨0, 3⟩
def Fld.pwrVsetSettled : Fld := ⟨3, 1⟩
def Fld.pwrVsetForced : Fld := ⟨4, 1⟩
def Fld.pwrVsetMv : Fld := ⟨6, 10⟩
def Fld.pwrTjDegc : Fld := ⟨0, 8⟩
def Fld.pwrTripMargin : Fld := ⟨0, 8⟩
def Fld.pwrTripDwell : Fld := ⟨8, 8⟩
def Fld.pwrRefusedCount : Fld := ⟨0, 32⟩
def Fld.pwrRefposNext : Fld := ⟨0, 4⟩
def Fld.pwrRefposTotal : Fld := ⟨4, 28⟩
def Fld.pwrReflogUnit : Fld := ⟨0, 16⟩
def Fld.pwrReflogIndex : Fld := ⟨16, 12⟩
def Fld.pwrReflogState : Fld := ⟨28, 3⟩
def Fld.pwrReflogAbort : Fld := ⟨31, 1⟩
def Fld.pwrFirnKeepSlice : Fld := ⟨0, 32⟩
def Fld.pwrBootKind : Fld := ⟨0, 4⟩
def Fld.pwrBootStage : Fld := ⟨4, 4⟩
def Fld.pwrBootTrip : Fld := ⟨8, 1⟩
def Fld.pwrCalstVerified : Fld := ⟨0, 20⟩
def Fld.pwrBootmsMs : Fld := ⟨0, 32⟩
def Fld.cirPmCtrlReq : Fld := ⟨0, 2⟩
def Fld.cirPmStatusState : Fld := ⟨0, 2⟩
def Fld.cirPmStatusHeld : Fld := ⟨2, 1⟩
def Fld.cirPmTime1Us : Fld := ⟨0, 32⟩
def Fld.cirPmTime2Us : Fld := ⟨0, 32⟩
def Fld.cirPmEntriesPs1 : Fld := ⟨0, 16⟩
def Fld.cirPmEntriesPs2 : Fld := ⟨16, 16⟩
def Fld.clkCapsPoints : Fld := ⟨0, 4⟩
def Fld.clkCapsFiomhz : Fld := ⟨4, 12⟩
def Fld.clkStatusRefok : Fld := ⟨0, 1⟩
def Fld.clkStatusCorelock : Fld := ⟨1, 4⟩
def Fld.clkStatusHublock : Fld := ⟨5, 1⟩
def Fld.clkStatusBaselock : Fld := ⟨6, 8⟩
def Fld.clkStatusSerdeslock : Fld := ⟨14, 12⟩
def Fld.clkVfpMhz : Fld := ⟨0, 12⟩
def Fld.clkVfpMv : Fld := ⟨12, 10⟩
def Fld.clkFsetPoint : Fld := ⟨0, 3⟩
def Fld.clkFsetSel : Fld := ⟨3, 1⟩
def Fld.clkFsetActive : Fld := ⟨4, 1⟩
def Fld.clkHubSel : Fld := ⟨0, 1⟩
def Fld.clkHubActive : Fld := ⟨1, 1⟩
def Fld.clkVfrefusedCount : Fld := ⟨0, 32⟩
def Fld.clkFailsCount : Fld := ⟨0, 32⟩
def Fld.clkRstKind : Fld := ⟨0, 4⟩
def Fld.clkRstTarget : Fld := ⟨4, 12⟩
def Fld.clkRstGo : Fld := ⟨16, 1⟩
def Fld.clkResetsCount : Fld := ⟨0, 32⟩

/-! The register tables of each block. -/

/-- GLB registers: GLB_ID, GLB_CAPS, GLB_EPOCH, GLB_EPOCH_ATT, GLB_EPOCH_CTRL, GLB_EPOCH_CFG, GLB_EPOCH_FAIL, GLB_EPU_SEL, GLB_EPU_STATE, GLB_ROLLBACKS, GLB_SCRATCH, GLB_RECDIR_LO, GLB_RECDIR_HI. -/
def regsGlb : List RegDef := [
  ⟨0x0, [], 0, 0, 0, 0, 0, 0xB1040C17, 0, 0⟩,
  ⟨0x4, [], 0, 0, 0, 0, 0, 0x9044, 0, 0⟩,
  ⟨0x10, [], 0, 0, 0, 0, 0, 0, 0, 0⟩,
  ⟨0x14, [], 0, 0, 0, 0, 0, 0, 0, 0⟩,
  ⟨0x18, [], 0, 0, 0x3, 0, 0, 0, 0, 0⟩,
  ⟨0x1C, [], 0xFFFF, 0, 0, 0, 0, 0x3E8, 0, 0xFFFF⟩,
  ⟨0x20, [], 0, 0, 0, 0, 0, 0, 0, 0⟩,
  ⟨0x24, [], 0xFFFFFFFF, 0, 0, 0, 0, 0, 0, 0⟩,
  ⟨0x28, [], 0, 0, 0, 0, 0, 0, 0, 0⟩,
  ⟨0x2C, [], 0, 0, 0, 0, 0xFFFFFFFF, 0, 0, 0⟩,
  ⟨0x30, [], 0xFFFFFFFF, 0, 0, 0, 0, 0, 0, 0xFFFFFFFF⟩,
  ⟨0x40, [], 0, 0xFFFFFFFF, 0, 0, 0, 0, 0, 0xFFFFFFFF⟩,
  ⟨0x44, [], 0, 0xFFFF, 0, 0, 0, 0, 0, 0xFFFF⟩]

/-- PWR registers: PWR_CAPS, PWR_CFG, PWR_PKG, PWR_STATE, PWR_DIEd, PWR_VSETd, PWR_TJn, PWR_TRIP, PWR_REFUSEDn, PWR_REFPOS, PWR_REFLOGn, PWR_FIRN_KEEPn, PWR_BOOT, PWR_CALST, PWR_BOOTMS. -/
def regsPwr : List RegDef := [
  ⟨0x10000, [], 0, 0, 0, 0, 0, 0x1085, 0, 0⟩,
  ⟨0x10004, [], 0xFFFFFFF7, 0x8, 0, 0, 0, 0x640401, 0, 0xFFFFFFFF⟩,
  ⟨0x10008, [], 0, 0x3F, 0, 0, 0, 0x3E, 0, 0x3E⟩,
  ⟨0x1000C, [], 0, 0, 0, 0, 0, 0, 0, 0⟩,
  ⟨0x10010, [(0x4, 4)], 0, 0x1, 0, 0, 0, 0, 0, 0⟩,
  ⟨0x10020, [(0x4, 4)], 0x7, 0, 0, 0, 0, 0x7, 0x7, 0x7⟩,
  ⟨0x10030, [(0x4, 5)], 0, 0, 0, 0, 0, 0, 0, 0⟩,
  ⟨0x10044, [], 0, 0xFFFF, 0, 0, 0, 0xA05, 0, 0xFFFF⟩,
  ⟨0x10100, [(0x4, 4)], 0, 0, 0, 0, 0xFFFFFFFF, 0, 0, 0⟩,
  ⟨0x10110, [], 0, 0, 0, 0, 0, 0, 0, 0⟩,
  ⟨0x10140, [(0x4, 16)], 0, 0, 0, 0, 0, 0, 0, 0⟩,
  ⟨0x10180, [(0x4, 16)], 0, 0xFFFFFFFF, 0, 0, 0, 0, 0, 0xFFFFFFFF⟩,
  ⟨0x101C0, [], 0, 0, 0, 0, 0, 0x1, 0, 0⟩,
  ⟨0x101C4, [], 0, 0, 0, 0, 0, 0, 0, 0⟩,
  ⟨0x101C8, [], 0, 0, 0, 0, 0, 0, 0, 0⟩]

/-- CLK registers: CLK_CAPS, CLK_STATUS, CLK_VFP0, CLK_VFP1, CLK_VFP2, CLK_VFP3, CLK_VFP4, CLK_VFP5, CLK_VFP6, CLK_VFP7, CLK_FSETd, CLK_HUB, CLK_VFREFUSED, CLK_FAILS, CLK_RST, CLK_RESETS. -/
def regsClk : List RegDef := [
  ⟨0x20000, [], 0, 0, 0, 0, 0, 0x3208, 0, 0⟩,
  ⟨0x20004, [], 0, 0, 0, 0, 0, 0, 0, 0⟩,
  ⟨0x20010, [], 0, 0x3FFFFF, 0, 0, 0, 0x26C3E8, 0x3FFFFF, 0x3FFFFF⟩,
  ⟨0x20014, [], 0, 0x3FFFFF, 0, 0, 0, 0x28A4B0, 0x3FFFFF, 0x3FFFFF⟩,
  ⟨0x20018, [], 0, 0x3FFFFF, 0, 0, 0, 0x2A8578, 0x3FFFFF, 0x3FFFFF⟩,
  ⟨0x2001C, [], 0, 0x3FFFFF, 0, 0, 0, 0x2C160E, 0x3FFFFF, 0x3FFFFF⟩,
  ⟨0x20020, [], 0, 0x3FFFFF, 0, 0, 0, 0x2DA6A4, 0x3FFFFF, 0x3FFFFF⟩,
  ⟨0x20024, [], 0, 0x3FFFFF, 0, 0, 0, 0x2EE708, 0x3FFFFF, 0x3FFFFF⟩,
  ⟨0x20028, [], 0, 0x3FFFFF, 0, 0, 0, 0x30776C, 0x3FFFFF, 0x3FFFFF⟩,
  ⟨0x2002C, [], 0, 0x3FFFFF, 0, 0, 0, 0x3207D0, 0x3FFFFF, 0x3FFFFF⟩,
  ⟨0x20040, [(0x4, 4)], 0xF, 0, 0, 0, 0, 0x7, 0x7, 0x7⟩,
  ⟨0x20050, [], 0x1, 0, 0, 0, 0, 0, 0, 0x1⟩,
  ⟨0x20054, [], 0, 0, 0, 0, 0xFFFFFFFF, 0, 0, 0⟩,
  ⟨0x20058, [], 0, 0, 0, 0, 0xFFFFFFFF, 0, 0, 0⟩,
  ⟨0x20060, [], 0, 0x1FFFF, 0, 0, 0, 0, 0, 0⟩,
  ⟨0x20064, [], 0, 0, 0, 0, 0xFFFFFFFF, 0, 0, 0⟩]

/-- CFI registers: CFI_CFG, CFI_UNLOCK, CFI_COMMIT, CFI_STATUS, CFI_REFd, CFI_CRCd, CFI_DRIFTS, CFI_KEYDENY, CFI_KEYFAIL, CFI_SWEEP_MAX. -/
def regsCfi : List RegDef := [
  ⟨0x30000, [], 0, 0x1, 0, 0, 0, 0, 0, 0x1⟩,
  ⟨0x30004, [], 0, 0, 0xFFFF, 0, 0, 0, 0, 0⟩,
  ⟨0x30008, [], 0, 0, 0x11F, 0, 0, 0, 0, 0⟩,
  ⟨0x3000C, [], 0, 0, 0, 0xF8000, 0, 0x3E0, 0, 0⟩,
  ⟨0x30010, [(0x4, 5)], 0xFFFFFFFF, 0, 0, 0, 0, 0, 0, 0⟩,
  ⟨0x30030, [(0x4, 5)], 0, 0, 0, 0, 0, 0, 0, 0⟩,
  ⟨0x30050, [], 0, 0, 0, 0, 0xFFFFFFFF, 0, 0, 0⟩,
  ⟨0x30054, [], 0, 0, 0, 0, 0xFFFFFFFF, 0, 0, 0⟩,
  ⟨0x30058, [], 0, 0, 0, 0, 0xFFFFFFFF, 0, 0, 0⟩,
  ⟨0x3005C, [], 0, 0, 0, 0, 0xFFFFFFFF, 0, 0, 0⟩]

/-- TIM registers: TIM_NOW_LO, TIM_NOW_HI, TIM_STATUS, TIM_SET_LO, TIM_SET_HI, TIM_EV_CFG, TIM_EV_BASE, TIM_EV_LEN, TIM_EV_SEQ, TIM_EV_SEL, TIM_EV_STAT, TIM_EV_Wn, TIM_EV_SUPP, TIM_EV_HBMERR. -/
def regsTim : List RegDef := [
  ⟨0x40000, [], 0, 0, 0, 0, 0, 0, 0, 0⟩,
  ⟨0x40004, [], 0, 0, 0, 0, 0, 0, 0, 0⟩,
  ⟨0x40008, [], 0, 0, 0, 0, 0, 0, 0, 0⟩,
  ⟨0x40010, [], 0, 0, 0xFFFFFFFF, 0, 0, 0, 0, 0⟩,
  ⟨0x40014, [], 0, 0, 0xFFFFFFFF, 0, 0, 0, 0, 0⟩,
  ⟨0x40020, [], 0x1FF, 0, 0, 0, 0, 0x40, 0, 0x1FF⟩,
  ⟨0x40024, [], 0xFFFFFFF, 0, 0, 0, 0, 0, 0, 0xFFFFFFF⟩,
  ⟨0x40028, [], 0x1FFFFF, 0, 0, 0, 0, 0, 0, 0x1FFFFF⟩,
  ⟨0x4002C, [], 0, 0, 0, 0, 0, 0, 0, 0⟩,
  ⟨0x40030, [], 0xFFFFFFFF, 0, 0, 0, 0, 0, 0, 0⟩,
  ⟨0x40034, [], 0, 0, 0, 0, 0, 0, 0, 0⟩,
  ⟨0x40040, [(0x4, 8)], 0, 0, 0, 0, 0, 0, 0, 0⟩,
  ⟨0x40060, [], 0, 0, 0, 0, 0xFFFFFFFF, 0, 0, 0⟩,
  ⟨0x40064, [], 0, 0, 0, 0, 0xFFFFFFFF, 0, 0, 0⟩]

/-- PLH registers: PLH_CFG, PLH_STATUS, PLH_DB_CFG, PLH_DB_ADDR_LO, PLH_DB_ADDR_HI, PLH_IRQ, PLH_SQ_BASEk_LO, PLH_SQ_BASEk_HI, PLH_SQ_SIZEk, PLH_SQ_CTRLk, PLH_SQ_STATEk, PLH_SQ_AUXk, PLH_CQ_BASEk_LO, PLH_CQ_BASEk_HI, PLH_CQ_SIZEk, PLH_CQ_STATEk. -/
def regsPlh0 : List RegDef := [
  ⟨0x80000, [(0x10000, 4)], 0x3FF0000, 0xF, 0, 0, 0, 0x640000, 0, 0x3FF000F⟩,
  ⟨0x80004, [(0x10000, 4)], 0, 0, 0, 0, 0, 0, 0, 0⟩,
  ⟨0x80008, [(0x10000, 4)], 0x3F, 0, 0, 0, 0, 0x4, 0, 0x3F⟩,
  ⟨0x80010, [(0x10000, 4)], 0xFFFFFFFF, 0, 0, 0, 0, 0, 0, 0xFFFFFFFF⟩,
  ⟨0x80014, [(0x10000, 4)], 0xFFF, 0, 0, 0, 0, 0, 0, 0xFFF⟩,
  ⟨0x80018, [(0x10000, 4)], 0xFFFF001F, 0, 0, 0, 0, 0, 0, 0xFFFF001F⟩,
  ⟨0x80100, [(0x10000, 4), (0x40, 4)], 0xFFFFFFFF, 0, 0, 0, 0, 0, 0, 0xFFFFFFFF⟩,
  ⟨0x80104, [(0x10000, 4), (0x40, 4)], 0xFFF, 0, 0, 0, 0, 0, 0, 0xFFF⟩,
  ⟨0x80108, [(0x10000, 4), (0x40, 4)], 0x1FFFF, 0, 0, 0, 0, 0, 0, 0x1FFFF⟩,
  ⟨0x8010C, [(0x10000, 4), (0x40, 4)], 0x1, 0, 0, 0, 0, 0, 0, 0x1⟩,
  ⟨0x80110, [(0x10000, 4), (0x40, 4)], 0, 0, 0, 0, 0, 0, 0, 0⟩,
  ⟨0x80114, [(0x10000, 4), (0x40, 4)], 0, 0, 0, 0, 0, 0, 0, 0⟩,
  ⟨0x80118, [(0x10000, 4), (0x40, 4)], 0xFFFFFFFF, 0, 0, 0, 0, 0, 0, 0xFFFFFFFF⟩,
  ⟨0x8011C, [(0x10000, 4), (0x40, 4)], 0xFFF, 0, 0, 0, 0, 0, 0, 0xFFF⟩,
  ⟨0x80120, [(0x10000, 4), (0x40, 4)], 0x1FFFF, 0, 0, 0, 0, 0, 0, 0x1FFFF⟩,
  ⟨0x80124, [(0x10000, 4), (0x40, 4)], 0, 0, 0, 0, 0, 0, 0, 0⟩]

/-- PLH registers: PLH_MQ_BASE_LO, PLH_MQ_BASE_HI, PLH_MQ_SIZE, PLH_MQ_CTRL, PLH_MQ_STATE, PLH_MQ_HEAD, PLH_ENTRIES, PLH_VIOL, PLH_CLAMP, PLH_MQ_LOST, PLH_CQ_WAIT, PLH_TEN_HBMn, PLH_TEN_JOBj, PLH_TEN_DENY. -/
def regsPlh1 : List RegDef := [
  ⟨0x80200, [(0x10000, 4)], 0xFFFFFFFF, 0, 0, 0, 0, 0, 0, 0xFFFFFFFF⟩,
  ⟨0x80204, [(0x10000, 4)], 0xFFF, 0, 0, 0, 0, 0, 0, 0xFFF⟩,
  ⟨0x80208, [(0x10000, 4)], 0x1FFF, 0, 0, 0, 0, 0, 0, 0x1FFF⟩,
  ⟨0x8020C, [(0x10000, 4)], 0x1, 0, 0, 0, 0, 0, 0, 0x1⟩,
  ⟨0x80210, [(0x10000, 4)], 0, 0, 0, 0, 0, 0, 0, 0⟩,
  ⟨0x80214, [(0x10000, 4)], 0, 0, 0, 0, 0, 0, 0, 0⟩,
  ⟨0x80300, [(0x10000, 4)], 0, 0, 0, 0, 0xFFFFFFFF, 0, 0, 0⟩,
  ⟨0x80304, [(0x10000, 4)], 0, 0, 0, 0, 0xFFFFFFFF, 0, 0, 0⟩,
  ⟨0x80308, [(0x10000, 4)], 0, 0, 0, 0, 0xFFFFFFFF, 0, 0, 0⟩,
  ⟨0x8030C, [(0x10000, 4)], 0, 0, 0, 0, 0xFFFFFFFF, 0, 0, 0⟩,
  ⟨0x80310, [(0x10000, 4)], 0, 0, 0, 0, 0xFFFFFFFF, 0, 0, 0⟩,
  ⟨0xC0000, [(0x4, 128)], 0, 0x77777777, 0, 0, 0, 0, 0, 0x77777777⟩,
  ⟨0xC0200, [(0x4, 4)], 0x3FF, 0, 0, 0, 0, 0, 0, 0x3FF⟩,
  ⟨0xC0210, [], 0, 0, 0, 0, 0xFFFFFFFF, 0, 0, 0⟩]

/-- The PLH registers. -/
def regsPlh : List RegDef := regsPlh0 ++ regsPlh1

/-- LNK registers: LNK_CTRL, LNK_STATUS, LNK_TMR, LNK_GRACE, LNK_TXSEQ, LNK_RXSEQ, LNK_PEER, LNK_PEERID, LNK_ALLOC0, LNK_ALLOC1, LNK_ALLOC2, LNK_ALLOC3, LNK_ALLOC4, LNK_ALLOC5, LNK_ALLOC6, LNK_ALLOC7. -/
def regsLnk0 : List RegDef := [
  ⟨0x100000, [(0x4000, 32)], 0x3C, 0x1, 0x2, 0, 0, 0x28, 0x1, 0x3D⟩,
  ⟨0x100004, [(0x4000, 32)], 0, 0, 0, 0, 0, 0, 0, 0⟩,
  ⟨0x100008, [(0x4000, 32)], 0xFFFFFFFF, 0, 0, 0, 0, 0x40408080, 0, 0xFFFFFFFF⟩,
  ⟨0x10000C, [(0x4000, 32)], 0x3FF, 0, 0, 0, 0, 0x64, 0, 0x3FF⟩,
  ⟨0x100010, [(0x4000, 32)], 0, 0, 0, 0, 0, 0, 0, 0⟩,
  ⟨0x100014, [(0x4000, 32)], 0, 0, 0, 0, 0, 0, 0, 0⟩,
  ⟨0x100018, [(0x4000, 32)], 0, 0, 0, 0, 0, 0, 0, 0⟩,
  ⟨0x10001C, [(0x4000, 32)], 0, 0, 0, 0, 0, 0, 0, 0⟩,
  ⟨0x100020, [(0x4000, 32)], 0x7FF, 0, 0, 0, 0, 0x100, 0, 0x7FF⟩,
  ⟨0x100024, [(0x4000, 32)], 0x7FF, 0, 0, 0, 0, 0x100, 0, 0x7FF⟩,
  ⟨0x100028, [(0x4000, 32)], 0x7FF, 0, 0, 0, 0, 0xC0, 0, 0x7FF⟩,
  ⟨0x10002C, [(0x4000, 32)], 0x7FF, 0, 0, 0, 0, 0x40, 0, 0x7FF⟩,
  ⟨0x100030, [(0x4000, 32)], 0x7FF, 0, 0, 0, 0, 0x40, 0, 0x7FF⟩,
  ⟨0x100034, [(0x4000, 32)], 0x7FF, 0, 0, 0, 0, 0x60, 0, 0x7FF⟩,
  ⟨0x100038, [(0x4000, 32)], 0x7FF, 0, 0, 0, 0, 0x40, 0, 0x7FF⟩,
  ⟨0x10003C, [(0x4000, 32)], 0x7FF, 0, 0, 0, 0, 0x10, 0, 0x7FF⟩]

/-- LNK registers: LNK_ALLOCB, LNK_ETH_CFG, LNK_ETH_UDP, LNK_ETH_MAC_LO, LNK_ETH_MAC_HI, LNK_ETH_NH_LO, LNK_ETH_NH_HI, LNK_ETH_IPi, LNK_ETH_PIPi, LNK_ETH_PEERADDR, LNK_PTP_TX_LO, LNK_PTP_TX_HI, LNK_PTP_RX_LO, LNK_PTP_RX_HI, LNK_CRCERR, LNK_REPLAYS. -/
def regsLnk1 : List RegDef := [
  ⟨0x100040, [(0x4000, 32)], 0x7FF, 0, 0, 0, 0, 0x10, 0, 0x7FF⟩,
  ⟨0x100044, [(0x4000, 32)], 0x7FFFFF, 0, 0, 0, 0, 0x28, 0, 0x7FFFFF⟩,
  ⟨0x100048, [(0x4000, 32)], 0xFFFFFFFF, 0, 0, 0, 0, 0, 0, 0xFFFFFFFF⟩,
  ⟨0x10004C, [(0x4000, 32)], 0xFFFFFFFF, 0, 0, 0, 0, 0, 0, 0xFFFFFFFF⟩,
  ⟨0x100050, [(0x4000, 32)], 0xFFFF, 0, 0, 0, 0, 0, 0, 0xFFFF⟩,
  ⟨0x100054, [(0x4000, 32)], 0xFFFFFFFF, 0, 0, 0, 0, 0, 0, 0xFFFFFFFF⟩,
  ⟨0x100058, [(0x4000, 32)], 0xFFFF, 0, 0, 0, 0, 0, 0, 0xFFFF⟩,
  ⟨0x100060, [(0x4000, 32), (0x4, 4)], 0xFFFFFFFF, 0, 0, 0, 0, 0, 0, 0xFFFFFFFF⟩,
  ⟨0x100070, [(0x4000, 32), (0x4, 4)], 0xFFFFFFFF, 0, 0, 0, 0, 0, 0, 0xFFFFFFFF⟩,
  ⟨0x100080, [(0x4000, 32)], 0xFFFFFFFF, 0, 0, 0, 0, 0, 0, 0xFFFFFFFF⟩,
  ⟨0x100088, [(0x4000, 32)], 0, 0, 0, 0, 0, 0, 0, 0⟩,
  ⟨0x10008C, [(0x4000, 32)], 0, 0, 0, 0, 0, 0, 0, 0⟩,
  ⟨0x100090, [(0x4000, 32)], 0, 0, 0, 0, 0, 0, 0, 0⟩,
  ⟨0x100094, [(0x4000, 32)], 0, 0, 0, 0, 0, 0, 0, 0⟩,
  ⟨0x100100, [(0x4000, 32)], 0, 0, 0, 0, 0xFFFFFFFF, 0, 0, 0⟩,
  ⟨0x100104, [(0x4000, 32)], 0, 0, 0, 0, 0xFFFFFFFF, 0, 0, 0⟩]

/-- LNK registers: LNK_NOCREDIT, LNK_PROTO, LNK_RETRAINS, LNK_DOWNS, LNK_CLAMP, LNK_DUP, LNK_ETH_DROP, LNK_TXU, LNK_RXU, LNK_DEVADDR, LNK_AXES, LNK_PORTCFGp, LNK_ADMLIMv, LNK_TIME_CFG, LNK_TIME_STATUS, LNK_PTP_CFG. -/
def regsLnk2 : List RegDef := [
  ⟨0x100108, [(0x4000, 32)], 0, 0, 0, 0, 0xFFFFFFFF, 0, 0, 0⟩,
  ⟨0x10010C, [(0x4000, 32)], 0, 0, 0, 0, 0xFFFFFFFF, 0, 0, 0⟩,
  ⟨0x100110, [(0x4000, 32)], 0, 0, 0, 0, 0xFFFFFFFF, 0, 0, 0⟩,
  ⟨0x100114, [(0x4000, 32)], 0, 0, 0, 0, 0xFFFFFFFF, 0, 0, 0⟩,
  ⟨0x100118, [(0x4000, 32)], 0, 0, 0, 0, 0xFFFFFFFF, 0, 0, 0⟩,
  ⟨0x10011C, [(0x4000, 32)], 0, 0, 0, 0, 0xFFFFFFFF, 0, 0, 0⟩,
  ⟨0x100120, [(0x4000, 32)], 0, 0, 0, 0, 0xFFFFFFFF, 0, 0, 0⟩,
  ⟨0x100124, [(0x4000, 32)], 0, 0, 0, 0, 0xFFFFFFFF, 0, 0, 0⟩,
  ⟨0x100128, [(0x4000, 32)], 0, 0, 0, 0, 0xFFFFFFFF, 0, 0, 0⟩,
  ⟨0x180000, [], 0, 0xFFFFFFFF, 0, 0, 0, 0, 0xFFFFFFFF, 0xFFFFFFFF⟩,
  ⟨0x180004, [], 0, 0xFFFFFFFF, 0, 0, 0, 0, 0xFFFFFFFF, 0xFFFFFFFF⟩,
  ⟨0x180010, [(0x4, 8)], 0xFFFF00, 0x1, 0, 0, 0, 0xFF2300, 0xFFFF01, 0xFFFF01⟩,
  ⟨0x180040, [(0x4, 8)], 0xFFFFFFFF, 0, 0, 0, 0, 0, 0, 0xFFFFFFFF⟩,
  ⟨0x180060, [], 0xFFFF, 0, 0, 0, 0, 0xA00, 0, 0xFFFF⟩,
  ⟨0x180064, [], 0, 0, 0, 0, 0, 0, 0, 0⟩,
  ⟨0x180068, [], 0x1FF, 0, 0, 0, 0, 0, 0, 0x1FF⟩]

/-- LNK registers: LNK_LATEp, LNK_REFUSEDp, LNK_CAPp, LNK_RESp_k. -/
def regsLnk3 : List RegDef := [
  ⟨0x180080, [(0x4, 8)], 0, 0, 0, 0, 0xFFFFFFFF, 0, 0, 0⟩,
  ⟨0x1800A0, [(0x4, 8)], 0, 0, 0, 0, 0xFFFFFFFF, 0, 0, 0⟩,
  ⟨0x1800C0, [(0x4, 8)], 0, 0, 0, 0, 0, 0, 0, 0⟩,
  ⟨0x180400, [(0x100, 8), (0x4, 64)], 0xF0F0F0F, 0, 0, 0, 0, 0xF0F0F0F, 0xF0F0F0F, 0xF0F0F0F⟩]

/-- The LNK registers. -/
def regsLnk : List RegDef := regsLnk0 ++ regsLnk1 ++ regsLnk2 ++ regsLnk3

/-- STG registers: STG_CAPS, STG_EXCLUDEn, STG_PART_MAPn, STG_PART_CTRL, STG_PART_STATUS, STG_CTX_CTRL, STG_CTX_STATUS, STG_CTX_STASH, STG_CTX_STASH_BASE, STG_CTX_STASH_PAGES, STGQ_CFG, STGQ_SLOT, STGQ_HDR, STGQ_FIRN, STGQ_PEER, STGQ_PEER_DEV. -/
def regsStg0 : List RegDef := [
  ⟨0x200000, [], 0, 0, 0, 0, 0, 0x20040440, 0, 0⟩,
  ⟨0x200100, [(0x4, 16)], 0, 0xFFFFFFFF, 0, 0, 0, 0, 0, 0xFFFFFFFF⟩,
  ⟨0x201000, [(0x80, 64), (0x4, 16)], 0, 0xFFFFFFFF, 0, 0, 0, 0, 0xFFFFFFFF, 0xFFFFFFFF⟩,
  ⟨0x201040, [(0x80, 64)], 0, 0x37, 0, 0, 0, 0, 0x37, 0x37⟩,
  ⟨0x201044, [(0x80, 64)], 0, 0, 0, 0, 0, 0, 0, 0⟩,
  ⟨0x210000, [(0x100, 256)], 0xFFFF0003, 0, 0, 0, 0, 0, 0, 0xFFFF0000⟩,
  ⟨0x210004, [(0x100, 256)], 0, 0, 0, 0, 0, 0, 0, 0⟩,
  ⟨0x210008, [(0x100, 256)], 0xFF, 0, 0, 0, 0, 0, 0, 0xFF⟩,
  ⟨0x21000C, [(0x100, 256)], 0xFFFFFFF, 0, 0, 0, 0, 0, 0, 0xFFFFFFF⟩,
  ⟨0x210010, [(0x100, 256)], 0xFFFFF, 0, 0, 0, 0, 0, 0, 0xFFFFF⟩,
  ⟨0x210020, [(0x100, 256), (0x30, 4)], 0x1FF, 0, 0, 0, 0, 0, 0, 0x1FF⟩,
  ⟨0x210024, [(0x100, 256), (0x30, 4)], 0xFFFFF, 0, 0, 0, 0, 0, 0, 0xFFFFF⟩,
  ⟨0x210028, [(0x100, 256), (0x30, 4)], 0x7FFFF, 0, 0, 0, 0, 0, 0, 0x7FFFF⟩,
  ⟨0x21002C, [(0x100, 256), (0x30, 4)], 0x7FFFF, 0, 0, 0, 0, 0, 0, 0x7FFFF⟩,
  ⟨0x210030, [(0x100, 256), (0x30, 4)], 0x7FF, 0, 0, 0, 0, 0, 0, 0x7FF⟩,
  ⟨0x210034, [(0x100, 256), (0x30, 4)], 0xFFFFFFFF, 0, 0, 0, 0, 0, 0, 0xFFFFFFFF⟩]

/-- STG registers: STGQ_SPILL_BASE, STGQ_SPILL_DEPTH, STGQ_COUNT, STGQ_OCC, STGQ_BOUND, STGQ_STALL, STG_TAB_CTRL, STG_TAB_BASE, STG_TAB_LEN, STG_TAB_STATUS, STG_TAB_ITER, STG_TAB_STEP, STG_TAB_SKIP, STG_TAB_EVAL, STG_TAB_TCn, STG_TAB_WAITCFG. -/
def regsStg1 : List RegDef := [
  ⟨0x210038, [(0x100, 256), (0x30, 4)], 0xFFFFFFF, 0, 0, 0, 0, 0, 0, 0xFFFFFFF⟩,
  ⟨0x21003C, [(0x100, 256), (0x30, 4)], 0x7FF, 0, 0, 0, 0, 0, 0, 0x7FF⟩,
  ⟨0x210040, [(0x100, 256), (0x30, 4)], 0, 0, 0, 0, 0, 0, 0, 0⟩,
  ⟨0x210044, [(0x100, 256), (0x30, 4)], 0, 0, 0, 0, 0, 0, 0, 0⟩,
  ⟨0x210048, [(0x100, 256), (0x30, 4)], 0, 0, 0, 0, 0, 0, 0, 0⟩,
  ⟨0x21004C, [(0x100, 256), (0x30, 4)], 0, 0, 0, 0, 0xFFFFFFFF, 0, 0, 0⟩,
  ⟨0x240000, [(0x1000, 64)], 0x3FF0, 0, 0x7, 0, 0, 0, 0, 0x3FF0⟩,
  ⟨0x240004, [(0x1000, 64)], 0x1FFFF, 0, 0, 0, 0, 0, 0x1FFFF, 0x1FFFF⟩,
  ⟨0x240008, [(0x1000, 64)], 0x7FF, 0, 0, 0, 0, 0, 0x7FF, 0x7FF⟩,
  ⟨0x24000C, [(0x1000, 64)], 0, 0, 0, 0, 0, 0, 0, 0⟩,
  ⟨0x240010, [(0x1000, 64)], 0, 0, 0, 0, 0, 0, 0, 0⟩,
  ⟨0x240014, [(0x1000, 64)], 0xFFFFFFFF, 0, 0, 0, 0, 0, 0, 0⟩,
  ⟨0x240018, [(0x1000, 64)], 0x3FF, 0, 0, 0, 0, 0, 0, 0x3FF⟩,
  ⟨0x24001C, [(0x1000, 64)], 0xFFFF, 0, 0, 0, 0, 0, 0, 0xFFFF⟩,
  ⟨0x240020, [(0x1000, 64), (0x4, 4)], 0xFFFF, 0, 0, 0, 0, 0, 0, 0xFFFF⟩,
  ⟨0x240030, [(0x1000, 64)], 0x7F, 0, 0, 0, 0, 0, 0, 0x7F⟩]

/-- STG registers: STG_TAB_FC, STG_TAB_FILL, STG_TAB_FILL_WIN, STG_TAB_BUBBLE, STG_TAB_FILLS. -/
def regsStg2 : List RegDef := [
  ⟨0x240034, [(0x1000, 64)], 0, 0, 0, 0, 0, 0, 0, 0⟩,
  ⟨0x240038, [(0x1000, 64)], 0xFFFF0000, 0x7, 0, 0, 0, 0, 0, 0xFFFF0007⟩,
  ⟨0x24003C, [(0x1000, 64)], 0, 0xFFF, 0, 0, 0, 0, 0, 0xFFF⟩,
  ⟨0x240040, [(0x1000, 64)], 0, 0, 0, 0, 0xFFFFFFFF, 0, 0, 0⟩,
  ⟨0x240044, [(0x1000, 64)], 0, 0, 0, 0, 0xFFFFFFFF, 0, 0, 0⟩]

/-- The STG registers. -/
def regsStg : List RegDef := regsStg0 ++ regsStg1 ++ regsStg2

/-- SNP registers: SNP_CAPS, SNP_CTX_CFG, SNP_CTX_ELEMS, SNP_CTX_STORE, SNP_CTX_EXC, SNP_CTX_PEERS, SNP_CTX_TMO, SNP_CTX_CTRL, SNP_CTX_HEAD, SNP_CTX_BUILD, SNP_CTX_BSTEP, SNP_CTX_STATUS, SNP_CTX_WAIT, SNP_CTX_OVER, SNP_CTX_STRAY, SNP_SLOTk. -/
def regsSnp : List RegDef := [
  ⟨0x280000, [], 0, 0, 0, 0, 0, 0x1008, 0, 0⟩,
  ⟨0x281000, [(0x80, 256)], 0xFF1FFF, 0, 0, 0, 0, 0, 0, 0xFF1FFF⟩,
  ⟨0x281004, [(0x80, 256)], 0xFFFFFFFF, 0, 0, 0, 0, 0, 0, 0xFFFFFFFF⟩,
  ⟨0x281008, [(0x80, 256)], 0x1FFFFFF, 0, 0, 0, 0, 0, 0, 0x1FFFFFF⟩,
  ⟨0x28100C, [(0x80, 256)], 0xFFFFF, 0, 0, 0, 0, 0, 0, 0xFFFFF⟩,
  ⟨0x281010, [(0x80, 256)], 0xFF01FF, 0, 0, 0, 0, 0, 0, 0xFF01FF⟩,
  ⟨0x281014, [(0x80, 256)], 0xFFFFFFFF, 0, 0, 0, 0, 0, 0, 0xFFFFFFFF⟩,
  ⟨0x281018, [(0x80, 256)], 0xFFFF001C, 0, 0x3, 0, 0, 0, 0, 0⟩,
  ⟨0x28101C, [(0x80, 256)], 0, 0, 0, 0, 0, 0, 0, 0⟩,
  ⟨0x281020, [(0x80, 256)], 0, 0, 0, 0, 0, 0, 0, 0⟩,
  ⟨0x281024, [(0x80, 256)], 0, 0, 0, 0, 0, 0, 0, 0⟩,
  ⟨0x281028, [(0x80, 256)], 0, 0, 0, 0, 0, 0, 0, 0⟩,
  ⟨0x28102C, [(0x80, 256)], 0, 0, 0, 0, 0xFFFFFFFF, 0, 0, 0⟩,
  ⟨0x281030, [(0x80, 256)], 0, 0, 0, 0, 0xFFFFFFFF, 0, 0, 0⟩,
  ⟨0x281034, [(0x80, 256)], 0, 0, 0, 0, 0xFFFFFFFF, 0, 0, 0⟩,
  ⟨0x281040, [(0x80, 256), (0x4, 8)], 0, 0, 0, 0, 0, 0, 0, 0⟩]

/-- DRF registers: DRF_CAPS, DRF_POOLj, DRF_TMOj, DRF_HTABj, DRF_AMRINGj, DRF_DLOGj, DRF_DLOGLENj, DRF_COLL_WAIT, DRF_COLL_LATE, DRF_COLL_TMO, DRF_DIGMIS, DRF_AM_RX, DRF_AM_WAIT, DRF_AM_DEAD, DRF_DQ_HOLDWAIT, DRF_VC2_BLOCK. -/
def regsDrf0 : List RegDef := [
  ⟨0x300000, [], 0, 0, 0, 0, 0, 0x400840, 0, 0⟩,
  ⟨0x300010, [(0x20, 4)], 0, 0xFFFFFFF, 0, 0, 0, 0, 0, 0xFFFFFFF⟩,
  ⟨0x300014, [(0x20, 4)], 0xFFFFFFFF, 0, 0, 0, 0, 0xBB8, 0, 0xFFFFFFFF⟩,
  ⟨0x300018, [(0x20, 4)], 0x3FF, 0, 0, 0, 0, 0, 0, 0x3FF⟩,
  ⟨0x30001C, [(0x20, 4)], 0xFFF, 0, 0, 0, 0, 0, 0, 0xFFF⟩,
  ⟨0x300020, [(0x20, 4)], 0xFFFFFFF, 0, 0, 0, 0, 0, 0, 0xFFFFFFF⟩,
  ⟨0x300024, [(0x20, 4)], 0xFFFF, 0, 0, 0, 0, 0, 0, 0xFFFF⟩,
  ⟨0x300100, [], 0, 0, 0, 0, 0xFFFFFFFF, 0, 0, 0⟩,
  ⟨0x300104, [], 0, 0, 0, 0, 0xFFFFFFFF, 0, 0, 0⟩,
  ⟨0x300108, [], 0, 0, 0, 0, 0xFFFFFFFF, 0, 0, 0⟩,
  ⟨0x30010C, [], 0, 0, 0, 0, 0xFFFFFFFF, 0, 0, 0⟩,
  ⟨0x300110, [], 0, 0, 0, 0, 0xFFFFFFFF, 0, 0, 0⟩,
  ⟨0x300114, [], 0, 0, 0, 0, 0xFFFFFFFF, 0, 0, 0⟩,
  ⟨0x300118, [], 0, 0, 0, 0, 0xFFFFFFFF, 0, 0, 0⟩,
  ⟨0x30011C, [], 0, 0, 0, 0, 0xFFFFFFFF, 0, 0, 0⟩,
  ⟨0x300120, [], 0, 0, 0, 0, 0xFFFFFFFF, 0, 0, 0⟩]

/-- DRF registers: DRF_VC4_BLOCK, DRF_VIOL, DRF_COLLi_ID, DRF_COLLi_STEP, DRF_COLLi_DONE, DRF_COLLi_MISS, DRF_DQ_CFGq, DRF_DQ_SIZEq, DRF_DQ_READERq, DRF_DQ_BASEq, DRF_DQ_STATUSq, DRF_DQ_ADDSq, DRF_DQ_DONEq. -/
def regsDrf1 : List RegDef := [
  ⟨0x300124, [], 0, 0, 0, 0, 0xFFFFFFFF, 0, 0, 0⟩,
  ⟨0x300128, [], 0, 0, 0, 0, 0xFFFFFFFF, 0, 0, 0⟩,
  ⟨0x300200, [(0x10, 16)], 0, 0, 0, 0, 0, 0, 0, 0⟩,
  ⟨0x300204, [(0x10, 16)], 0, 0, 0, 0, 0, 0, 0, 0⟩,
  ⟨0x300208, [(0x10, 16)], 0, 0, 0, 0, 0, 0, 0, 0⟩,
  ⟨0x30020C, [(0x10, 16)], 0, 0, 0, 0, 0, 0, 0, 0⟩,
  ⟨0x301000, [(0x20, 64)], 0xFF007F, 0, 0, 0, 0, 0, 0, 0xFF007F⟩,
  ⟨0x301004, [(0x20, 64)], 0x3FFFFFF, 0, 0, 0, 0, 0, 0, 0x3FFFFFF⟩,
  ⟨0x301008, [(0x20, 64)], 0x7FFFF, 0, 0, 0, 0, 0, 0, 0x7FFFF⟩,
  ⟨0x30100C, [(0x20, 64)], 0xFFFFFF, 0, 0, 0, 0, 0, 0, 0xFFFFFF⟩,
  ⟨0x301010, [(0x20, 64)], 0, 0, 0, 0, 0, 0, 0, 0⟩,
  ⟨0x301014, [(0x20, 64)], 0, 0, 0, 0, 0xFFFFFFFF, 0, 0, 0⟩,
  ⟨0x301018, [(0x20, 64)], 0, 0, 0, 0, 0xFFFFFFFF, 0, 0, 0⟩]

/-- The DRF registers. -/
def regsDrf : List RegDef := regsDrf0 ++ regsDrf1

/-- TWI registers: TWI_CAPS, TWI_CAPSEL, TWI_CAPWn, TWI_THRn, TWI_TEMPn, TWI_THRCCd, TWI_LCTRL, TWI_LSTATUS, TWI_LCRC, TWI_LRETRY, TWI_LPROTO, TWI_LISOL, TWI_LNEG. -/
def regsTwi : List RegDef := [
  ⟨0x380000, [], 0, 0, 0, 0, 0, 0x212, 0, 0⟩,
  ⟨0x380004, [], 0x3F, 0, 0, 0, 0, 0, 0, 0x3F⟩,
  ⟨0x380040, [(0x4, 16)], 0, 0, 0, 0, 0, 0, 0, 0⟩,
  ⟨0x380080, [(0x4, 12)], 0xFFFFF, 0, 0, 0, 0, 0x25D5A, 0, 0xFFFFF⟩,
  ⟨0x3800C0, [(0x4, 12)], 0, 0, 0, 0, 0, 0, 0, 0⟩,
  ⟨0x3800F0, [(0x4, 4)], 0, 0, 0, 0, 0xFFFFFFFF, 0, 0, 0⟩,
  ⟨0x380100, [(0x20, 18)], 0, 0x1FFFF, 0, 0, 0, 0x1FFFF, 0x1, 0x1FFFF⟩,
  ⟨0x380104, [(0x20, 18)], 0, 0, 0, 0, 0, 0, 0, 0⟩,
  ⟨0x380108, [(0x20, 18)], 0, 0, 0, 0, 0xFFFFFFFF, 0, 0, 0⟩,
  ⟨0x38010C, [(0x20, 18)], 0, 0, 0, 0, 0xFFFFFFFF, 0, 0, 0⟩,
  ⟨0x380110, [(0x20, 18)], 0, 0, 0, 0, 0xFFFFFFFF, 0, 0, 0⟩,
  ⟨0x380114, [(0x20, 18)], 0, 0, 0, 0, 0xFFFFFFFF, 0, 0, 0⟩,
  ⟨0x380118, [(0x20, 18)], 0, 0, 0, 0, 0, 0, 0, 0⟩]

/-- CIR registers: CIR_MC_CTRL, CIR_MC_GANG, CIR_MC_LOFF, CIR_MC_EOFF, CIR_MC_SOFF, CIR_MC_STATUS, CIR_MC_BANK, CIR_MC_FRZ_BANK, CIR_MC_FRZ_ACC, CIR_MC_FRZ_BOW, CIR_MC_HOLD, CIR_MC_UNITS, CIR_MC_MISMATCH, CIR_MC_CAPS, CIR_VE_STATUS, CIR_VE_CAPS. -/
def regsCir0 : List RegDef := [
  ⟨0x400400, [(0x2000, 512), (0x40, 8)], 0xFFFF0000, 0x1, 0, 0, 0, 0, 0x1, 0xFFFF0001⟩,
  ⟨0x400404, [(0x2000, 512), (0x40, 8)], 0, 0xFFF, 0, 0, 0, 0, 0xFFF, 0xFFF⟩,
  ⟨0x400408, [(0x2000, 512), (0x40, 8)], 0x7FFFFFFF, 0, 0, 0, 0, 0, 0, 0x7FFFFFFF⟩,
  ⟨0x40040C, [(0x2000, 512), (0x40, 8)], 0x7FFFFFFF, 0, 0, 0, 0, 0, 0, 0x7FFFFFFF⟩,
  ⟨0x400410, [(0x2000, 512), (0x40, 8)], 0x1FFFFFF, 0, 0, 0, 0, 0, 0, 0x1FFFFFF⟩,
  ⟨0x400414, [(0x2000, 512), (0x40, 8)], 0, 0, 0, 0, 0, 0, 0, 0⟩,
  ⟨0x400418, [(0x2000, 512), (0x40, 8), (0x4, 2)], 0, 0, 0, 0, 0, 0, 0, 0⟩,
  ⟨0x400420, [(0x2000, 512), (0x40, 8)], 0, 0, 0, 0, 0xFFFFFFFF, 0, 0, 0⟩,
  ⟨0x400424, [(0x2000, 512), (0x40, 8)], 0, 0, 0, 0, 0xFFFFFFFF, 0, 0, 0⟩,
  ⟨0x400428, [(0x2000, 512), (0x40, 8)], 0, 0, 0, 0, 0xFFFFFFFF, 0, 0, 0⟩,
  ⟨0x40042C, [(0x2000, 512), (0x40, 8)], 0, 0, 0, 0, 0xFFFFFFFF, 0, 0, 0⟩,
  ⟨0x400430, [(0x2000, 512), (0x40, 8)], 0, 0, 0, 0, 0xFFFFFFFF, 0, 0, 0⟩,
  ⟨0x400434, [(0x2000, 512), (0x40, 8)], 0, 0, 0, 0, 0xFFFF, 0, 0, 0⟩,
  ⟨0x400438, [(0x2000, 512), (0x40, 8)], 0, 0, 0, 0, 0, 0x20082060, 0, 0⟩,
  ⟨0x400800, [(0x2000, 512)], 0, 0, 0, 0, 0, 0, 0, 0⟩,
  ⟨0x400804, [(0x2000, 512)], 0, 0, 0, 0, 0, 0x244480, 0, 0⟩]

/-- CIR registers: CIR_VE_TBLn, CIR_VE_TCHKn, CIR_VE_ELEMS, CIR_VE_HAZ, CIR_VE_PORT, CIR_VE_MASKED, CIR_VE_DROPPED, CIR_CE_CFG, CIR_CE_STATUS, CIR_CE_CHk, CIR_CE_BYTES, CIR_CE_MERGED, CIR_CE_AGED, CIR_CE_SLOTWAIT, CIR_CE_TMO, CIR_CE_LAT_MAX. -/
def regsCir1 : List RegDef := [
  ⟨0x400808, [(0x2000, 512), (0x4, 4)], 0, 0, 0, 0, 0, 0, 0, 0⟩,
  ⟨0x400818, [(0x2000, 512), (0x4, 4)], 0, 0, 0, 0, 0, 0, 0, 0⟩,
  ⟨0x400828, [(0x2000, 512)], 0, 0, 0, 0, 0xFFFFFFFF, 0, 0, 0⟩,
  ⟨0x40082C, [(0x2000, 512)], 0, 0, 0, 0, 0xFFFFFFFF, 0, 0, 0⟩,
  ⟨0x400830, [(0x2000, 512)], 0, 0, 0, 0, 0xFFFFFFFF, 0, 0, 0⟩,
  ⟨0x400834, [(0x2000, 512)], 0, 0, 0, 0, 0xFFFFFFFF, 0, 0, 0⟩,
  ⟨0x400838, [(0x2000, 512)], 0, 0, 0, 0, 0xFFFFFFFF, 0, 0, 0⟩,
  ⟨0x400C00, [(0x2000, 512)], 0xFFFFFFFF, 0, 0, 0, 0, 0x102003E8, 0, 0xFFFFFFFF⟩,
  ⟨0x400C04, [(0x2000, 512)], 0, 0, 0, 0, 0, 0, 0, 0⟩,
  ⟨0x400C08, [(0x2000, 512), (0x4, 8)], 0, 0, 0, 0, 0, 0, 0, 0⟩,
  ⟨0x400C28, [(0x2000, 512)], 0, 0, 0, 0, 0xFFFFFFFF, 0, 0, 0⟩,
  ⟨0x400C2C, [(0x2000, 512)], 0, 0, 0, 0, 0xFFFFFFFF, 0, 0, 0⟩,
  ⟨0x400C30, [(0x2000, 512)], 0, 0, 0, 0, 0xFFFFFFFF, 0, 0, 0⟩,
  ⟨0x400C34, [(0x2000, 512)], 0, 0, 0, 0, 0xFFFFFFFF, 0, 0, 0⟩,
  ⟨0x400C38, [(0x2000, 512)], 0, 0, 0, 0, 0xFFFFFFFF, 0, 0, 0⟩,
  ⟨0x400C3C, [(0x2000, 512)], 0, 0, 0, 0, 0xFFFFFFFF, 0, 0, 0⟩]

/-- CIR registers: CIR_FP_SHARE, CIR_FP_SCRUB, CIR_FP_CE, CIR_FP_UE, CIR_FP_ERRADDR, CIR_FP_CONFLICT, CIR_NU_CTRL, CIR_NU_LTAB, CIR_NU_LOG, CIR_NU_HOLD, CIR_NU_SEEDn, CIR_NU_STATUS, CIR_NU_REPLAYS, CIR_NU_FAILS, CIR_NU_MISMATCH, CIR_NU_COMMITS. -/
def regsCir2 : List RegDef := [
  ⟨0x400E00, [(0x2000, 512)], 0xFFFF, 0, 0, 0, 0, 0x4444, 0, 0xFFFF⟩,
  ⟨0x400E04, [(0x2000, 512)], 0xFFFF, 0, 0, 0, 0, 0x3E8, 0, 0xFFFF⟩,
  ⟨0x400E08, [(0x2000, 512)], 0, 0, 0, 0, 0xFFFFFFFF, 0, 0, 0⟩,
  ⟨0x400E0C, [(0x2000, 512)], 0, 0, 0, 0, 0xFFFFFFFF, 0, 0, 0⟩,
  ⟨0x400E10, [(0x2000, 512)], 0, 0, 0, 0, 0, 0, 0, 0⟩,
  ⟨0x400E14, [(0x2000, 512)], 0, 0, 0, 0, 0xFFFFFFFF, 0, 0, 0⟩,
  ⟨0x400F00, [(0x2000, 512)], 0x1, 0, 0x6, 0, 0, 0x1, 0, 0x1⟩,
  ⟨0x400F04, [(0x2000, 512)], 0xFFFFFFF, 0, 0, 0, 0, 0, 0, 0xFFFFFFF⟩,
  ⟨0x400F08, [(0x2000, 512)], 0xFFFF, 0, 0, 0, 0, 0, 0, 0xFFFF⟩,
  ⟨0x400F0C, [(0x2000, 512), (0x4, 2)], 0xFFFFFFFF, 0, 0, 0, 0, 0, 0, 0xFFFFFFFF⟩,
  ⟨0x400F14, [(0x2000, 512), (0x4, 4)], 0xFFFFFFFF, 0, 0, 0, 0, 0, 0, 0xFFFFFFFF⟩,
  ⟨0x400F24, [(0x2000, 512)], 0, 0, 0, 0, 0, 0, 0, 0⟩,
  ⟨0x400F28, [(0x2000, 512)], 0, 0, 0, 0, 0xFFFFFFFF, 0, 0, 0⟩,
  ⟨0x400F2C, [(0x2000, 512)], 0, 0, 0, 0, 0xFFFFFFFF, 0, 0, 0⟩,
  ⟨0x400F30, [(0x2000, 512)], 0, 0, 0, 0, 0xFFFFFFFF, 0, 0, 0⟩,
  ⟨0x400F34, [(0x2000, 512)], 0, 0, 0, 0, 0xFFFFFFFF, 0, 0, 0⟩]

/-- CIR registers: CIR_RIME_CONV, CIR_RIME_ZERO, CIR_RIME_SAT, CIR_RIME_NONFIN, CIR_RIME_TCONV, CIR_RIME_TZERO, CIR_RIME_TSAT, CIR_RIME_TNONFIN, CIR_NU_WLVLn, CIR_PM_CTRL, CIR_PM_STATUS, CIR_PM_TIME1, CIR_PM_TIME2, CIR_PM_ENTRIES. -/
def regsCir3 : List RegDef := [
  ⟨0x401000, [(0x2000, 512), (0x20, 64)], 0, 0, 0, 0, 0, 0, 0, 0⟩,
  ⟨0x401004, [(0x2000, 512), (0x20, 64)], 0, 0, 0, 0, 0, 0, 0, 0⟩,
  ⟨0x401008, [(0x2000, 512), (0x20, 64)], 0, 0, 0, 0, 0, 0, 0, 0⟩,
  ⟨0x40100C, [(0x2000, 512), (0x20, 64)], 0, 0, 0, 0, 0, 0, 0, 0⟩,
  ⟨0x401010, [(0x2000, 512), (0x20, 64)], 0, 0, 0, 0, 0xFFFFFFFF, 0, 0, 0⟩,
  ⟨0x401014, [(0x2000, 512), (0x20, 64)], 0, 0, 0, 0, 0xFFFFFFFF, 0, 0, 0⟩,
  ⟨0x401018, [(0x2000, 512), (0x20, 64)], 0, 0, 0, 0, 0xFFFFFFFF, 0, 0, 0⟩,
  ⟨0x40101C, [(0x2000, 512), (0x20, 64)], 0, 0, 0, 0, 0xFFFFFFFF, 0, 0, 0⟩,
  ⟨0x401800, [(0x2000, 512), (0x4, 64)], 0, 0, 0, 0, 0, 0, 0, 0⟩,
  ⟨0x401C00, [(0x2000, 512)], 0x3, 0, 0, 0, 0, 0, 0, 0⟩,
  ⟨0x401C04, [(0x2000, 512)], 0, 0, 0, 0, 0, 0, 0, 0⟩,
  ⟨0x401C08, [(0x2000, 512)], 0, 0, 0, 0, 0xFFFFFFFF, 0, 0, 0⟩,
  ⟨0x401C0C, [(0x2000, 512)], 0, 0, 0, 0, 0xFFFFFFFF, 0, 0, 0⟩,
  ⟨0x401C10, [(0x2000, 512)], 0, 0, 0, 0, 0xFFFFFFFF, 0, 0, 0⟩]

/-- The CIR registers. -/
def regsCir : List RegDef := regsCir0 ++ regsCir1 ++ regsCir2 ++ regsCir3

/-- MOR registers: MOR_HMAP, MOR_CTL_CFG, MOR_CTL_STATUS, MOR_LAT_MAX, MOR_ECC_CE, MOR_ECC_UE, MOR_RET_CFG, MOR_RET_STATUS, MOR_RET_SEL, MOR_RET_ENTRY, MOR_RET_ADDR, MOR_RET_CTRL, MOR_RET_DROPS, MOR_ACT, MOR_HIT, MOR_ENG_STATUS. -/
def regsMor0 : List RegDef := [
  ⟨0x8C0000, [(0x100000, 8)], 0, 0xFF, 0, 0, 0, 0, 0xFF, 0xFF⟩,
  ⟨0x8C0004, [(0x100000, 8)], 0xFFFFFFFF, 0, 0, 0, 0, 0x3E800C8, 0, 0xFFFFFFFF⟩,
  ⟨0x8C0008, [(0x100000, 8)], 0, 0, 0, 0, 0, 0, 0, 0⟩,
  ⟨0x8C000C, [(0x100000, 8)], 0, 0, 0, 0, 0xFFFFFFFF, 0, 0, 0⟩,
  ⟨0x8C0010, [(0x100000, 8)], 0, 0, 0, 0, 0xFFFFFFFF, 0, 0, 0⟩,
  ⟨0x8C0014, [(0x100000, 8)], 0, 0, 0, 0, 0xFFFFFFFF, 0, 0, 0⟩,
  ⟨0x8C0018, [(0x100000, 8)], 0xFF, 0, 0, 0, 0, 0x4, 0, 0xFF⟩,
  ⟨0x8C001C, [(0x100000, 8)], 0, 0, 0, 0, 0, 0, 0, 0⟩,
  ⟨0x8C0020, [(0x100000, 8)], 0x1FF, 0, 0, 0, 0, 0, 0, 0x1FF⟩,
  ⟨0x8C0024, [(0x100000, 8)], 0, 0, 0, 0, 0, 0, 0, 0⟩,
  ⟨0x8C0028, [(0x100000, 8)], 0, 0, 0, 0, 0, 0, 0, 0⟩,
  ⟨0x8C002C, [(0x100000, 8)], 0, 0x3FF, 0, 0, 0, 0, 0, 0x3FF⟩,
  ⟨0x8C0030, [(0x100000, 8)], 0, 0, 0, 0, 0xFFFFFFFF, 0, 0, 0⟩,
  ⟨0x8C0034, [(0x100000, 8)], 0, 0, 0, 0, 0xFFFFFFFF, 0, 0, 0⟩,
  ⟨0x8C0038, [(0x100000, 8)], 0, 0, 0, 0, 0xFFFFFFFF, 0, 0, 0⟩,
  ⟨0x800000, [(0x100000, 8)], 0, 0, 0, 0, 0, 0, 0, 0⟩]

/-- MOR registers: MOR_ENG_CAPS, MOR_ENG_CFG, MOR_ENG_ELEMS, MOR_ENG_KIB, MOR_ENG_NONFIN, MOR_ENG_LAT_MAX. -/
def regsMor1 : List RegDef := [
  ⟨0x800004, [(0x100000, 8)], 0, 0, 0, 0, 0, 0x740, 0, 0⟩,
  ⟨0x800008, [(0x100000, 8)], 0xF, 0, 0, 0, 0, 0x4, 0, 0xF⟩,
  ⟨0x80000C, [(0x100000, 8)], 0, 0, 0, 0, 0xFFFFFFFF, 0, 0, 0⟩,
  ⟨0x800010, [(0x100000, 8)], 0, 0, 0, 0, 0xFFFFFFFF, 0, 0, 0⟩,
  ⟨0x800014, [(0x100000, 8)], 0, 0, 0, 0, 0xFFFFFFFF, 0, 0, 0⟩,
  ⟨0x800018, [(0x100000, 8)], 0, 0, 0, 0, 0xFFFFFFFF, 0, 0, 0⟩]

/-- The MOR registers. -/
def regsMor : List RegDef := regsMor0 ++ regsMor1

/-- The block of Table 14-1 that holds an offset. -/
def regBlock (off : Nat) : List RegDef :=
  if off < 0x10000 then regsGlb else if off < 0x20000 then regsPwr else if off < 0x30000 then regsClk
  else if off < 0x40000 then regsCfi else if off < 0x80000 then regsTim else if off < 0x100000 then regsPlh
  else if off < 0x200000 then regsLnk else if off < 0x280000 then regsStg else if off < 0x300000 then regsSnp
  else if off < 0x380000 then regsDrf else if off < 0x400000 then regsTwi else if off < 0x800000 then regsCir
  else regsMor

/-- The instance numbers that a distance from a register's base spells. -/
def dimIndex : List (Nat × Nat) → Nat → Option (List Nat)
  | [], 0 => some []
  | [], _ + 1 => none
  | (st, n) :: r, x => if x / st < n then (dimIndex r (x % st)).map (x / st :: ·) else none

/-- The instance numbers of an offset in a register. -/
def RegDef.index (d : RegDef) (off : Nat) : Option (List Nat) :=
  if off < d.base then none else dimIndex d.dims (off - d.base)

/-- The register of a list at an offset. -/
def regIn : List RegDef → Nat → Option RegDef
  | [], _ => none
  | d :: r, off => if (d.index off).isSome then some d else regIn r off

/-- The register at an offset, none where the home chapters name none (R423). -/
def regAt (off : Nat) : Option RegDef := regIn (regBlock off) off

/-- The reset value at an offset; an offset without a register reads as zero (R423). -/
def resetAt (off : Nat) : Nat := match regAt off with | some d => d.rst | none => 0

/-- The field of a register value. -/
def Fld.of (f : Fld) (x : W32) : Nat := bits x.toNat f.lo f.w

/-- The register value with the field replaced. -/
def Fld.put (f : Fld) (x : W32) (v : Nat) : W32 := BitVec.ofNat 32 (setBits x.toNat f.lo f.w v)

end Sys2Proof.Machine
end

