-- ==== Sys2Proof/Machine/State.lean ====
section
/-! DEFINITION. The state of the block as plain data: registers, memory, the engines' hidden state, the items in
execution and the queue of the commands that wait. Every register has one home: regs, except the read-only fields
that Machine/RegView.lean computes from the hidden state (State.view). -/
namespace Sys2Proof.Machine

/-- Why a command stops with a fault. No command of this block does: an access that a rule refuses has the effect that
the rule gives it (a completion status, an event, a counter). Never raised; safe. -/
inductive Fault where
  /-- Never raised: kept so that the type of faults is not empty. Safe. -/
  | none
  deriving DecidableEq, Repr

/-- Why a command has no meaning. -/
inductive Refusal where
  /-- Raised by an arm of exec whose meaning is not written yet. Safe. -/
  | notModelled (mnemonic : String)
  deriving DecidableEq, Repr

/-- The statuses of Table 1-6. -/
inductive Status where
  | done | empty | malformed | addressFault | refused | linkLost | queueDead | dataError | aborted | timeout | stepFailed
  deriving DecidableEq, Repr

/-- The code of a status (Table 1-6). -/
def statusCode : Status → Nat
  | .done => 0 | .empty => 1 | .malformed => 2 | .addressFault => 3 | .refused => 4 | .linkLost => 5
  | .queueDead => 6 | .dataError => 7 | .aborted => 8 | .timeout => 9 | .stepFailed => 10

/-- The content of a completion but its timestamp (R27). -/
structure Completion where
  status : Status := .done
  detail : Nat := 0
  count : Nat := 0
  deriving DecidableEq, Repr

/-- A micro-batch tag (R23). -/
structure Tag where
  mb : W32 := 0
  step : W32 := 0
  ver : BitVec 16 := 0
  deriving DecidableEq, Repr

/-- Who issued an item: a thread with its completion group (R81), submission entry ix of ring k of a port with its TAG
and FLAGS.IRQ (R402), the mirroring of a job, whose generations go to the host tier (R489), or the device itself. -/
inductive Owner where
  | thread (key grp : Nat)
  | entry (port ring ix tag : Nat) (irq : Bool)
  | mirror (job : Nat)
  | device
  deriving DecidableEq, Repr

/-- An accepted item (R24): the unit that runs it (Table 15-4), its stream in that unit, whether that stream reports in
issue order (R18), its result once its effects are complete and the earliest time with which its completion may be stamped (R21),
when it was accepted, and of an item of several parts the number of these and the count that it reports when all are done. -/
structure Item where
  id : Nat
  unit : Nat
  index : Nat
  chan : Nat := 0
  ordered : Bool := true
  owner : Owner
  tag : Tag := {}
  parts : Nat := 0
  whole : Nat := 0
  comp : Option Completion := none
  since : W64 := 0
  info : Nat := 0
  time : W64 := 0
  deriving DecidableEq, Repr

/-- A completion as it is reported (R27): the item, its result and its timestamp. -/
structure Retired where
  item : Item
  comp : Completion
  time : W64
  deriving DecidableEq, Repr

/-- The result of one part of an item whose other parts are not complete: the item, the part, and its result (R150, R354). -/
structure PartResult where
  item : Nat
  n : Nat
  comp : Completion
  deriving DecidableEq, Repr

/-- The items in execution in issue order, the next number, every completion, oldest first, how many of these were reported before
the latest power-on reset (R22), and results of parts of items. -/
structure Items where
  next : Nat := 0
  live : List Item := []
  log : List Retired := []
  past : Nat := 0
  results : List PartResult := []
  deriving DecidableEq, Repr

/-- The register space (R423): the values that software reads, staged ones included, and the applied values of the
staged registers (R427). A register that is not listed stands at its reset value. -/
structure RegFile where
  cur : Tbl W32 := []
  app : Tbl W32 := []
  deriving DecidableEq, Repr

/-- A range of memory with undefined content: first address, length, the seed of its free bytes, and, where the range lies in an
interleaved window and only one stack's pieces of it are undefined, that stack (R218). -/
structure Undef where
  first : Nat
  len : Nat
  seed : Nat
  lane : Option Nat := none
  deriving DecidableEq, Repr

/-- Memory by device address (R14): the bytes that are not zero, the ranges with undefined content, the addresses of the 8-byte
Firn words and 64-byte HBM bursts that hold an uncorrectable error, and of the bursts that hold an error which a read has met and
corrected (R200, R226). -/
structure Memory where
  cells : List Host.Cell := []
  undef : List Undef := []
  ue : List Nat := []
  ce : List Nat := []
  deriving DecidableEq, Repr

/-- An event as its unit raises it (R439). -/
structure Event where
  time : W64
  code : Nat
  job : Option Nat
  unit : Nat
  index : Nat
  arg0 : Nat
  arg1 : Nat
  deriving DecidableEq, Repr

/-- The event log (R441 to R443): events raised and not yet delivered, the records held with their SEQ, newest first, the
next SEQ, and the counts in the current window: records logged and events suppressed by code. -/
structure EventLog where
  raised : List Event := []
  held : List (Nat × Event) := []
  next : Nat := 0
  logged : Tbl Nat := []
  lost : Tbl Nat := []
  deriving DecidableEq, Repr

/-- A slot in the Firn ring of an inbound queue: its ring index, whether it is resident, taken or released out of turn by
the device (R57), and a header that a fill-back could not read (R64). -/
structure InSlot where
  ix : Nat
  resident : Bool := true
  taken : Bool := false
  auto : Bool := false
  badHdr : Option Nat := none
  deriving DecidableEq, Repr

/-- A queue operation that waits (R51 to R54, R89): its kind as Table 3-6 codes it, the thread, the item and the word. -/
structure QOp where
  kind : Nat
  key : Nat
  item : Nat
  d : Nat := 0
  flags : Nat := 0
  fmt : Nat := 0
  len : Nat := 0
  logged : Bool := false
  deriving DecidableEq, Repr

/-- A host buffer posted to an outbound HOST queue (R407): window address, length, and the entry's item. -/
structure PostBuf where
  addr : Nat
  len : Nat
  item : Nat
  deriving DecidableEq, Repr

/-- An admitted SEND whose transfer runs: its slot, its length, its SEQ, its item, the transfer's XID on a REMOTE queue, its
buffer on a HOST queue, its header as the device wrote it (R50), what its payload read met (R515), its result once the consumer has
placed it (R54), whether the consumer dropped it (R61), and the port whose WRITEs deliver it and are not all acknowledged (R408). -/
structure Flight where
  slot : Nat
  len : Nat
  seq : Nat
  item : Nat
  xid : Option W32 := none
  buf : Option PostBuf := none
  hdr : Bytes := []
  bad : Option Completion := none
  result : Option Completion := none
  dropped : Bool := false
  wrote : Option Nat := none
  deriving DecidableEq, Repr

/-- A FEED that waits or runs (R405): host address, length, MB_ID, flags, format, the STEP and VERSION of a GIN slot, the entry's
item, its ring (4 × port + ring), whether its wait for credit has ended (R406), and once admitted its SEQ and time. -/
structure Feed where
  addr : Nat
  len : Nat
  mb : W32
  flags : Nat
  fmt : Nat
  tag : Tag := {}
  item : Nat
  order : Nat := 0
  ready : Bool := false
  started : Bool := false
  seq : Nat := 0
  time : W64 := 0
  deriving DecidableEq, Repr

/-- The hidden state of a stage queue (R47 to R64); tooLarge: the peer's answer showed smaller slots (CFG_ERR 0x5); fed: the FEEDs that have
been admitted (R405). -/
structure Queue where
  sent : W32 := 0
  arrived : W32 := 0
  released : W32 := 0
  seen : BitVec 16 := 0
  reported : BitVec 16 := 0
  peerCap : Nat := 0
  claimed : List (Nat × Tag) := []
  nextClaim : Nat := 0
  flights : List Flight := []
  slots : List InSlot := []
  nextIn : Nat := 0
  spill : List Nat := []
  nextSpill : Nat := 0
  filling : Bool := false
  ops : List QOp := []
  posts : List PostBuf := []
  feeds : List Feed := []
  fed : W32 := 0
  dead : Bool := false
  tooLarge : Bool := false
  deriving DecidableEq, Repr

/-- A stash entry in use (R69), whether a layer of its micro-batch was replayed in a wider format at this stage (R88), and the item of
the TAKE that took it, by which the oldest one is known. -/
structure Stash where
  used : Bool := false
  order : Nat := 0
  tag : Tag := {}
  widened : Bool := false
  deriving DecidableEq, Repr

/-- A row of a tablature (Table 3-7). -/
structure Row where
  rep : Nat
  fEn : Bool
  bEn : Bool
  uEn : Bool
  bPart : Nat
  stepEnd : Bool
  eval : Bool
  fPrio : Nat
  bPrio : Nat
  uPrio : Nat
  wait : Nat
  fVst : Nat
  bVst : Nat
  uVst : Nat
  cond : Nat
  next : Nat
  alt : Nat
  arg : Nat
  limit : Nat
  deriving DecidableEq, Repr

/-- Where a partition stands in the current iteration: none runs, a fill program is due (R102), one runs (R103), or the
pass streams run. -/
inductive Phase where
  | none | fillDue | filling | running
  deriving DecidableEq, Repr

/-- A layer-ready entry: the layer and the clusters that have started U_PROG for it (R101). -/
structure LayerReady where
  layer : Nat
  started : List Nat := []
  deriving DecidableEq, Repr

/-- The pending counters of a set as a COMMIT's snapshot holds them (R273). -/
structure SetSnap where
  set : Nat
  conv : Nat
  zero : Nat
  sat : Nat
  nonfin : Nat
  deriving DecidableEq, Repr

/-- A stream that has joined a COMMIT exchange (R273): its cluster, unit, item, the bytes of its layer-table entry where that is
valid, the failing byte where it is unreadable, and its snapshot. -/
structure Joined where
  g : Nat
  layer : Nat
  item : Nat
  entry : Option Bytes
  bad : Option Nat
  snap : List SetSnap
  deriving DecidableEq, Repr

/-- The hidden state of a partition's tablature (R91 to R108). passEnds: the stash entries of the backward pass that runs, of
which a B program has ended (Table 3-8). runWas: RUN as it stood before the latest good STEP_END (R108). -/
structure Part where
  row : Option Row := none
  fetchDue : Bool := false
  phase : Phase := .none
  iterLogged : Bool := false
  fillLogged : Bool := false
  pendingStop : Bool := false
  fault : Nat := 0
  pendingW : List (Nat × Nat) := []
  passEnds : List (Nat × Nat) := []
  ready : List LayerReady := []
  doneBy : List (Nat × List Nat) := []
  failed : List W32 := []
  handled : List W32 := []
  runWas : Nat := 0
  evalVer : List (Nat × BitVec 16) := []
  skipLogged : Bool := false
  joinF : List Joined := []
  joinB : List Joined := []
  joinU : List Joined := []
  deriving DecidableEq, Repr

/-- What a thread runs (Table 3-1). -/
inductive Prog where
  | idle | pass | early | fill | handler
  deriving DecidableEq, Repr

/-- What a thread waits for (R79): items of groups, its END, a COMMIT, one item, or room for the n descriptors at slice offset
off of a COPY word (R208). -/
inductive Wait where
  | none
  | groups (mask : Nat)
  | ending
  | commit (id layer : Nat)
  | item (id : Nat)
  | copy (off n : Nat)
  deriving DecidableEq, Repr

/-- A loop in execution: the pc of its first and last word and the iterations left (R84). -/
structure Loop where
  first : Nat
  last : Nat
  left : Nat
  deriving DecidableEq, Repr

/-- A thread of a cluster sequencer (R78): pc is a slice offset in bytes; lines are the 64-byte lines of its program that it has
fetched (R83), by number. -/
structure Thread where
  prog : Prog := .idle
  pc : Nat := 0
  lines : List (Nat × Bytes) := []
  ag : Tbl W32 := []
  loops : List Loop := []
  grp : Nat := 0
  tag : Tag := {}
  wait : Wait := .none
  ended : Bool := false
  stash : Option (Nat × Nat) := none
  pins : List (Nat × BitVec 16) := []
  widened : Bool := false
  level : Nat := 0
  deriving DecidableEq, Repr

/-- The programs that a cluster's own copy of the row names (R77), as slice offsets in bytes. -/
structure Progs where
  f : Nat := 0
  b : Nat := 0
  u : Nat := 0
  deriving DecidableEq, Repr

/-- A stream header that the gang's leader has broadcast (R147), with what the feeder read: the units' bytes and the first
unit with an uncorrectable error, with its failing address (R162); the units sent so far and, of these, the units that the core which
holds the header has consumed (R145); and whether the core discards the units (R148). -/
structure Header where
  ord : Nat
  fmt : Nat
  n : Nat
  k : Nat
  void : Bool := false
  units : Bytes := []
  bad : Option (Nat × Nat) := none
  avail : Nat := 0
  used : Nat := 0
  skip : Bool := false
  deriving DecidableEq, Repr

/-- An item in the issue FIFO of a core: the word's item, its opcode and operand bits, the value of the address register that it
names at issue, its thread, for an MSTREAM its ordinal (R147), the load stride, emit stride and Rime set that MCFG had named (R150),
whether its wait has been logged (R159), and its result while an earlier item of the core has none (R156). -/
structure CoreItem where
  item : Nat
  op : Nat
  w : Nat
  ag : Nat
  key : Nat
  ord : Nat := 0
  loadStride : Nat := 0
  emitStride : Nat := 0
  rime : Nat := 0
  logged : Bool := false
  result : Option Completion := none
  deriving DecidableEq, Repr

/-- The hidden state of a matrix core (R136, R150): strides and Rime set of MCFG (set 0 until an MCFG names one: log entry 135),
operand store bytes (key lane × 1024 + bank × 512 + byte), accumulators and poison marks (key lane × 64 + a) where an unlisted one
reads as zero, or, with a seed, as a free value (R105), headers received and not matched (for a leader, that of the stream which it
feeds), the items of the issue FIFO, and whether a hold of the core's feeder has been logged (R159). -/
structure MatCore where
  loadStride : Nat := 0
  emitStride : Nat := 0
  rime : Nat := 0
  seed : Nat := 0
  store : Tbl (Option Byte) := []
  acc : Tbl (Option W32) := []
  poison : List Nat := []
  hdrs : List Header := []
  fifo : List CoreItem := []
  heldLog : Bool := false
  deriving DecidableEq, Repr

/-- A stream of a vector context (Table 6-1). -/
structure VStream where
  ptr : Nat := 0
  fmt : Fmt := .fp32
  mode : Nat := 0
  adv : Bool := false
  valid : Bool := false
  deriving DecidableEq, Repr

/-- A vector context (Table 6-1). -/
structure VCtx where
  vl : Nat := 0
  streams : Tbl VStream := []
  rime : Nat := 0
  site : Nat := 0
  epos : Nat := 0
  thresh : Nat := 0
  deriving DecidableEq, Repr

/-- A curve slot (R183): the bytes of a valid table. -/
structure Curve where
  bytes : Bytes := []
  deriving DecidableEq, Repr

/-- Where a request of a copy descriptor stands (R209 to R214): cut and held, issued, with its data returned, or failed. -/
inductive ReqState where
  | held | issued | returned | failed
  deriving DecidableEq, Repr

/-- A request of a copy descriptor whose write is not issued (R209): source and destination addresses, length, the data once
returned, how often it was passed over (R211), the read that carries it as lead channel and number (R212), when that was
issued, and how it failed (R214). -/
structure CopyReq where
  src : Nat
  dst : Nat
  len : Nat
  st : ReqState := .held
  data : Bytes := []
  passed : Nat := 0
  rd : Option (Nat × Nat) := none
  time : W64 := 0
  fail : Completion := {}
  deriving DecidableEq, Repr

/-- A descriptor in a channel of a copy engine (R208): its item, its 32 bytes, the job under whose ownership it is checked
(none: no job), whether it has started, its requests, the bytes written, and its result while an earlier descriptor of the
channel has none. -/
structure CopyDesc where
  item : Nat
  desc : Bytes
  job : Option Nat
  started : Bool := false
  reqs : List CopyReq := []
  wrote : Nat := 0
  result : Option Completion := none
  deriving DecidableEq, Repr

/-- A channel of a copy engine (R208): its descriptors in order, the status of its previous descriptor, the page of its last
issued read (R211), the reads it has issued, and bytes written that make no whole KiB yet. -/
structure Chan where
  queue : List CopyDesc := []
  prev : Option Status := none
  lastPage : Option Nat := none
  reads : Nat := 0
  rest : Nat := 0
  deriving DecidableEq, Repr

/-- A request in the window of a Moraine controller (R220), with the bytes that a read returns: those of the writes that were
accepted before it (R221). -/
structure WinReq where
  addr : Nat
  len : Nat
  write : Option Bytes
  fromEngine : Bool
  time : W64
  data : Bytes := []
  deriving DecidableEq, Repr

/-- An entry of a retirement table (R227): the page (L div 2048) and its state code of Table 7-6. -/
structure RetEntry where
  page : Nat := 0
  state : Nat := 0
  deriving DecidableEq, Repr

/-- What a command of a Moraine engine takes with it as it is accepted (R234, R237): its thread, context and job, the version and step of
the thread's tag, and the number, slot and step of the open build. -/
structure MorCtl where
  key : Nat
  ctx : Nat
  job : Option Nat
  ver : BitVec 16
  step : W32
  num : Nat
  slot : Nat
  bstep : W32
  deriving DecidableEq, Repr

/-- An accepted command that waits in its engine (R237, R393, R416): its item, its operation, its record, and whether its READ_REQs have
gone out. -/
structure MorCmd where
  item : Nat
  op : Nat
  ctl : MorCtl
  rcd : Bytes
  asked : Bool := false
  deriving DecidableEq, Repr

/-- The hidden state of a stack's controller (R220 to R229): window, the requests that wait at its two ports and whether the
Moraine engine's was the last to enter, open rows (key channel × 64 + bank, row + 1),
retirement table, the confirms that wait for accepted requests, corrected errors per page, whether the
table has changed since it was saved, the bytes of the engine's traffic that make no whole KiB yet, and the engine's commands that wait, in
order of acceptance (R237). -/
structure Stack where
  window : List WinReq := []
  waiting : List WinReq := []
  lastEngine : Bool := false
  openRow : Tbl Nat := []
  ret : Tbl RetEntry := []
  confirm : List (Nat × List WinReq) := []
  ces : Tbl Nat := []
  retDirty : Bool := false
  engRest : Nat := 0
  cmds : List MorCmd := []
  deriving DecidableEq, Repr

/-- A VBEGIN that waits (R248). -/
structure BeginWait where
  item : Nat
  key : Nat
  step : W32
  logged : Bool := false
  deriving DecidableEq, Repr

/-- A publication arrival that waits for a slot, with its transfer's XID (R251). -/
structure PubWait where
  pub : SnpPub
  xid : W32
  deriving DecidableEq, Repr

/-- The hidden state of a context's Snowpack (R245 to R262): pins by slot, elements written to the build by stack, the VENDs
and VBEGINs that wait, the window pin (R255), arrivals that wait for a slot (R251), the stacks whose count went past ELEMS
and has been reported, the exception entries of delta slots (key 8 × slot + stack), and the slots of discarded builds with the commands that were accepted for
them and are not complete (R253). -/
structure Snp where
  pins : Tbl Nat := []
  counts : Tbl Nat := []
  vends : List Nat := []
  begins : List BeginWait := []
  windowPin : Option Nat := none
  waits : List PubWait := []
  overAt : List Nat := []
  exc : Tbl Nat := []
  drain : List (Nat × List Nat) := []
  deriving DecidableEq, Repr
/-- A DATA unit in a replay buffer (R303): bits [16:0] of its control word, its payload, and the SEND whose WRITEs it ends (R408). -/
structure HeldUnit where
  ctl : Nat
  payload : Bytes
  tell : Option (Nat × Nat × Nat) := none
  deriving DecidableEq, Repr

/-- A segment placed on a link: virtual channel (8 the bypass channel), half (R296), the payloads of its units, header first,
the number sent, whether its last unit is known, the own transfer that it belongs to, its type, FLAGS.PRIV, and for a
forwarded segment the layer and the counter whose receive units it frees, with the number of its units freed, and whether it is a
forwarded one, which keeps its source's TIMESTAMP (R309 to R313). A message of a Pliand port is one too, with its code as its type; tell is
the SEND whose WRITEs it ends: context, queue and item (R390, R408). -/
structure SegTx where
  vc : Nat
  half : Nat := 0
  units : List Bytes
  pos : Nat := 0
  closed : Bool := true
  xid : Option W32 := none
  typ : Nat
  priv : Bool := false
  src : Option (Nat × Nat) := none
  freed : Nat := 0
  fwd : Bool := false
  tell : Option (Nat × Nat × Nat) := none
  deriving DecidableEq, Repr

/-- A segment in reception: its counter, its header, its body so far, whether it is a duplicate to discard (R318), whether it is
forwarded (R295, R301, R310), and the receive units that it holds (R251, R355, R359). -/
structure SegRx where
  ctr : Nat
  hdr : Bytes
  body : Bytes := []
  drop : Bool := false
  fwd : Bool := false
  held : Nat := 0
  deriving DecidableEq, Repr

/-- The link layer of a link or a Pliand port (R300 to R309): NEXT, ACKED and E, the replay buffer from ACKED on, the NAK that
the next unit carries and whether one is outstanding, the ACK that the latest unit carried; LIMIT, SENT, LIMIT_seen, the last value reported and the units in
use and the units allocated for each of the 17 counters; the partner's allocations; the two rotations and the number of the
next unit; replays without an advance; LCTL payloads to send; segments to send, privileged segments sent with the sequence
number of their last unit (R318), and segments in reception; the session; and the largest width and speed of the retrain
that runs (R316), each as its code. -/
structure LinkLayer where
  next : Nat := 0
  acked : Nat := 0
  e : Nat := 0
  held : List HeldUnit := []
  nakDue : Option Nat := none
  nakOut : Bool := false
  told : Nat := 0
  limit : Tbl Nat := []
  sent : Tbl Nat := []
  seen : Tbl Nat := []
  reported : Tbl Nat := []
  used : Tbl Nat := []
  alloc : Tbl Nat := []
  partner : Tbl Nat := []
  refresh : Nat := 0
  change : Nat := 0
  unitNo : Nat := 0
  replays : Nat := 0
  lctl : List Bytes := []
  txq : List SegTx := []
  priv : List (Nat × SegTx) := []
  rx : List SegRx := []
  session : BitVec 16 := 0
  capWidth : Nat := 2
  capSpeed : Nat := 2
  deriving DecidableEq, Repr

/-- What an own transfer serves, so that its end reaches the owner (R312): a stage slot, an item with the transfer's place in
destination order, a collective's segment to a rank, a mirror block or a MGMT segment of a job, or a failure notice. -/
inductive XferFor where
  | slot (c q : Nat)
  | item (id : Nat)
  | coll (i rank : Nat)
  | mirror (job : Nat)
  | mgmt (job : Nat)
  | notice
  deriving DecidableEq, Repr

/-- An own transfer without its last RECEIPT (R312, R320, R326): body bytes not yet sent, whether it is admitted with its
deadline, the links that hold or held a segment of it, once it is cancelled how it ends where it was not placed (R320, R322), and its
result. -/
structure Xfer where
  xid : W32
  dest : W32
  typ : Nat
  vc : Nat
  port : Nat
  why : XferFor
  total : Nat
  unsent : Nat
  admitted : Bool := false
  deadline : Nat := 0
  links : List Nat := []
  cancelled : Option Completion := none
  ended : Option Completion := none
  deriving DecidableEq, Repr

/-- A transfer in reception (R312): its source, XID, type, header bytes 40 to 239, TOTAL, the bodies that have arrived, the earliest
time with which its reception may be stamped (R21), and the receive units that it holds: layer, counter and number (R251, R355,
R359). -/
structure RxXfer where
  src : W32
  xid : W32
  typ : Nat
  hdr : Bytes
  total : Nat
  got : List (Nat × Bytes) := []
  time : W64 := 0
  hold : List (Nat × Nat × Nat) := []
  deriving DecidableEq, Repr

/-- The fabric's hidden state: the next XID, own transfers in order of submission, segments that wait for a link of a port
(8: no port), transfers in reception, transfers answered with their RECEIPT, the last 64 privileged segments by port (R318), and the exchanges
in a row with a small offset, the ns for which time is held still, the ns that are left to slew, and the ns until the next of
them (R332). -/
structure Fabric where
  nextXid : W32 := 0
  xfers : List Xfer := []
  unplaced : List (Nat × SegTx) := []
  rx : List RxXfer := []
  placed : List (W32 × W32 × Completion) := []
  dups : Tbl (List (W32 × W32)) := []
  good : Nat := 0
  hold : Nat := 0
  slew : Int := 0
  slewWait : Nat := 0
  deriving DecidableEq, Repr

/-- A contribution to a block of the own shard that is held until its turn (R346): the sender's rank, the block, the body,
and for a compressed block α and NONFIN (R351). -/
structure CollBlk where
  rank : Nat
  block : Nat
  body : Bytes
  comp : Bool := false
  alpha : W32 := 0
  nonfin : Bool := false
  deriving DecidableEq, Repr

/-- An open collective (R340 to R353): its identity, the thread, the item and the 64 bytes of its record, its state (Table
11-11: 0 free, 1 waits for pool, 2 runs, 3 digest exchange), the shard sizes, the failure mark sampled at its start, the
window's pages, the blocks of the own shard that are written, contributions held and received, the block limits granted by
and to the other ranks, blocks sent to each rank (RS, AG, A2A, and the second phase of AR), elements written, digests,
failure marks received, RECEIPTs, A2A counts, and a result that is fixed early. -/
structure Coll where
  key : CollKey
  thread : Nat
  item : Nat
  rcd : Bytes
  state : Nat := 0
  shards : List Nat := []
  a2a : List Nat := []
  failed : Bool := false
  start : W64 := 0
  pages : Nat := 0
  written : Nat := 0
  held : List CollBlk := []
  got : List (Nat × Nat × Nat) := []
  gIn : Tbl Nat := []
  gOut : Nat := 0
  sent : Tbl Nat := []
  sentAg : Tbl Nat := []
  elems : Nat := 0
  txd : W64 := 0
  rxd : W64 := 0
  txPeer : Tbl W64 := []
  rxPeer : Tbl W64 := []
  digests : List (Nat × W64) := []
  marks : List Nat := []
  receipts : List (Nat × Completion) := []
  result : Option Completion := none
  deriving DecidableEq, Repr

/-- A collective that has closed (R364): its identity, whether it closed on TIMEOUT, when, and the block limits granted by rank. -/
structure Closed where
  key : CollKey
  timeout : Bool
  time : W64
  gIn : Tbl Nat := []
  deriving DecidableEq, Repr

/-- Who is told that a message or a contribution is placed (R355, R359): an item with the place in its order, a remote
transfer, a combining queue's entry with the number of the queue's rounds (R360), or nobody. -/
inductive Teller where
  | item (id n : Nat)
  | remote (src xid : W32)
  | queue (q entry gen : Nat)
  | nobody
  deriving DecidableEq, Repr

/-- A message that waits for ring space (R355). -/
structure AmWait where
  msg : AmMsg
  teller : Teller
  time : W64 := 0
  logged : Bool := false
  deriving DecidableEq, Repr

/-- A record of an AM ring: ring offset, bytes taken with the unused end before it, the message, and the handler's slice
offset (R355). -/
structure AmRec where
  off : Nat
  size : Nat
  msg : AmMsg
  pc : Nat
  deriving DecidableEq, Repr

/-- The AM ring of a cluster: the next offset, its records in order of placement, and the messages that wait. -/
structure AmRing where
  tail : Nat := 0
  recs : List AmRec := []
  waits : List AmWait := []
  deriving DecidableEq, Repr

/-- An entry of a combining queue with its open round (R359): the sum so far, the contributors of the round in order, the tag of
contributor 0, and whether its delivery waits. -/
structure DqEntry where
  sum : List W32 := []
  by_ : List Nat := []
  tag : Tag := {}
  delivering : Bool := false
  deriving DecidableEq, Repr

/-- A contribution that waits for hold space (R359). -/
structure DqWait where
  msg : DqMsg
  teller : Teller
  deriving DecidableEq, Repr

/-- A combining queue: its entries, held contributions in order of arrival, those that wait, a reset of its reader (R362), and how often
its rounds have been discarded, by which the delivery of a discarded round is known (R360, R362). -/
structure DriftQueue where
  entries : Tbl DqEntry := []
  held : List DqMsg := []
  waits : List DqWait := []
  reset : Bool := false
  gen : Nat := 0
  deriving DecidableEq, Repr

/-- A digest record that waits for its item's completion (R353): the item, the job, and its bytes before the timestamp. -/
structure DigestRec where
  item : Nat
  job : Nat
  head : Bytes
  deriving DecidableEq, Repr

/-- The hidden state of the Drift store: open collectives by entry number, COLLs that wait for an entry, closed collectives,
block limits granted for collectives that are not open here yet (sender, rank, limit), AM rings by cluster, combining queues, digest
records that wait, and the records written by job (R353). -/
structure Drift where
  colls : List (Nat × Coll) := []
  collWait : List Coll := []
  closed : List Closed := []
  early : List (CollKey × W32 × Nat × Nat) := []
  rings : Tbl AmRing := []
  queues : Tbl DriftQueue := []
  dlog : List DigestRec := []
  dlogPos : Tbl Nat := []
  deriving DecidableEq, Repr

/-- A message record that waits to enter a message ring (R412, R413): its bytes with PHASE zero, whether it is an EVENT, and the
queue whose SEND it delivers (R408), and the job of an EVENT (R414). -/
structure MqRec where
  bytes : Bytes
  event : Bool
  slot : Option (Nat × Nat) := none
  job : Option Nat := none
  deriving DecidableEq, Repr

/-- An outstanding READ_REQ (Table 13-2): its tag, for a fetch of submission entries its ring, its first device address, its
bytes, and for a fetch the index of its first entry (R400). -/
structure ReadReq where
  tag : Nat
  ring : Option Nat
  addr : Nat
  n : Nat
  first : Nat := 0
  deriving DecidableEq, Repr

/-- The hidden state of a submission ring and its completion ring (R400 to R411): entries fetched and not started with their
indices (no bytes: a host error on their fetch), whether an entry has completed other than DONE or EMPTY, and completions that
wait for a free slot with their FLAGS.IRQ; early holds the entries of reads that were answered before an earlier one, by tag (R402). -/
structure SqRing where
  fetched : List (Nat × Bytes) := []
  early : List (Nat × List (Nat × Bytes)) := []
  failed : Bool := false
  cqWait : List (Bytes × Bool) := []
  deriving DecidableEq, Repr

/-- A TAB entry that waits for its tablature (R409): item and partition. -/
structure TabWait where
  item : Nat
  part : Nat
  deriving DecidableEq, Repr

/-- An AMSG entry that waits for its payload (R410): item, message, payload address and bytes. -/
structure AmsgWait where
  item : Nat
  msg : AmMsg
  addr : Nat
  len : Nat
  deriving DecidableEq, Repr

/-- The hidden state of a Pliand port: the doorbell words that the adapter has forwarded (each plus 1), rings, outstanding
READ_REQs with the next tag, message records that wait, the time of the last INTERRUPT of a vector plus 1, vectors with writes
since then, and TAB and AMSG entries that wait. -/
structure HostPort where
  words : Tbl Nat := []
  rings : Tbl SqRing := []
  reads : List ReadReq := []
  nextTag : Nat := 0
  recs : List MqRec := []
  irqAt : Tbl Nat := []
  irqMore : List Nat := []
  tabs : List TabWait := []
  amsgs : List AmsgWait := []
  deriving DecidableEq, Repr


/-- The hidden state of a Twiac link (R374, R377, R378, R382): the partner's capability block, whether the last block failed its
CHECK, the largest data length and the number of groups negotiated, the failures in a row by group, the groups excluded, and whether the link has been
isolated and has not rejoined. -/
structure TwiLink where
  partner : Bytes := []
  badBlock : Bool := false
  maxLen : Nat := 4096
  groups : Nat := 16
  fails : Tbl Nat := []
  excluded : Nat := 0
  cut : Bool := false
  deriving DecidableEq, Repr

/-- A configuration epoch attempt in progress (R430 to R432): the offsets that it changes with the values of its snapshot, the
units that have a part in it and have not reported, those that are READY, whether a die was isolated meanwhile (R385), the held
clusters that its prepare phase woke with their state (R459), and whether it is that of a start (R496). -/
structure Attempt where
  snap : List (Nat × W32)
  waiting : List (Nat × Nat)
  ready : List (Nat × Nat) := []
  blocked : Bool := false
  held : List (Nat × Nat) := []
  start : Bool := false
  deriving DecidableEq, Repr

/-- A unit's part in the latest attempt and the low bits of the last epoch that it applied (R433). -/
structure EpochPart where
  state : Nat := 0
  epoch : Nat := 0
  deriving DecidableEq, Repr

/-- The hub's hidden configuration state: the attempt in progress, the units' parts by 65,536 × code + index, the commits of
CFI_COMMIT that wait for its end (R434), the domains that the next sweep learns (R436), the high word that a read of
TIM_NOW_LO latched by opener (R445), and whether a package warm reset is due (R382). -/
structure Hub where
  attempt : Option Attempt := none
  parts : Tbl EpochPart := []
  commits : List (Nat × Bool) := []
  learn : List Nat := []
  latch : List (Nat × W32) := []
  warmDue : Bool := false
  deriving DecidableEq, Repr

/-- A start whose rail sequence has not ended (R502): its kind, whether it is a cold one, what it meets, and the rail whose power-good is
missing. -/
structure PendingStart where
  kind : Nat
  cold : Bool
  env : BootEnv
  rail : Nat
  deriving DecidableEq, Repr

/-- A calibration block in the AON store (R473): the training results, and the SM3 digest made when they were written. -/
structure CalBlock where
  data : Bytes := []
  digest : Bytes := []
  deriving DecidableEq, Repr

/-- The copies of the retirement tables in flash (R229): the slot of the newest copy, 0 for A and 1 for B, and its number. -/
structure RetSave where
  slot : Nat := 1
  ver : Nat := 0
  deriving DecidableEq, Repr

/-- The hidden state of power, clocks and start: dies whose entry into PS3 is in progress, whether the package is in PS4, the
partitions' clusters that a die has lost since it was isolated (partition, die) (R387), dies stopped by a rail fault (R503), the
alert pin as the thermal trip or a rail fault asserts it, whether every controlled rail is held off until a power-on
reset, failed attempts of the rail sequence (R502), the time plus 1 of each throttle step's last change (R379), and the
images in use with their headers (R495) and the device certificate (R493), the sensors that a thermal trip waits for to cool (R469), the
controlled rails whose enable lands are driven, 0 to 10 in the order of Table 17-4 (R501), the start whose rail sequence waits for a
power-good (R502), clusters that enter PS1 or PS2 with the state and whether held (R458), the time plus 1 of the wakes of dies in progress
(R455), fast internal oscillators that are lost (R463), the target before that of a rail that has not settled (R503), the time plus 1 of
each AVSBus write that is not acknowledged (R504), the calibration blocks (R473), whether the package has been reset and waits for its
start (R470), and whether a start has not ended, while which the log takes no record (R444, Table 15-10). -/
structure Power where
  entering : List Nat := []
  standby : Bool := false
  lost : List (Nat × Nat) := []
  railDown : List Nat := []
  alert : Bool := false
  railsOff : Bool := false
  railTries : Nat := 0
  stepAt : Tbl Nat := []
  images : Tbl Bytes := []
  cert : Bytes := []
  hot : List Nat := []
  rails : List Nat := []
  start : Option PendingStart := none
  entries : List (Nat × Nat × Bool) := []
  waking : Tbl Nat := []
  oscOff : List Nat := []
  oldMv : Tbl Nat := []
  avs : Tbl Nat := []
  cal : Tbl CalBlock := []
  down : Bool := false
  starting : Bool := false
  deriving DecidableEq, Repr

/-- A generation under way (R479 to R482): number, step, head digest, the transfers whose RECEIPT is missing, whether COMMIT is
sent, whether the partner is still to confirm it, and the items of the hub copy engine that write it to the host tier (R489). -/
structure Gen where
  gen : Nat
  step : W32
  digest : W64
  xids : List W32 := []
  sent : Bool := false
  needPartner : Bool := false
  tier : List Nat := []
  deriving DecidableEq, Repr

/-- Where a part of a generation lies (Table 16-3): its code, stack and context, its address and bytes, and for an optimiser shard
the kernel and the element count; of a partner's the range that one transfer has brought, from element first on (log entry 86). -/
structure CopyPart where
  part : Nat
  stack : Nat := 0
  ctx : Nat := 0
  first : Nat := 0
  addr : Nat := 0
  size : Nat
  sel : Nat := 0
  count : Nat := 0
  deriving DecidableEq, Repr

/-- A copy of a generation that this device holds in its mirror region: of its own state (src none) or of a partner's, with the
head digest of its own, its parts, and whether it is committed; of a partner's also the head images, by stack and context, that have
come in full, and whether all have (R481, R482). The newest stands first. -/
structure MirrorCopy where
  src : Option W32 := none
  gen : Nat
  step : W32 := 0
  digest : W64 := 0
  parts : List CopyPart := []
  committed : Bool := false
  heads : List (Nat × Nat) := []
  full : Bool := false
  deriving DecidableEq, Repr

/-- A RESTORE that runs (R491): the generation, the number of entries, the entry that runs, the bytes of it that have arrived, and
the first entry that did not complete DONE. -/
structure Restore where
  gen : Nat
  count : Nat
  ix : Nat := 0
  got : Nat := 0
  fail : Option (Status × Nat) := none
  deriving DecidableEq, Repr

/-- The mirroring of a job (R477 to R491): its recovery area and the command seen in it; what CONFIGURE read; the candidate that
HELLO went to and the number of the next; the partner, the partners accepted, the heartbeats missed; the latest generation's
number, the generation under way, the mirror points that contexts have reached and that are not settled (context, step), the
step from which on mirror points are not settled (R483), the copies held, and the RESTORE that runs. -/
structure Mirror where
  area : Nat := 0
  cmd : Nat := 0
  on : Bool := false
  n : Nat := 0
  cont : Bool := false
  tierAlways : Bool := false
  feed : Nat := 0
  ctxs : List Nat := []
  cands : List (W32 × Nat) := []
  tier : Nat := 0
  mbase : Nat := 0
  msize : Nat := 0
  nextCand : Nat := 0
  asking : Option W32 := none
  partner : Option W32 := none
  incoming : List W32 := []
  missed : Nat := 0
  gens : Nat := 0
  cur : Option Gen := none
  made : List (Nat × Nat) := []
  next : Nat := 0
  copies : List MirrorCopy := []
  restore : Option Restore := none
  deriving DecidableEq, Repr

/-- What the block sends, by message: the model's own record of its output (log entry 9). -/
inductive Out where
  /-- A bind request of outbound queue q of context c (R47). -/
  | bindRequest (c q : Nat)
  /-- The answer of inbound queue q of context c: capacity and slot pages (R47). -/
  | bindAnswer (c q capacity pages : Nat)
  /-- Port p's INTERRUPT of vector v (R415). -/
  | interrupt (p v : Nat)
  /-- Port p's READ_REQ: tag, host address, bytes (Table 13-2). -/
  | readReq (p tag addr n : Nat)
  /-- Port p's POLL_CFG: doorbell block address and PERIOD (R396). -/
  | pollCfg (p addr period : Nat)
  /-- Port p's MGMT_RSP: request tag, status and value read (R419). -/
  | mgmtRsp (p tag status : Nat) (value : W32)
  /-- A flow unit on link layer l (R298). -/
  | unit (l : Nat) (u : Bytes)
  /-- An Ethernet frame on link l (R334, R335). -/
  | frame (l : Nat) (f : Bytes)
  /-- A PTP event message of link l with its timestamp, for the Bridge controller (R336). -/
  | ptp (l : Nat) (sent : Bool) (t : W64) (msg : Bytes)
  /-- The message that the Bridge controller sends in two-step mode after message msg of link l: Follow_Up (type 8) after a Sync sent,
  Delay_Resp (type 9) after a Delay_Req received, with its timestamp (R336; log entry 118). -/
  | ptpReply (l typ : Nat) (t : W64) (msg : Bytes)
  /-- A packet that a link end of Twiac link n sends (R371). -/
  | twiac (n : Nat) (hdr data : Bytes)
  /-- The own capability block on Twiac link n (R377). -/
  | capBlock (n : Nat) (b : Bytes)
  /-- A request for the partner's capability block on Twiac link n (R377). -/
  | capRequest (n : Nat)
  /-- The bytes that a read at stack-local address l of stack st returns (R221). -/
  | hbmRead (st l : Nat) (data : Bytes)
  /-- The value that an opener's register read returns (R424, R445). -/
  | regValue (o : Opener) (off : Nat) (value : W32)
  /-- The voltage target that goes to the regulator of core rail d, in mV (R467, R504). -/
  | avsTarget (d mv : Nat)
  /-- The commit that follows it (R504). -/
  | avsCommit (d : Nat)
  /-- The Bridge turns a controlled rail of Table 17-4 on or off (R501). -/
  | rail (r : Nat) (on : Bool)
  /-- The bytes that an I²C transaction returns (R507). -/
  | i2c (b : Bytes)
  /-- An I²C transaction that is not acknowledged (R507). -/
  | i2cNack
  deriving DecidableEq, Repr


/-- The state of the block. The keys of the tables: threads 4 × cluster + thread, queues 4 × context + queue, stash
64 × context + entry, cores 8 × cluster + core, vector contexts 4 × cluster + thread, curve slots 4 × cluster + slot,
channels 8 × engine + channel; parts, snps, stackTab (stacks), ports, mirrors (jobs) by number. flash holds the SPI flash with
every byte complemented, so that an erased byte is not listed. free numbers the next free value; out lists what the
block has sent, oldest first; pending is the queue of commands, first in first out. -/
structure State where
  now : W64 := 0
  regs : RegFile := {}
  mem : Memory := {}
  log : EventLog := {}
  items : Items := {}
  threads : Tbl Thread := []
  progs : Tbl Progs := []
  parts : Tbl Part := []
  clrpend : List Nat := []
  queues : Tbl Queue := []
  stash : Tbl Stash := []
  cores : Tbl MatCore := []
  vctxs : Tbl VCtx := []
  curves : Tbl Curve := []
  chans : Tbl Chan := []
  stackTab : Tbl Stack := []
  retSave : RetSave := {}
  snps : Tbl Snp := []
  layers : Tbl LinkLayer := []
  fab : Fabric := {}
  drift : Drift := {}
  ports : Tbl HostPort := []
  twi : Tbl TwiLink := []
  hub : Hub := {}
  power : Power := {}
  flash : Memory := { undef := [{ first := 0, len := 2 ^ 32, seed := 0 }] }
  mirrors : Tbl Mirror := []
  free : Nat := 0
  out : List Out := []
  pending : List Instr := []
  deriving DecidableEq, Repr

/-- The state right after reset: every register at its reset value, every table empty (so every unlisted thing at its own
reset value), memory with nothing listed, no command waiting. -/
def State.reset : State := {}

end Sys2Proof.Machine
end

