-- ==== Sys2Proof/Machine/Ops.lean ====
section
/-! DEFINITION. The named operations over registers, memory, events and items that every family shares. -/
namespace Sys2Proof.Machine

/-- What a command answers. -/
abbrev Res := Host.Outcome State Fault Refusal

/-- s after f where the condition c holds, and s itself otherwise: a command whose enabling condition does not hold does not
happen (log entry 1). -/
def State.when (s : State) (c : Bool) (f : State → State) : State := if c then f s else s

/-- f over a list, from the first element on. -/
def State.each {α : Type} (s : State) (l : List α) (f : State → α → State) : State := l.foldl f s

/-! ## The parts of the state -/

/-- Replaces now. -/
def State.setNow (s : State) (x : W64) : State := { s with now := x }

/-- Replaces regs. -/
def State.setRegs (s : State) (x : RegFile) : State := { s with regs := x }

/-- Replaces mem. -/
def State.setMem (s : State) (x : Memory) : State := { s with mem := x }

/-- Replaces log. -/
def State.setLog (s : State) (x : EventLog) : State := { s with log := x }

/-- Replaces items. -/
def State.setItems (s : State) (x : Items) : State := { s with items := x }

/-- Replaces threads. -/
def State.setThreads (s : State) (x : Tbl Thread) : State := { s with threads := x }

/-- Replaces progs. -/
def State.setProgs (s : State) (x : Tbl Progs) : State := { s with progs := x }

/-- Replaces parts. -/
def State.setParts (s : State) (x : Tbl Part) : State := { s with parts := x }

/-- Replaces clrpend. -/
def State.setClrpend (s : State) (x : List Nat) : State := { s with clrpend := x }

/-- Replaces queues. -/
def State.setQueues (s : State) (x : Tbl Queue) : State := { s with queues := x }

/-- Replaces stash. -/
def State.setStashes (s : State) (x : Tbl Stash) : State := { s with stash := x }

/-- Replaces cores. -/
def State.setCores (s : State) (x : Tbl MatCore) : State := { s with cores := x }

/-- Replaces vctxs. -/
def State.setVctxs (s : State) (x : Tbl VCtx) : State := { s with vctxs := x }

/-- Replaces curves. -/
def State.setCurves (s : State) (x : Tbl Curve) : State := { s with curves := x }

/-- Replaces chans. -/
def State.setChans (s : State) (x : Tbl Chan) : State := { s with chans := x }

/-- Replaces stackTab. -/
def State.setStackTab (s : State) (x : Tbl Stack) : State := { s with stackTab := x }

/-- Replaces retSave. -/
def State.setRetSave (s : State) (x : RetSave) : State := { s with retSave := x }

/-- Replaces snps. -/
def State.setSnps (s : State) (x : Tbl Snp) : State := { s with snps := x }

/-- Replaces layers. -/
def State.setLayers (s : State) (x : Tbl LinkLayer) : State := { s with layers := x }

/-- Replaces fab. -/
def State.setFab (s : State) (x : Fabric) : State := { s with fab := x }

/-- Replaces drift. -/
def State.setDrift (s : State) (x : Drift) : State := { s with drift := x }

/-- Replaces ports. -/
def State.setPorts (s : State) (x : Tbl HostPort) : State := { s with ports := x }

/-- Replaces twi. -/
def State.setTwis (s : State) (x : Tbl TwiLink) : State := { s with twi := x }

/-- Replaces hub. -/
def State.setHub (s : State) (x : Hub) : State := { s with hub := x }

/-- Replaces power. -/
def State.setPower (s : State) (x : Power) : State := { s with power := x }

/-- Replaces flash. -/
def State.setFlash (s : State) (x : Memory) : State := { s with flash := x }

/-- Replaces mirrors. -/
def State.setMirrors (s : State) (x : Tbl Mirror) : State := { s with mirrors := x }

/-- Replaces free. -/
def State.setFree (s : State) (x : Nat) : State := { s with free := x }

/-- Replaces out. -/
def State.setOut (s : State) (x : List Out) : State := { s with out := x }

/-- Replaces the queue of commands. -/
def State.setPending (s : State) (x : List Sys2Proof.Instr) : State := { s with pending := x }

/-! ## Registers (R424, R427) -/

/-- The value that a register holds for software: the staged one where it is staged. -/
def State.reg (s : State) (off : Nat) : W32 := s.regs.cur.get (BitVec.ofNat 32 (resetAt off)) off

/-- Writes a register. -/
def State.setReg (s : State) (off : Nat) (v : W32) : State :=
  s.setRegs { s.regs with cur := s.regs.cur.put (BitVec.ofNat 32 (resetAt off)) off v }

/-- A field of a register. -/
def State.fld (s : State) (off : Nat) (f : Fld) : Nat := f.of (s.reg off)

/-- Writes a field of a register. -/
def State.setFld (s : State) (off : Nat) (f : Fld) (v : Nat) : State := s.setReg off (f.put (s.reg off) v)

/-- The applied value of a register (R427); a register without staged bits is applied as written. -/
def State.areg (s : State) (off : Nat) : W32 :=
  let st := match regAt off with | some d => d.stg | none => 0
  let a := (s.regs.app.get (BitVec.ofNat 32 (resetAt off)) off).toNat
  let c := (s.reg off).toNat
  BitVec.ofNat 32 ((a &&& st) ||| (c &&& (0xFFFFFFFF ^^^ st)))

/-- Writes the applied value of a register. -/
def State.setApp (s : State) (off : Nat) (v : W32) : State :=
  s.setRegs { s.regs with app := s.regs.app.put (BitVec.ofNat 32 (resetAt off)) off v }

/-- A field of the applied value. -/
def State.afld (s : State) (off : Nat) (f : Fld) : Nat := f.of (s.areg off)

/-- Returns a register to its reset value, applied value included. -/
def State.resetReg (s : State) (off : Nat) : State :=
  (s.setReg off (BitVec.ofNat 32 (resetAt off))).setApp off (BitVec.ofNat 32 (resetAt off))

/-- Adds n to a 32-bit counter, which saturates (R447). -/
def State.bumpBy (s : State) (off n : Nat) : State :=
  s.setReg off (BitVec.ofNat 32 (min 0xFFFFFFFF ((s.reg off).toNat + n)))

/-- Adds 1 to a 32-bit counter, which saturates. -/
def State.bump (s : State) (off : Nat) : State := s.bumpBy off 1

/-- Adds n to a counter field, which saturates at its width. -/
def State.bumpFld (s : State) (off : Nat) (f : Fld) (n : Nat) : State :=
  s.setFld off f (min (2 ^ f.w - 1) (s.fld off f + n))

/-- Raises a maximum register to n. -/
def State.maxReg (s : State) (off n : Nat) : State := if (s.reg off).toNat < n then s.setReg off (BitVec.ofNat 32 n) else s

/-- The 64 bits of a pair of registers, low word first. -/
def State.reg64 (s : State) (lo : Nat) : Nat := (s.reg lo).toNat + (s.reg (lo + 4)).toNat * 2 ^ 32

/-! ## Events (R439) -/

/-- The severity of an event code (Table 14-8). -/
def sevOf (code : Nat) : Nat :=
  if code ∈ [0x0001, 0x0008, 0x0009, 0x0202, 0x0402, 0x0404] then 0
  else if code ∈ [0x0003, 0x0502, 0x0503, 0x0703, 0x0780] then 3
  else if code ∈ [0x0007, 0x0101, 0x0104, 0x0200, 0x0204, 0x0301, 0x0303, 0x0304, 0x0307, 0x0308, 0x0401, 0x0410, 0x0411, 0x0781]
  then 2
  else 1

/-- A unit raises an event: its code, the job it concerns (R440), its unit code and instance, and its arguments. -/
def State.raise (s : State) (code : Nat) (job : Option Nat) (unit index arg0 arg1 : Nat) : State :=
  s.setLog { s.log with raised := s.log.raised ++ [⟨s.now, code, job, unit, index, arg0 % 2 ^ 32, arg1 % 2 ^ 64⟩] }

/-- The domain of the configuration sweep that holds an offset (Table 14-6). -/
def domainOf (off : Nat) : Nat :=
  if off < 0x400000 then 4 else if off < 0x800000 then (off - 0x400000) / 0x100000 else (off - 0x800000) / 0x200000

/-- Domain d becomes stale (R437). -/
def State.setStale (s : State) (d : Nat) : State :=
  let v := s.fld Reg.cfiStatus Fld.cfiStatusStale
  if bit v d then s else s.setFld Reg.cfiStatus Fld.cfiStatusStale (v + 2 ^ d)

/-- Sends a message. -/
def State.send (s : State) (m : Out) : State := s.setOut (s.out ++ [m])

/-- The next free value's number. -/
def State.tick (s : State) : State := s.setFree (s.free + 1)

/-! ## Partitions, clusters and jobs (R35 to R39) -/

/-- Is the partition enabled, as applied? -/
def State.partOn (s : State) (p : Nat) : Bool := s.afld (Reg.stgPartCtrl p) Fld.stgPartCtrlEnable == 1

/-- Does the applied map of partition p hold cluster g (Table 2-15)? The clusters of a die that was isolated lie outside the
partition until its map or control is applied again (R387; log entry 48). -/
def State.mapHas (s : State) (p g : Nat) : Bool :=
  bit (s.areg (Reg.stgPartMap p (g / 32))).toNat (g % 32) && !s.power.lost.contains (p, g / 128)

/-- The clusters of an applied map, in ascending order. -/
def State.partClusters (s : State) (p : Nat) : List Nat :=
  ((upFrom 0 16).filter fun n => !s.power.lost.contains (p, n / 4)).flatMap fun n =>
    onesFrom (32 * n) 32 (s.areg (Reg.stgPartMap p n)).toNat

/-- The enabled partition that holds a cluster (R36). -/
def State.partOf (s : State) (g : Nat) : Option Nat := (upFrom 0 64).find? fun p => s.partOn p && s.mapHas p g

/-- The job of a partition (R37). -/
def State.partJob (s : State) (p : Nat) : Nat := s.afld (Reg.stgPartCtrl p) Fld.stgPartCtrlJob

/-- The job of a cluster: none where no enabled partition holds it. -/
def State.clusterJob (s : State) (g : Nat) : Option Nat := (s.partOf g).map s.partJob

/-- The reset event (R470): kind and target; that of a cluster or of a host port concerns its job (R440). -/
def State.resetEvent (s : State) (kind target : Nat) : State :=
  let job := match kind with
    | 4 => s.clusterJob target
    | 6 => some (s.fld (Reg.plhCfg target) Fld.plhCfgJob)
    | _ => none
  s.raise 0x0702 job 0x0001 0 kind target

/-- The lowest-indexed cluster of a partition, whose copy of a row acts (R77). -/
def State.leadCluster (s : State) (p : Nat) : Nat := (s.partClusters p).headD 0

/-- The hidden state of a partition. -/
def State.part (s : State) (p : Nat) : Part := s.parts.get {} p

/-- Replaces it. -/
def State.setPart (s : State) (p : Nat) (x : Part) : State := s.setParts (s.parts.put {} p x)

/-- The state of a stage context (Table 2-2). -/
def State.ctxState (s : State) (c : Nat) : Nat := s.fld (Reg.stgCtxStatus c) Fld.stgCtxStatusState

/-- Writes it. -/
def State.setCtxState (s : State) (c v : Nat) : State := s.setFld (Reg.stgCtxStatus c) Fld.stgCtxStatusState v

/-- The hidden state of queue q of context c. -/
def State.queue (s : State) (c q : Nat) : Queue := s.queues.get {} (4 * c + q)

/-- Replaces it. -/
def State.setQueue (s : State) (c q : Nat) (x : Queue) : State := s.setQueues (s.queues.put {} (4 * c + q) x)

/-- The thread with key 4 × cluster + thread. -/
def State.thread (s : State) (k : Nat) : Thread := s.threads.get {} k

/-- Replaces it. -/
def State.setThread (s : State) (k : Nat) (x : Thread) : State := s.setThreads (s.threads.put {} k x)

/-- The number of a thread (Table 3-1). -/
def thrNat : Thr → Nat
  | .F => 0 | .B => 1 | .U => 2 | .H => 3

/-- The key of a thread. -/
def threadKey (g : Nat) (t : Thr) : Nat := 4 * g + thrNat t

/-- Ends the TAB entries that wait for the tablature of partition p: STOP completes DONE in STOPPED, DONE or FAULT, with INFO
the status register (R409); the reset of the partition aborts them (R33). -/
def State.endTabs (s : State) (p v : Nat) : State :=
  let info := (s.reg (Reg.stgTabStatus p)).toNat
  let ids := s.ports.flatMap fun x => (x.2.tabs.filter fun w => w.part == p).map TabWait.item
  let c : Completion := if v = 0 then { status := .aborted, detail := 3 } else {}
  let up : Item → Item := fun i => if ids.contains i.id && i.comp == none then { i with comp := some c, info := info } else i
  let drop : Nat × HostPort → Nat × HostPort := fun x => (x.1, { x.2 with tabs := x.2.tabs.filter fun w => w.part != p })
  if v = 1 ∨ ids = [] then s
  else (s.setItems { s.items with live := s.items.live.map up }).setPorts (s.ports.map drop)

/-- The state of a tablature changes (Table 3-12). -/
def State.setTab (s : State) (p v : Nat) : State := (s.setFld (Reg.stgTabStatus p) Fld.stgTabStatusState v).endTabs p v

/-- The state of a tablature. -/
def State.tab (s : State) (p : Nat) : Nat := s.fld (Reg.stgTabStatus p) Fld.stgTabStatusState

/-- The job under which a thread's addresses are checked: the guest job for a fill program (R103). -/
def State.threadJob (s : State) (k : Nat) : Option Nat :=
  match s.partOf (k / 4) with
  | none => none
  | some p => if (s.thread k).prog = .fill then some (s.fld (Reg.stgTabFill p) Fld.stgTabFillJob) else some (s.partJob p)

/-! ## Addresses (R14 to R17, R218, R418) -/

/-- Base of the Firn global window. -/
def firnBase : Nat := 0x10000000000
/-- Bytes of a Firn slice. -/
def sliceSize : Nat := 0x400000
/-- The device address of byte b of the slice of cluster g (R15). -/
def firnAddr (g b : Nat) : Nat := firnBase + g * sliceSize + b
/-- Base of the register window. -/
def regBase : Nat := 0x20000000000
/-- Base of host window n. -/
def hostBase (n : Nat) : Nat := 0x100000000000 + n * 0x100000000000

/-- A region of Table 1-5. -/
inductive Region where
  | hbm | firn | regs
  | host (n : Nat)
  deriving DecidableEq, Repr

/-- The region that holds an address; none where it is unmapped. -/
def regionOf (a : Nat) : Option Region :=
  if a < 0x10000000000 then some .hbm
  else if a < firnBase + 0x80000000 then some .firn
  else if regBase ≤ a ∧ a < regBase + 0x4000000 then some .regs
  else if 0x100000000000 ≤ a ∧ a < 0x500000000000 then some (.host (a / 0x100000000000 - 1))
  else none

/-- Is window w stack-local, as applied (R218)? -/
def State.winLocal (s : State) (w : Nat) : Bool := bit (s.areg (Reg.morHmap 0)).toNat w

/-- The stack and the stack-local address of an HBM address (Table 7-4). -/
def State.hbmMap (s : State) (a : Nat) : Nat × Nat :=
  let w := a / 2 ^ 37
  if s.winLocal w then (bits a 34 3, w * 2 ^ 34 + a % 2 ^ 34) else (bits a 12 3, a / 2 ^ 15 * 2 ^ 12 + a % 2 ^ 12)

/-- The HBM address of stack-local address l of a stack (Table 7-4). -/
def State.hbmAddr (s : State) (st l : Nat) : Nat :=
  let w := l / 2 ^ 34
  if s.winLocal w then w * 2 ^ 37 + st * 2 ^ 34 + l % 2 ^ 34 else l / 2 ^ 12 * 2 ^ 15 + st * 2 ^ 12 + l % 2 ^ 12

/-- The lent window of a partition as slice offsets, first and end; none where SIZE is 0 (R104). -/
def State.lent (s : State) (p : Nat) : Option (Nat × Nat) :=
  let n := s.fld (Reg.stgTabFillWin p) Fld.stgTabFillWinSize
  let a := s.fld (Reg.stgTabFillWin p) Fld.stgTabFillWinStart * 0x10000
  if n = 0 then none else some (a, min sliceSize (a + n * 0x10000))

/-- The owner of one address (Table 13-10). -/
def State.owner (s : State) (a : Nat) : Option Nat :=
  match regionOf a with
  | some .hbm =>
    let v := bits (s.reg (Reg.plhTenHbm (a / 2 ^ 33))).toNat (4 * (a / 2 ^ 30 % 8)) 4
    if bit v 2 then some (v % 4) else none
  | some .firn =>
    let g := (a - firnBase) / sliceSize
    match s.partOf g with
    | none => none
    | some p =>
      let o := (a - firnBase) % sliceSize
      match s.lent p with
      | some (x, y) => if x ≤ o ∧ o < y then some (s.fld (Reg.stgTabFill p) Fld.stgTabFillJob) else some (s.partJob p)
      | none => some (s.partJob p)
  | some (.host n) =>
    if 2 ≤ s.fld (Reg.plhStatus n) Fld.plhStatusState then some (s.fld (Reg.plhCfg n) Fld.plhCfgJob) else none
  | _ => none

/-- The address after a at which region or ownership may next change. -/
def nextEdge (a : Nat) : Nat :=
  match regionOf a with
  | some .hbm => (a / 2 ^ 30 + 1) * 2 ^ 30
  | some .firn => (a / 0x10000 + 1) * 0x10000
  | some .regs => regBase + 0x4000000
  | some (.host n) => hostBase (n + 1)
  | none => (a / 0x10000 + 1) * 0x10000

/-- The lowest faulting address of the range from a to below e, for a job, in the region of its first byte (R17). -/
def State.faultGo (s : State) (ok : Nat → Bool) (r : Option Region) (e : Nat) : Nat → Nat → Option Nat
  | 0, _ => none
  | n + 1, a =>
    if e ≤ a then none
    else if r ≠ none ∧ regionOf a = r ∧ ok a then State.faultGo s ok r e n (nextEdge a)
    else some a

/-- The lowest faulting address of n bytes at a for a job (R17); an empty range has none. -/
def State.rangeFault (s : State) (job : Option Nat) (a n : Nat) : Option Nat :=
  s.faultGo (fun x => job ≠ none ∧ s.owner x = job) (regionOf a) (a + n) (n / 0x10000 + 2) a

/-- ADDRESS_FAULT with the detail of R17. -/
def addressFault (a : Nat) : Completion := { status := .addressFault, detail := a % 0x10000 }

/-- What reading n bytes of a structure at slice offset o of thread k's cluster meets: they lie beyond the slice (R517), or thread k's
job does not own them (R17, R103, R104). -/
def State.recordFault (s : State) (k o n : Nat) : Option Completion :=
  if sliceSize < o + n then some { status := .addressFault }
  else (s.rangeFault (s.threadJob k) (firnAddr (k / 4) o) n).map addressFault

/-- MALFORMED with a detail. -/
def malformed (d : Nat) : Completion := { status := .malformed, detail := d }

/-- DATA_ERROR with the detail of R201 and a done count. -/
def dataError (a n : Nat) : Completion := { status := .dataError, detail := a % 65536 / 64, count := n }

/-! ## Memory (R194 to R202, R226, R227, R514) -/

/-- The n bytes from address a on, of cells none of which lies below a. -/
def cellBytes : Nat → Nat → List Host.Cell → Bytes
  | 0, _, _ => []
  | n + 1, a, [] => 0 :: cellBytes n (a + 1) []
  | n + 1, a, (k, b) :: r => if k = a then b :: cellBytes n (a + 1) r else 0 :: cellBytes n (a + 1) ((k, b) :: r)

/-- The cells of a byte string at a: no cell is zero. -/
def newCells : Nat → Bytes → List Host.Cell
  | _, [] => []
  | a, b :: r => if b = 0 then newCells (a + 1) r else (a, b) :: newCells (a + 1) r

/-- Cells with the bytes bs put at a. -/
def putCells (l : List Host.Cell) (a : Nat) (bs : Bytes) : List Host.Cell :=
  l.takeWhile (fun c => c.1 < a) ++ newCells a bs ++ l.dropWhile (fun c => c.1 < a + bs.length)

/-- Does an undefined range cover an address? -/
def Undef.covers (u : Undef) (a : Nat) : Bool :=
  decide (u.first ≤ a ∧ a < u.first + u.len) && (match u.lane with | some st => bits a 12 3 == st | none => true)

/-- The undefined range that covers an address. -/
def undefAt (l : List Undef) (a : Nat) : Option Undef := l.find? fun u => u.covers a

/-- The undefined ranges without n bytes at a. -/
def punch (l : List Undef) (a n : Nat) : List Undef :=
  l.flatMap fun u =>
    if u.first + u.len ≤ a ∨ a + n ≤ u.first then [u]
    else (if u.first < a then [{ u with len := a - u.first }] else []) ++
      (if a + n < u.first + u.len then [{ u with first := a + n, len := u.first + u.len - (a + n) }] else [])

/-- Memory with an undefined range. -/
def Memory.unset (m : Memory) (u : Undef) : Memory := { m with cells := m.cells.filter fun c => !u.covers c.1, undef := m.undef ++ [u] }

/-- n bytes of memory at a, without regard to errors. An unlisted byte reads as zero (log entry 6); a byte with undefined
content is a free value. -/
def Memory.bytes (m : Memory) (a n : Nat) : Bytes :=
  let raw := cellBytes n a (m.cells.dropWhile fun c => c.1 < a)
  if m.undef = [] then raw
  else (upFrom a n).zipWith (fun x b => match undefAt m.undef x with | some u => Config.freeByte u.seed x | none => b) raw

/-- One byte of memory. -/
def Memory.byte (m : Memory) (a : Nat) : Byte := (m.bytes a 1).headD 0

/-- Memory with bytes put at a. -/
def Memory.put (m : Memory) (a : Nat) (bs : Bytes) : Memory :=
  { m with cells := putCells m.cells a bs, undef := punch m.undef a bs.length }

/-- Memory with n bytes at a undefined. -/
def Memory.smear (m : Memory) (a n seed : Nat) : Memory :=
  { m with cells := m.cells.filter fun c => !(a ≤ c.1 && c.1 < a + n)
           undef := punch m.undef a n ++ [{ first := a, len := n, seed := seed }] }

/-- The canonical form: rising addresses, no cell zero. -/
def cellsWf : Nat → List Host.Cell → Bool
  | _, [] => true
  | n, (a, b) :: r => decide (n ≤ a) && b != 0 && cellsWf (a + 1) r

/-- The canonical form of memory. -/
def Memory.wf (m : Memory) : Bool := cellsWf 0 m.cells

/-- The size of the unit that an error makes unreadable at a: a granule of Firn (R200), a burst of HBM (R226); a host error is
marked at the first byte of its read. -/
def errUnit (a : Nat) : Nat := if 2 ^ 44 ≤ a then 1 else if firnBase ≤ a then 32 else 64

/-- The hidden state of a stack. -/
def State.stack (s : State) (n : Nat) : Stack := s.stackTab.get {} n

/-- Replaces it. -/
def State.setStack (s : State) (n : Nat) (x : Stack) : State := s.setStackTab (s.stackTab.put {} n x)

/-- Bytes as a request leaves them that has been accepted and not served: a write's own bytes stand at their places (R221). -/
def WinReq.lay (hbm : Nat → Nat) (a : Nat) (bs : Bytes) (r : WinReq) : Bytes :=
  match r.write with
  | none => bs
  | some w =>
    let l := (upFrom 0 w.length).zip w
    (upFrom a bs.length).zipWith (fun x b => match l.find? (fun c => hbm (r.addr + c.1) == x) with | some c => c.2 | none => b) bs

/-- n bytes of memory at a, without regard to errors: those that the writes accepted before have left or will leave (R221). -/
def State.bytes (s : State) (a n : Nat) : Bytes :=
  let raw := s.mem.bytes a n
  if 2 ^ 40 ≤ a ∨ s.stackTab = [] then raw
  else (upFrom 0 8).foldl (fun bs st =>
    let x := s.stack st
    x.window.foldl (WinReq.lay (s.hbmAddr st) a) bs) raw

/-- The retired pages as device addresses of their 2 KiB (Table 7-6). -/
def State.retiredPages (s : State) : List Nat :=
  (upFrom 0 8).flatMap fun st => ((s.stack st).ret.filter fun e => e.2.state == 2).map fun e => s.hbmAddr st (e.2.page * 2048)

/-! ## Dies that are isolated (R382, R384) -/

/-- The hidden state of Twiac link n. -/
def State.twiLink (s : State) (n : Nat) : TwiLink := s.twi.get {} n

/-- Replaces it. -/
def State.setTwi (s : State) (n : Nat) (x : TwiLink) : State := s.setTwis (s.twi.put {} n x)

/-- Is Cirque die d isolated: with it all its links, its H-link among them, are cut (R382)? -/
def State.dieCut (s : State) (d : Nat) : Bool := (s.twiLink (14 + d)).cut

/-- Is stack st isolated: its M-link is cut? -/
def State.stackCut (s : State) (st : Nat) : Bool := (s.twiLink st).cut

/-- Does byte a lie behind an isolated die? -/
def State.cutByte (s : State) (a : Nat) : Bool :=
  match regionOf a with
  | some .hbm => s.stackCut (s.hbmMap a).1
  | some .firn => s.dieCut ((a - firnBase) / sliceSize / 128)
  | _ => false

/-- The first byte of n bytes at a that lies behind an isolated die, looked for 4 KiB by 4 KiB. -/
def State.cutIn (s : State) (a n : Nat) : Option Nat :=
  if s.twi = [] ∨ n = 0 then none
  else ((upFrom 0 (n / 4096 + 2)).map fun i => if i = 0 then a else a / 4096 * 4096 + 4096 * i).find? fun x =>
    decide (x < a + n) && s.cutByte x

/-- Is [x, x + m) met by [a, a + n)? An empty range meets nothing. -/
def overlaps (a n x m : Nat) : Bool := decide (0 < n ∧ a < x + m ∧ x < a + n)

/-- The lower of two optional numbers. -/
def optMin : Option Nat → Option Nat → Option Nat
  | none, b => b
  | a, none => a
  | some a, some b => some (min a b)

/-- The first byte of n bytes at a that cannot be read: it lies in a granule or burst with an uncorrectable error, or in a
retired page (R200, R226, Table 7-6), or behind an isolated die (Table 12-5). -/
def State.badByte (s : State) (a n : Nat) : Option Nat :=
  let e := s.mem.ue.foldl (fun r m =>
    let u := m / errUnit m * errUnit m
    if overlaps a n u (errUnit m) then optMin r (some (max a u)) else r) (s.cutIn a n)
  s.retiredPages.foldl (fun r p => if overlaps a n p 2048 then optMin r (some (max a p)) else r) e

/-- Enters a page of a stack in the retirement table (R227); the events concern the job that owns its grain (R440). -/
def State.retirePage (s : State) (st page state : Nat) : State :=
  let x := s.stack st
  let addr := s.hbmAddr st (page * 2048)
  let job := s.owner addr
  match x.ret.find? (fun e => e.2.page == page && e.2.state != 0) with
  | some (i, e) =>
    if e.state = 1 ∧ state = 2 then
      (s.setStack st { x with ret := x.ret.put {} i { e with state := 2 }, retDirty := true }).raise 0x0303 job 0x0200 st st addr
    else s
  | none =>
    match (upFrom 0 512).find? (fun i => (x.ret.get {} i).state == 0) with
    | none => (s.setFld (Reg.morRetStatus st) Fld.morRetStatusFull 1).raise 0x0304 none 0x0200 st st 0
    | some i =>
      (s.setStack st { x with ret := x.ret.put {} i ⟨page, state⟩, retDirty := true }).raise
        (if state = 1 then 0x0302 else 0x0303) job 0x0200 st st addr

/-- Counts an uncorrectable error that a read met at byte a, and records its offset in a slice (R200, R226, R227; log entry 141). -/
def State.chargeUe (s : State) (a : Nat) : State :=
  if s.cutByte a then s else
  match regionOf a with
  | some .firn =>
    let g := (a - firnBase) / sliceSize
    ((s.bump (Reg.cirFpUe g)).setFld (Reg.cirFpErraddr g) Fld.cirFpErraddrOff ((a - firnBase) % sliceSize)).setFld
      (Reg.cirFpErraddr g) Fld.cirFpErraddrValid 1
  | some .hbm =>
    if s.retiredPages.any (fun p => p ≤ a && a < p + 2048) then s
    else
      let (st, l) := s.hbmMap a
      (s.bump (Reg.morEccUe st)).retirePage st (l / 2048) 2
  | _ => s

/-- The granules and bursts with an uncorrectable error that n bytes at a meet, each once. -/
def State.badUnits (s : State) (a n : Nat) : List Nat :=
  (s.mem.ue.foldl (fun l m => let u := m / errUnit m * errUnit m; if l.contains u then l else l ++ [u]) []).filter fun u =>
    overlaps a n u (errUnit u)

/-- Counts a corrected error in the burst at stack-local address l: the CE_LIMIT-th of a page makes it RETIRING (R227). -/
def State.chargeCe (s : State) (st l : Nat) : State :=
  let s := s.bump (Reg.morEccCe st)
  let x := s.stack st
  let n := x.ces.get 0 (l / 2048) + 1
  let s := s.setStack st { x with ces := x.ces.put 0 (l / 2048) n }
  if n = max 1 (s.fld (Reg.morRetCfg st) Fld.morRetCfgCeLimit) then s.retirePage st (l / 2048) 1 else s

/-- The row key of a stack-local address: channel × 64 + bank, and its row (Table 7-5). -/
def rowOfL (l : Nat) : Nat × Nat := (bits l 11 4 * 64 + bits l 15 6, bits l 21 16)

/-- Is the page of l open? -/
def Stack.hit (x : Stack) (l : Nat) : Bool := x.openRow.get 0 (rowOfL l).1 == (rowOfL l).2 + 1

/-- An access to the page of stack-local address l: a hit or an activation (R222). -/
def State.openPage (s : State) (st l : Nat) : State :=
  let x := s.stack st
  let k := rowOfL l
  if x.hit l then s.bump (Reg.morHit st)
  else (s.setStack st { x with openRow := x.openRow.put 0 k.1 (k.2 + 1) }).bump (Reg.morAct st)

/-- The accesses of n bytes at a to the pages that hold them (R222); memory but HBM has none. -/
def State.openPages (s : State) (a n : Nat) : State :=
  if regionOf a ≠ some .hbm ∨ n = 0 then s
  else s.each (upFrom (a / 2048) ((a + n - 1) / 2048 + 1 - a / 2048)) fun s i =>
    let m := s.hbmMap (2048 * i)
    s.openPage m.1 m.2

/-- The size of the word whose full write clears an error (R514). -/
def errWord (a : Nat) : Nat := if 2 ^ 44 ≤ a then 1 else if firnBase ≤ a then 8 else 64

/-- A read corrects the error in the word or burst at m, and counts it (R200, R226). -/
def State.chargeFixed (s : State) (m : Nat) : State :=
  match regionOf m with
  | some .firn => s.bump (Reg.cirFpCe ((m - firnBase) / sliceSize))
  | _ => s.chargeCe (s.hbmMap m).1 (s.hbmMap m).2

/-- The words and bursts that hold an error which reads correct and that p picks; a retired page is not read (Table 7-6). -/
def State.fixable (s : State) (p : Nat → Bool) : List Nat :=
  s.mem.ce.filter fun m => p m && !s.retiredPages.any fun r => decide (r ≤ m ∧ m < r + 2048)

/-- A read of n bytes at a counts every granule or burst with an uncorrectable error and every word or burst with a corrected one (R200,
R226; log entry 19). -/
def State.chargeErrors (s : State) (a n : Nat) : State :=
  (s.each (s.badUnits a n) fun s u => s.chargeUe u).each (s.fixable fun m => overlaps a n m (errWord m)) fun s m => s.chargeFixed m

/-- A read of n bytes at a: it opens the pages that hold them (R222), and counts the errors that it meets. -/
def State.chargeRange (s : State) (a n : Nat) : State := (s.openPages a n).chargeErrors a n

/-- Writes the bytes of a list of (address, byte) pairs one by one. -/
def Memory.putEach (m : Memory) : List (Nat × Byte) → Memory
  | [] => m
  | (a, b) :: r => (m.put a [b]).putEach r

/-- A pending write with its byte at each address of l replaced: what a later request has written there stands (R221). -/
def WinReq.under (hbm : Nat → Nat) (l : List (Nat × Byte)) (r : WinReq) : WinReq :=
  let f : Nat → Byte → Byte := fun i b => match l.find? (fun c => c.1 == hbm (r.addr + i)) with | some c => c.2 | none => b
  { r with write := r.write.map fun w => (upFrom 0 w.length).zipWith f w }

/-- The writes that controllers have accepted and not served keep the bytes that a later write has put (R221). -/
def State.passWrites (s : State) (l : List (Nat × Byte)) : State :=
  s.each (upFrom 0 8) fun s st =>
    let x := s.stack st
    let f := WinReq.under (s.hbmAddr st) l
    s.when (x.window.any fun r => r.write.isSome) fun s =>
      s.setStack st { x with window := x.window.map f, confirm := x.confirm.map fun c => (c.1, c.2.map f) }

/-- Writes bytes at a, those whose address p picks: a full write clears the error of a word or burst, a partial one onto an
uncorrectable error is discarded and counted, and retires an HBM page (R227, R514), one onto an error that its read corrects counts that
(R226); bytes of a retired page or behind an isolated die are discarded (Tables 7-6, 12-5). Writes that a controller has accepted
and not served are later, and stay. -/
def State.storeServed (s : State) (a : Nat) (bs : Bytes) (p : Nat → Bool) : State :=
  let l := ((upFrom a bs.length).zip bs).filter fun c => p c.1
  let ret := s.retiredPages.filter fun x => l.any fun c => x ≤ c.1 && c.1 < x + 2048
  let off : Nat → Bool := fun x => (ret.any fun r => r ≤ x && x < r + 2048) || s.cutByte x
  let met : Nat → Bool := fun m => !off m && l.any fun c => m ≤ c.1 && c.1 < m + errWord m
  let full : Nat → Bool := fun m => met m && (upFrom m (errWord m)).all fun x => a ≤ x && x < a + bs.length && p x
  let part := s.mem.ue.filter fun m => met m && !full m
  let fixed := s.fixable fun m => met m && !full m
  let ok := l.filter fun c => !off c.1 && !(part.any fun m => m ≤ c.1 && c.1 < m + errWord m)
  let m := { s.mem with ue := s.mem.ue.filter fun m => !full m, ce := s.mem.ce.filter fun m => !met m }
  let s := (s.setMem (m.putEach ok)).openPages a bs.length
  let s := (s.each part fun s m => s.chargeUe m).each fixed fun s m => s.chargeFixed m
  s.each ret fun s p => s.bump (Reg.morRetDrops (s.hbmMap p).1)

/-- Writes bytes at a, those whose address p picks, after every write that a controller has accepted (R221). -/
def State.storeSome (s : State) (a : Nat) (bs : Bytes) (p : Nat → Bool) : State :=
  (s.storeServed a bs p).passWrites (((upFrom a bs.length).zip bs).filter fun c => p c.1)

/-- Does a write of n bytes at a meet nothing but plain memory: no error, no retired page, no isolated die, no accepted write? -/
def State.plainWrite (s : State) (a n : Nat) : Bool :=
  !(s.mem.ue.any fun m => overlaps a n m (errWord m)) && !(s.mem.ce.any fun m => overlaps a n m 64) &&
    !(s.retiredPages.any fun p => overlaps a n p 2048) && (s.cutIn a n).isNone &&
    (upFrom 0 8).all fun st => (s.stack st).window.isEmpty

/-- Bytes at a become bs (R514). -/
def State.storeMem (s : State) (a : Nat) (bs : Bytes) : State :=
  if s.plainWrite a bs.length then (s.setMem (s.mem.put a bs)).openPages a bs.length
  else s.storeSome a bs fun _ => true

/-! ## Messages of the host ports (R390, R392) -/

/-- The hidden state of a link layer. -/
def State.layer (s : State) (l : Nat) : LinkLayer := s.layers.get {} l

/-- Replaces it. -/
def State.setLayer (s : State) (l : Nat) (x : LinkLayer) : State := s.setLayers (s.layers.put {} l x)

/-- Cuts bytes into pieces of n, k pieces at most. -/
def cutEvery (n : Nat) : Nat → Bytes → List Bytes
  | 0, _ => []
  | _ + 1, [] => []
  | k + 1, b :: r => ((b :: r).take n) :: cutEvery n k ((b :: r).drop n)

/-- A message of port p waits for its link layer on virtual channel vc: its code, then its fields (Table 13-2; log entry 142). -/
def State.portMsg (s : State) (p vc code : Nat) (body : Bytes) : State :=
  let b := leBytes 1 code ++ body
  let g : SegTx := { vc := vc, units := cutEvery 240 (b.length / 240 + 1) b, typ := code, fwd := true }
  s.setLayer (32 + p) { s.layer (32 + p) with txq := (s.layer (32 + p)).txq ++ [g] }

/-- The WRITEs of bytes at address a of the window of port p, 4,096 bytes at most each, k of them at most. -/
def State.portWrites (p : Nat) : Nat → Nat → Bytes → State → State
  | 0, _, _, s => s
  | k + 1, a, b, s =>
    if b = [] then s
    else
      let c := b.take 4096
      State.portWrites p k (a + 4096) (b.drop 4096) (s.portMsg p 0 4 (leBytes 6 (a - hostBase p) ++ leBytes 2 c.length ++ c))

/-- Bytes written at a in the window of a port that is UP or in GRACE leave by it as WRITEs. -/
def State.hostOut (s : State) (a : Nat) (bs : Bytes) : State :=
  match regionOf a with
  | some (.host p) =>
    s.when (decide (2 ≤ s.fld (Reg.plhStatus p) Fld.plhStatusState)) fun s => State.portWrites p (bs.length / 4096 + 1) a bs s
  | _ => s

/-- Writes bytes at a (R393, R514): in a host window they leave as WRITEs, and stand in the host's memory as the device sees it. -/
def State.store (s : State) (a : Nat) (bs : Bytes) : State := (s.storeMem a bs).hostOut a bs

/-- Makes n bytes at a undefined: they are free values from now on. -/
def State.smear (s : State) (a n : Nat) : State := (s.setMem (s.mem.smear a n s.free)).setFree (s.free + 1)

/-- Marks the error word at a as holding an uncorrectable error. -/
def State.markUe (s : State) (a : Nat) : State :=
  if s.mem.ue.contains a then s else s.setMem { s.mem with ue := s.mem.ue ++ [a] }

/-! ## Items and completions (R18, R24 to R29, R33, R81) -/

/-- The owner of an item that a thread issues now. -/
def State.ownerOf (s : State) (k : Nat) : Owner := .thread k (s.thread k).grp

/-- Accepts an item and gives it the next number. -/
def State.accept (s : State) (it : Item) : State :=
  s.setItems { s.items with next := s.items.next + 1, live := s.items.live ++ [{ it with id := s.items.next, time := s.now }] }

/-- The number that the next accepted item takes. -/
def State.nextId (s : State) : Nat := s.items.next

/-- Changes the live item numbered id. -/
def State.modItem (s : State) (id : Nat) (f : Item → Item) : State :=
  s.setItems { s.items with live := s.items.live.map fun i => if i.id = id then f i else i }

/-- The effects of item id are complete, with result c. -/
def State.finish (s : State) (id : Nat) (c : Completion) : State :=
  s.modItem id fun i => if i.comp = none then { i with comp := some c, since := s.now } else i

/-- The live item numbered id. -/
def State.item (s : State) (id : Nat) : Option Item := s.items.live.find? fun i => i.id == id

/-- The later of two times. -/
def laterOf (a b : W64) : W64 := if a < b then b else a

/-- The timestamp of a completion: the global time, at least that of the item's reception (R21) and of the unit's latest completion
since the power-on reset, from which time counts anew (R20, R22). -/
def State.stampOf (s : State) (it : Item) : W64 :=
  ((s.items.log.drop s.items.past).filter fun r => r.item.unit == it.unit && r.item.index == it.index).foldl (fun t r => laterOf t r.time)
    (laterOf s.now it.since)

/-- Runs f with its stamps at t or later (R21). -/
def State.stamped (s : State) (t : W64) (f : State → State) : State :=
  if s.now < t then (f (s.setNow t)).setNow s.now else f s

/-- The unit of an item shows the status of its latest completion: a vector engine (Table 6-14), a Moraine engine (Table 8-11). -/
def State.showLast (s : State) (it : Item) (c : Completion) : State :=
  match it.unit with
  | 0x0101 => s.setFld (Reg.cirVeStatus it.index) Fld.cirVeStatusLast (statusCode c.status)
  | 0x0201 => s.setFld (Reg.morEngStatus it.index) Fld.morEngStatusLast (statusCode c.status)
  | _ => s

/-- Reports a completion: the item is no longer live and its completion is stamped with the global time (R18), and its unit shows the
status. -/
def State.report (s : State) (it : Item) (c : Completion) : State :=
  (s.setItems { s.items with live := s.items.live.filter (fun i => i.id != it.id),
                             log := s.items.log ++ [⟨it, c, s.stampOf it⟩] }).showLast it c

/-- Accepts an item of thread k whose effects are complete at once. -/
def State.acceptDone (s : State) (unit index chan k : Nat) (c : Completion) : State :=
  s.accept { id := 0, unit, index, chan, owner := s.ownerOf k, tag := (s.thread k).tag, comp := some c }

/-- A word of the sequencer itself completes as it issues: nothing of it lies outside the sequencer. -/
def State.reportWord (s : State) (k : Nat) (c : Completion) : State :=
  let it : Item := { id := s.items.next, unit := 0x0104, index := k / 4, chan := k % 4, owner := s.ownerOf k,
                     tag := (s.thread k).tag, comp := some c }
  s.setItems { s.items with next := s.items.next + 1, log := s.items.log ++ [⟨it, c, s.stampOf it⟩] }

/-- The result of an item whose parts have the results l: that of the lowest part that is not DONE (R150; for an AMSEND log entry
112). -/
def joinParts (l : List PartResult) : Completion :=
  let o := (upFrom 0 512).filterMap fun n => (l.find? fun r => r.n == n).map PartResult.comp
  match o.find? fun c => c.status != .done with
  | some c => c
  | none => o.headD {}

/-- Part n of item id is complete with c; the item is complete once all its parts are. -/
def State.partDone (s : State) (id n : Nat) (c : Completion) : State :=
  let all := s.items.results ++ [⟨id, n, c⟩]
  let l := all.filter fun r => r.item == id
  let m := match s.item id with | some i => i.parts | none => 0
  if l.length = m then
    (s.setItems { s.items with results := all.filter fun r => r.item != id }).finish id (joinParts l)
  else s.setItems { s.items with results := all }

/-- Items of a unit that are live. -/
def State.unitItems (s : State) (unit index : Nat) : List Item :=
  s.items.live.filter fun i => i.unit == unit && i.index == index

/-- How many parts of an item, from part n on, are complete with DONE one after the other; of at most m. -/
def donePrefix (l : List PartResult) : Nat → Nat → Nat
  | 0, _ => 0
  | m + 1, n => if l.any (fun r => r.n == n && r.comp.status == .done) then donePrefix l m (n + 1) + 1 else 0

/-- The done count that an unfinished item has reached (R28, R33): the bytes that a copy has written, the elements that a collective
has, and of an item of several parts the first ones that are done. -/
def State.reached (s : State) (i : Item) : Nat :=
  match (s.chans.flatMap fun x => x.2.queue).find? (fun d => d.item == i.id) with
  | some d => d.wrote
  | none =>
    match s.drift.colls.find? (fun c => c.2.item == i.id) with
    | some c => c.2.elems
    | none =>
      let sent := s.fab.xfers.filter fun t => t.why == .item i.id
      if i.unit = 0x0103 ∧ sent ≠ [] then
        (sent.takeWhile fun t => match t.ended with | some c => c.status == .done | none => false).length
      else donePrefix (s.items.results.filter fun r => r.item == i.id) i.parts 0

/-- ABORTED with a detail, for an item that a reset or a fence stops where it stands (R33). -/
def State.abortComp (s : State) (detail : Nat) (i : Item) : Completion :=
  { status := .aborted, detail := detail, count := s.reached i }

/-- Completes with ABORTED and a detail every live item that p picks and that has no result yet (R33). -/
def State.abortItems (s : State) (detail : Nat) (p : Item → Bool) : State :=
  let f : Item → Item := fun i => if p i && i.comp == none then { i with comp := some (s.abortComp detail i) } else i
  s.setItems { s.items with live := s.items.live.map f }

/-- Does thread k own the item? -/
def ownedBy (k : Nat) (i : Item) : Bool := match i.owner with | .thread j _ => j == k | _ => false

/-- Is the item of thread k and of a group of the mask (R81)? -/
def inGroups (k mask : Nat) (i : Item) : Bool := match i.owner with | .thread j g => j == k && bit mask g | _ => false

/-! ## Sequencer (R78 to R84) -/

/-- The unit number of a thread's cluster runs; the address register i of thread k. -/
def State.ag (s : State) (k i : Nat) : W32 := (s.thread k).ag.get 0 i

/-- The value that a 4-bit AG field adds (R151). -/
def State.agAdd (s : State) (k f : Nat) : Nat := if f < 8 then 0 else (s.ag k (f - 8)).toNat

/-- Power state of cluster g (Table 15-13): a cluster of a die in PS3 reports PS3 (R449). -/
def State.pmState (s : State) (g : Nat) : Nat :=
  if s.fld (Reg.pwrDie (g / 128)) Fld.pwrDiePs3 = 1 then 3 else s.fld (Reg.cirPmStatus g) Fld.cirPmStatusState

/-- Has thread k fetched the line of its pc? -/
def Thread.fetched (t : Thread) : Bool := t.lines.any fun l => l.1 == t.pc / 64

/-- The 64-bit word at the pc of a thread, from the line that it has fetched (R83). -/
def Thread.word (t : Thread) : Nat :=
  match t.lines.find? (fun l => l.1 == t.pc / 64) with
  | some l => leNat ((l.2.drop (t.pc % 64)).take 8)
  | none => 0

/-- Has the unit that word w of thread k addresses room in its issue FIFO (R79): the matrix cores, the vector engine (R150, R172),
the engine of the stack that a MORAINE word names (R233)? -/
def State.unitRoom (s : State) (k w : Nat) : Bool :=
  match bits w 60 4 with
  | 0 => (upFrom (8 * (k / 4)) 8).all fun c => decide ((s.cores.get {} c).fifo.length < 16)
  | 1 => decide ((s.unitItems 0x0101 (k / 4)).length < 16)
  | 5 => decide (8 ≤ bits w 52 4) || decide ((s.unitItems 0x0201 (bits w 52 4)).length < 64)
  | _ => true

/-- Is thread k ready: its cluster is in PS0 (Table 15-2), it runs a program, waits for nothing, has fetched the word's line, and the
unit of the word has room (R79, R83)? -/
def State.ready (s : State) (k : Nat) : Bool :=
  let t := s.thread k
  s.pmState (k / 4) == 0 && t.prog != .idle && t.wait == .none && !t.ended && t.fetched && s.unitRoom k t.word

/-- The order of issue among the threads of a cluster, the greatest first (R79): H, then the pass streams by the PRIO value of the
row, between equal values B before F before U. -/
def State.issueRank (s : State) (k : Nat) : Nat :=
  let r := (s.partOf (k / 4)).bind fun p => (s.part p).row
  match k % 4, r with
  | 3, _ => 100
  | 0, some r => 4 * r.fPrio + 2
  | 1, some r => 4 * r.bPrio + 3
  | _, some r => 4 * r.uPrio + 1
  | 0, none => 2
  | 1, none => 3
  | _, none => 1

/-- Is it thread k's turn: it is ready, and no ready thread of its cluster stands before it (R79; log entry 97)? -/
def State.turn (s : State) (k : Nat) : Bool :=
  s.ready k && (upFrom (4 * (k / 4)) 4).all fun j => j == k || !s.ready j || decide (s.issueRank j < s.issueRank k)

/-- May thread k issue word w: it is its turn, and w is the word at its pc (R79, R80)? -/
def State.canIssue (s : State) (k w : Nat) : Bool := s.turn k && (s.thread k).word == w

/-- A program word of class c (Table 3-3) with the opcode o in bits [59:56] and the operand bits w. -/
def progWord (c o w : Nat) : Nat := c * 2 ^ 60 + o * 2 ^ 56 + w

/-- The next pc and loop stack after the word at pc (R84). -/
def stepPc : List Loop → Nat → Nat × List Loop
  | [], pc => (pc + 8, [])
  | l :: r, pc =>
    if pc ≠ l.last then (pc + 8, l :: r)
    else if 1 < l.left then (l.first, { l with left := l.left - 1 } :: r)
    else match r with
      | [] => (pc + 8, [])
      | e :: _ => if e.last < l.last then (e.last, r) else stepPc r pc

/-- Thread k goes on to the next word. -/
def State.advance (s : State) (k : Nat) : State :=
  let t := s.thread k
  let n := stepPc t.loops t.pc
  s.setThread k { t with pc := n.1, loops := n.2 }

/-- The least of the reserved bits of a mask that are set in a word: the detail of R82. -/
def lowReserved (w mask : Nat) : Option Nat := lowestOne (w &&& mask) 0 64

end Sys2Proof.Machine
end

