-- ==== Sys2Proof/Machine/Flags.lean ====
section
/-! DEFINITION. Conversion events and the Rime counters that count them (R125, R266 to R269), and the conversions of element
strings that report them. -/
namespace Sys2Proof.Machine

/-- Counts of conversions and of their events. -/
structure Tally where
  conv : Nat := 0
  zero : Nat := 0
  sat : Nat := 0
  nonfin : Nat := 0
  deriving DecidableEq, Repr

/-- One more conversion with its events (R268). -/
def Tally.add (t : Tally) (e : Events) : Tally :=
  { conv := t.conv + 1, zero := t.zero + b2n e.zero, sat := t.sat + b2n e.sat, nonfin := t.nonfin + b2n e.nonfin }

/-- Is set n of cluster g held (R269)? -/
def State.setHeld (s : State) (g n : Nat) : Bool := bit (s.reg (Reg.cirNuHold g (n / 32))).toNat (n % 32)

/-- Reports a tally to set n of cluster g: to its pending counters where it is held, else to its totals (R268, R269). -/
def State.rime (s : State) (g n : Nat) (t : Tally) : State :=
  if s.setHeld g n then
    (((s.bumpBy (Reg.cirRimeConv g n) t.conv).bumpBy (Reg.cirRimeZero g n) t.zero).bumpBy (Reg.cirRimeSat g n) t.sat).bumpBy
      (Reg.cirRimeNonfin g n) t.nonfin
  else
    (((s.bumpBy (Reg.cirRimeTconv g n) t.conv).bumpBy (Reg.cirRimeTzero g n) t.zero).bumpBy (Reg.cirRimeTsat g n) t.sat).bumpBy
      (Reg.cirRimeTnonfin g n) t.nonfin

/-- Reports for an item of thread k: a fill program reports to no set (R267). -/
def State.rimeOf (s : State) (k n : Nat) (t : Tally) : State :=
  if (s.thread k).prog = .fill then s else s.rime (k / 4) n t

/-- Converts values to a format and writes their codes as bytes (R115, R121), with the tally of the events. -/
def convertAll (f : Fmt) (l : List Val) : Bytes × Tally :=
  l.foldl (fun r v => let c := convert f v; (r.1 ++ leBytes (fmtSize f) c.1, r.2.add c.2)) ([], {})

/-- The values of a string of elements of a format. -/
def valuesGo (f : Fmt) : Nat → Bytes → List Val
  | 0, _ => []
  | n + 1, b => valueOf f (leNat (b.take (fmtSize f))) :: valuesGo f n (b.drop (fmtSize f))

/-- The values of the first n elements of a string of bytes. -/
def valuesOf (f : Fmt) (n : Nat) (b : Bytes) : List Val := valuesGo f n b

end Sys2Proof.Machine
end

