-- ==== Sys2Proof/Machine/FabOps.lean ====
section
/-! DEFINITION. Transfers as their sender sees them: addresses and routes, admission, segments and their placement on links
(R293 to R297, R306, R310 to R313, R323 to R326). -/
namespace Sys2Proof.Machine

/-- The index of a device address on axis a: 0 P, 1 D, 2 T, 3 S (R294). -/
def axisIx (d : W32) (a : Nat) : Nat := bits d.toNat (24 - 8 * a) 8

/-- The length of axis a, as applied (Table 10-11). -/
def State.axisLen (s : State) (a : Nat) : Nat := bits (s.areg Reg.lnkAxes).toNat (8 * a) 8 + 1

/-- The own device address, as applied. -/
def State.ownAddr (s : State) : W32 := s.areg Reg.lnkDevaddr

/-- Does an address lie inside the torus (R294)? -/
def State.inTorus (s : State) (d : W32) : Bool := [0, 1, 2, 3].all fun a => axisIx d a < s.axisLen a

/-- A device address with the index on axis a replaced. -/
def withIx (d : W32) (a i : Nat) : W32 := BitVec.ofNat 32 (setBits d.toNat (24 - 8 * a) 8 i)

/-- The next port from device o towards device d: axis order P, D, T, S, the shorter way, + where both are equally long, and none of
an axis of length 1 (R295). -/
def State.portTo (s : State) (o d : W32) : Option Nat :=
  ([0, 1, 2, 3].find? fun a => axisIx o a != axisIx d a && s.axisLen a != 1).map fun a =>
    let n := s.axisLen a
    let f := (axisIx d a + n - axisIx o a % n) % n
    if f ≤ n - f then 2 * a else 2 * a + 1

/-- The hop count from device o to d (R295). -/
def State.hops (s : State) (o d : W32) : Nat :=
  sumBy (fun a => let n := s.axisLen a
                  let f := (axisIx d a + n - axisIx o a % n) % n
                  min f (n - f)) [0, 1, 2, 3]

/-- The device that port p leads to (R293). -/
def State.neighbour (s : State) (p : Nat) : W32 :=
  let n := s.axisLen (p / 2)
  let i := axisIx s.ownAddr (p / 2)
  withIx s.ownAddr (p / 2) (if p % 2 = 0 then (i + 1) % n else (i + n - 1) % n)

/-- The hop count of a transfer that leaves by port p (R295): the link to the neighbour, and the route from there. -/
def State.hopsBy (s : State) (p : Nat) (d : W32) : Nat := 1 + s.hops (s.neighbour p) d

/-- The state of link l (Table 10-6). -/
def State.linkState (s : State) (l : Nat) : Nat := s.fld (Reg.lnkStatus l) Fld.lnkStatusState

/-- Writes it. -/
def State.setLinkState (s : State) (l v : Nat) : State := s.setFld (Reg.lnkStatus l) Fld.lnkStatusState v

/-- The links of a port (R293). -/
def portLinks (p : Nat) : List Nat := upFrom (4 * p) 4

/-- The links of port p in UP. -/
def State.upLinks (s : State) (p : Nat) : List Nat := (portLinks p).filter fun l => s.linkState l == 3

/-- Is port p in Ethernet mode, as applied? -/
def State.ethPort (s : State) (p : Nat) : Bool := s.afld (Reg.lnkPortcfg p) Fld.lnkPortcfgMode == 1

/-- NMAX of a link (Table 10-10). -/
def State.ethNmax (s : State) (l : Nat) : Nat := min 16 (max 1 (s.fld (Reg.lnkEthCfg l) Fld.lnkEthCfgNmax))

/-- The unit rate of a link in 1/25,600 unit per ns (R297). -/
def State.unitRate (s : State) (l : Nat) : Nat :=
  if s.ethPort (l / 4) then (if 4 ≤ s.ethNmax l then 4352 else 3328)
  else 2 ^ s.fld (Reg.lnkStatus l) Fld.lnkStatusWidth * (32 * 2 ^ s.fld (Reg.lnkStatus l) Fld.lnkStatusSpeed) * 25 / 2

/-- Capacity C of a port in the same unit (R324). -/
def State.portCap (s : State) (p : Nat) : Nat := sumBy s.unitRate (s.upLinks p)

/-- The largest unit rate among the port's links in UP. -/
def State.portMax (s : State) (p : Nat) : Nat := (s.upLinks p).foldl (fun m l => max m (s.unitRate l)) 0

/-- Code of entry i of a reservation table, by a reading of the registers: applied or staged (R323). -/
def resCode (rd : Nat → W32) (p i : Nat) : Nat := bits (rd (Reg.lnkRes p (i / 4))).toNat (8 * (i % 4)) 4

/-- L of a reservation table. -/
def resLen (rd : Nat → W32) (p : Nat) : Nat := Fld.lnkPortcfgLen.of (rd (Reg.lnkPortcfg p)) + 1

/-- Entries of a reservation table with code v (R323). -/
def resCount (rd : Nat → W32) (p v : Nat) : Nat := ((upFrom 0 (resLen rd p)).filter fun i => resCode rd p i == v).length

/-- Entries of a reservation table that name a VC. -/
def resUsed (rd : Nat → W32) (p : Nat) : Nat := ((upFrom 0 (resLen rd p)).filter fun i => decide (resCode rd p i < 8)).length

/-- Are the reservations of a port covered (R324)? -/
def State.covered (s : State) (rd : Nat → W32) (p : Nat) : Bool :=
  decide (resUsed rd p * 25600 ≤ (s.portCap p - s.portMax p) * resLen rd p)

/-- The own transfers on a port and a VC that are admitted and not complete. -/
def State.admittedOn (s : State) (p v : Nat) : List Xfer :=
  s.fab.xfers.filter fun x => x.admitted && x.port == p && x.vc == v && x.ended == none

/-- The partner's allocation for VC v on the link that would carry a segment. -/
def State.partnerAlloc (s : State) (p v : Nat) : Nat :=
  match s.upLinks p with
  | [] => 0
  | l :: _ => (s.layer l).partner.get 0 v

/-- The bound of a transfer in ns (R326). -/
def State.boundNs (s : State) (p v : Nat) (dest : W32) (size : Nat) : Nat :=
  ceilDiv ((sumBy Xfer.unsent (s.admittedOn p v) + size) * resLen s.areg p) (240 * max 1 (resCount s.areg p v)) +
    s.hopsBy p dest * (if s.ethPort p then 1600 else 1200)

/-- The admission checks of Table 10-8 in order: the reason code, or 0 with the bound. -/
def State.admission (s : State) (p : Option Nat) (v : Nat) (dest : W32) (size : Nat) : Nat × Nat :=
  match p with
  | none => (1, 0)
  | some p =>
    let b := s.boundNs p v dest size
    let lim := (s.reg (Reg.lnkAdmlim v)).toNat
    if s.inTorus dest = false ∨ dest = s.ownAddr ∨ s.upLinks p = [] then (1, 0)
    else if resCount s.areg p v = 0 then (2, 0)
    else if s.covered s.areg p = false then (3, 0)
    else if lim ≠ 0 ∧ lim * 1000 < b then (4, 0)
    else if s.ethPort p ∧ (portLinks p).any (fun l => s.fld (Reg.lnkEthCfg l) Fld.lnkEthCfgDirect == 0) then (5, 0)
    else if 64 ≤ (s.admittedOn p v).length then (6, 0)
    else if s.partnerAlloc p v = 0 then (7, 0)
    else (0, b)

/-- Is VC v of port p admitted, as applied (R325, R329)? -/
def State.isAdm (s : State) (p v : Nat) : Bool := bit (s.afld (Reg.lnkPortcfg p) Fld.lnkPortcfgAdm) v

/-! ## Segments (R310) -/

/-- The fields of a segment header that its sender sets (Table 10-4). -/
structure SegHdr where
  dest : W32
  src : W32
  typ : Nat
  hops : Nat := 0
  priv : Bool := false
  adm : Bool := false
  xid : W32 := 0
  time : W64 := 0
  off : Nat := 0
  total : Nat := 0
  len : Nat := 0
  tail : Bytes := []
  deriving DecidableEq, Repr

/-- The 240 bytes of a segment header (Table 10-4). -/
def segHdrBytes (h : SegHdr) : Bytes :=
  leBytes 4 h.dest.toNat ++ leBytes 4 h.src.toNat ++ leBytes 1 h.typ ++ leBytes 1 h.hops ++
    leBytes 1 (b2n h.priv + 2 * b2n h.adm) ++ leBytes 1 0 ++ leBytes 4 h.xid.toNat ++ leBytes 8 h.time.toNat ++
    leBytes 5 h.off ++ leBytes 5 h.total ++ leBytes 2 h.len ++ leBytes 4 0 ++ (h.tail ++ List.replicate 200 0).take 200

/-- Parses a segment header. -/
def parseSegHdr (b : Bytes) : SegHdr :=
  { dest := BitVec.ofNat 32 (field b 0 4), src := BitVec.ofNat 32 (field b 4 4), typ := field b 8 1, hops := field b 9 1,
    priv := bit (field b 10 1) 0, adm := bit (field b 10 1) 1, xid := BitVec.ofNat 32 (field b 12 4),
    time := BitVec.ofNat 64 (field b 16 8), off := field b 24 5, total := field b 29 5, len := field b 34 2,
    tail := b.drop 40 }

/-- Segments with a body as they are placed on a link: header unit and body units of 240 bytes. -/
def segUnits (h : SegHdr) (body : Bytes) : List Bytes := segHdrBytes h :: cutEvery 240 (body.length / 240 + 1) body

/-- Places a segment on a link: the lowest-indexed link of the port in UP (log entry 21), or it waits for one. -/
def State.placeSeg (s : State) (p : Option Nat) (g : SegTx) : State :=
  let l := match p with
    | none => none
    | some p => (s.upLinks p).head?
  match l with
  | none => s.setFab { s.fab with unplaced := s.fab.unplaced ++ [(p.getD 8, g)] }
  | some l =>
    let s := s.setLayer l { s.layer l with txq := (s.layer l).txq ++ [g] }
    match g.xid with
    | none => s
    | some x =>
      let f : Xfer → Xfer := fun t => if t.xid == x && !t.links.contains l then { t with links := t.links ++ [l] } else t
      s.setFab { s.fab with xfers := s.fab.xfers.map f }

/-- The place of a segment's transfer among the admitted ones, in order of admission; none for another segment (R326). -/
def State.admRank (s : State) (g : SegTx) : Option Nat :=
  (s.fab.xfers.filter fun t => t.admitted && t.ended == none).findIdx? fun t => g.xid == some t.xid

/-- Segment g behind those of queue q that go before it: an admitted one stands before the segments of its counter whose transfer was
admitted later and of which nothing is sent (R326). -/
def State.putSeg (s : State) (g : SegTx) : List SegTx → List SegTx
  | [] => [g]
  | y :: r =>
    let later := match s.admRank g, s.admRank y with
      | some a, some b => decide (a < b)
      | _, _ => false
    if later && y.vc == g.vc && y.half == g.half && y.pos == 0 then g :: y :: r else y :: State.putSeg s g r

/-- Places a segment that moves to another link of its port, in order of admission (R316, R326). -/
def State.replaceSeg (s : State) (p : Nat) (g : SegTx) : State :=
  let s := s.placeSeg (some p) g
  match (s.upLinks p).head? with
  | none => s
  | some l => s.setLayer l { s.layer l with txq := s.putSeg g ((s.layer l).txq.dropLast) }

/-- Takes the next XID. -/
def State.takeXid (s : State) : State × W32 :=
  ((s.setFab { s.fab with nextXid := s.fab.nextXid + 1 }), s.fab.nextXid)

/-- Sends a single-unit segment that has no RECEIPT: RECEIPT, CANCEL, STAGE_CREDIT, DIGEST, a GRANT or a management segment
(R312, R313). It takes a fresh XID unless it names one. -/
def State.sendSingle (s : State) (dest : W32) (typ vc : Nat) (port : Option Nat) (priv : Bool) (xid : Option W32)
    (tail : Bytes) : State :=
  let p := if port = none then s.portTo s.ownAddr dest else port
  let x := match xid with | some x => (s, x) | none => s.takeXid
  let h : SegHdr := { dest := dest, src := s.ownAddr, typ := typ, priv := priv, xid := x.2, tail := tail }
  x.1.placeSeg p { vc := vc, units := [segHdrBytes h], typ := typ, priv := priv }

/-- Frees n receive units of counter c of layer l (R307, R309). -/
def State.freeUnits (s : State) (l c n : Nat) : State :=
  let x := s.layer l
  s.setLayer l { x with limit := x.limit.put 0 c ((x.limit.get 0 c + n) % 0x10000), used := x.used.put 0 c (x.used.get 0 c - n) }

/-- The receive units that a transfer in reception holds are freed (R309). -/
def State.freeHeld (s : State) (src xid : W32) : State :=
  match s.fab.rx.find? fun t => t.src == src && t.xid == xid with
  | some t => s.each t.hold fun s h => s.freeUnits h.1 h.2.1 h.2.2
  | none => s

/-- The RECEIPT of a transfer that has been placed, or has failed, here (R312): it goes to its source, and the transfer is no
longer in reception; the receive units that it held are free. -/
def State.sendReceipt (s : State) (src xid : W32) (c : Completion) : State :=
  let s := s.freeHeld src xid
  let s := (s.setFab { s.fab with rx := s.fab.rx.filter fun t => !(t.src == src && t.xid == xid)
                                  placed := s.fab.placed ++ [(src, xid, c)] })
  s.sendSingle src 3 8 none false none
    (leBytes 4 xid.toNat ++ leBytes 1 (statusCode c.status) ++ leBytes 1 0 ++ leBytes 2 c.detail ++ leBytes 5 c.count)

/-- The bodies of the segments of a transfer with their offsets: 65,520 bytes each (R310). -/
def segCuts (body : Bytes) : List (Nat × Bytes) :=
  ((upFrom 0 (body.length / 65520 + 1)).zip (cutEvery 65520 (body.length / 65520 + 1) body)).map fun c => (c.1 * 65520, c.2)

/-- Sends the CANCEL of an own transfer by its port (R320): it names the transfer, so that the loss of its link is answered too. -/
def State.sendCancel (s : State) (t : Xfer) : State :=
  let h : SegHdr := { dest := t.dest, src := s.ownAddr, typ := 11, xid := t.xid }
  s.placeSeg (some t.port) { vc := 8, units := [segHdrBytes h], typ := 11, xid := some t.xid }

/-- What a transfer's submission gives. -/
structure XferReq where
  dest : W32
  typ : Nat
  vc : Nat
  port : Option Nat := none
  priv : Bool := false
  tail : Bytes
  body : Bytes
  why : XferFor
  deriving DecidableEq, Repr

/-- Submits a transfer: on an admitted VC it is checked first (R325) and its bound is set (R326); a refused one ends REFUSED
with its reason and sends nothing. Answers the XID and the bound. -/
def State.submit (s : State) (r : XferReq) : State × W32 × Nat :=
  let p := if r.port = none then s.portTo s.ownAddr r.dest else r.port
  let adm := match p with | some p => s.isAdm p r.vc | none => s.isAdm 0 r.vc
  let a := if adm then s.admission p r.vc r.dest r.body.length else (0, 0)
  let (s, x) := s.takeXid
  let t : Xfer := { xid := x, dest := r.dest, typ := r.typ, vc := r.vc, port := p.getD 8, why := r.why, total := r.body.length
                    unsent := r.body.length, admitted := adm, deadline := s.now.toNat + a.2 }
  if a.1 ≠ 0 then
    let s := match p with | some p => s.bump (Reg.lnkRefused p) | none => s
    let c : Completion := { status := .refused, detail := a.1 }
    ((s.setFab { s.fab with xfers := s.fab.xfers ++ [{ t with admitted := false, ended := some c }] }), x, 0)
  else
    let s := s.setFab { s.fab with xfers := s.fab.xfers ++ [t] }
    let h : SegHdr := { dest := r.dest, src := s.ownAddr, typ := r.typ, priv := r.priv, adm := adm, xid := x
                        total := r.body.length, tail := r.tail }
    let cuts := if r.body = [] then [(0, [])] else segCuts r.body
    let s := s.each cuts fun s c =>
      s.placeSeg p { vc := r.vc, units := segUnits { h with off := c.1, len := c.2.length } c.2, xid := some x
                     typ := r.typ, priv := r.priv }
    (s, x, a.2)

/-- The own transfer with an XID. -/
def State.xfer (s : State) (x : W32) : Option Xfer := s.fab.xfers.find? fun t => t.xid == x && t.ended == none

/-- Drops an own transfer from the record. -/
def State.dropXfer (s : State) (x : W32) : State :=
  s.setFab { s.fab with xfers := s.fab.xfers.filter fun t => t.xid != x }

/-- The transfers that serve item id, in destination order. -/
def State.itemXfers (s : State) (id : Nat) : List Xfer := s.fab.xfers.filter fun t => t.why == .item id

/-- The item's result once every transfer of it has ended: the first in destination order whose status is not DONE, else DONE
with the count given (R312). -/
def firstFail (l : List Xfer) (done : Completion) : Completion :=
  match l.findSome? fun t => match t.ended with
    | some c => if c.status = .done then none else some c
    | none => none with
  | some c => c
  | none => done

/-- How many transfers, from the first in destination order on, have ended with DONE. -/
def doneXfers (l : List Xfer) : Nat :=
  (l.takeWhile fun t => match t.ended with | some c => c.status == .done | none => false).length

/-- Finishes item id where every transfer of it has ended. -/
def State.joinItem (s : State) (id : Nat) : State :=
  let l := s.itemXfers id
  if l.all fun t => t.ended != none then
    let late := l.any fun t => match t.ended with | some c => c.detail == 1 && c.status == .done | none => false
    let n := match s.item id with | some i => i.whole | none => 0
    let c := firstFail l { detail := b2n late, count := n }
    let msg := match s.item id with | some i => i.unit == 0x0103 | none => false
    let s := s.finish id (if msg && c.status != .done then { c with count := doneXfers l } else c)
    s.setFab { s.fab with xfers := s.fab.xfers.filter fun t => t.why != .item id }
  else s

/-- Drops from links and from waiting every unsent segment of a transfer. -/
def State.dropSegs (s : State) (x : W32) : State :=
  let s := s.setFab { s.fab with unplaced := s.fab.unplaced.filter fun g => g.2.xid != some x }
  s.each (upFrom 0 32) fun s l =>
    if (s.layer l).txq.any fun g => g.xid == some x then
      s.setLayer l { s.layer l with txq := (s.layer l).txq.filter fun g => g.xid != some x || g.pos != 0 }
    else s

end Sys2Proof.Machine
end

