-- ==== Sys2Proof/Machine/MirrorOps.lean ====
section
/-! DEFINITION. Operations of checkpoint mirroring that other families reach: mirror points and the VBEGINs they hold back, MGMT
segments, the choice of a partner, and the end of a generation (R479, R482 to R490). -/
namespace Sys2Proof.Machine

/-- The mirroring of job j. -/
def State.mirror (s : State) (j : Nat) : Mirror := s.mirrors.get {} j

/-- Replaces it. -/
def State.setMirror (s : State) (j : Nat) (m : Mirror) : State := s.setMirrors (s.mirrors.put {} j m)

/-- Is step a mirror point of the job (R479)? -/
def Mirror.point (m : Mirror) (step : Nat) : Bool := m.on && m.n != 0 && (step + 1) % m.n == 0

/-- Context c has made a head of a step, or has ended it failed: a mirror point of its job is reached (R479). -/
def State.mirrorMade (s : State) (c step : Nat) : State :=
  let j := s.partJob (c / 4)
  let m := s.mirror j
  s.when (m.point step && m.ctxs.contains c && !m.made.contains (c, step)) fun s =>
    s.setMirror j { m with made := m.made ++ [(c, step)] }

/-- Step `step` that has ended is marked failed now: its mirror point is reached, where it is not settled (R479, R483). -/
def State.mirrorLate (s : State) (c step : Nat) : State :=
  let m := s.mirror (s.partJob (c / 4))
  s.when (decide (m.next ≤ step) && m.cur.all fun g => g.step.toNat != step) fun s => s.mirrorMade c step

/-- Must a VBEGIN of a job with a mirror and a build step wait (R483): for the latest mirror point before it, where that is not settled, or
for one that is reached or under way? -/
def Mirror.holds (m : Mirror) (step : Nat) : Bool :=
  (m.on && m.n != 0 && m.ctxs != [] && decide (m.next < step / m.n * m.n)) ||
    m.made.any (fun p => decide (p.2 < step)) || m.cur.any fun g => decide (g.step.toNat < step)

/-- Must a VBEGIN of context c with a build step wait for a mirror point before it (R483)? -/
def State.mirrorHold (s : State) (c : Nat) (step : W32) : Bool := (s.mirror (s.partJob (c / 4))).holds step.toNat

/-- Mirror points before a step are settled: they have committed or failed, or no step of this run makes them (R483; log entry 151). -/
def State.settlePoints (s : State) (j step : Nat) : State :=
  let m := s.mirror j
  s.when (m.on && decide (m.next < step)) fun s => s.setMirror j { m with next := step }

/-- Partition p starts at its step counter: no earlier mirror point is made by its contexts (log entry 151). -/
def State.mirrorFrom (s : State) (p : Nat) : State :=
  let j := s.partJob p
  s.when ((s.mirror j).ctxs.any fun c => c / 4 == p) fun s => s.settlePoints j (s.reg (Reg.stgTabStep p)).toNat

/-- Writes a field of the recovery area of job j, which the Bridge accesses without the checks of R17 (R477). -/
def State.areaPut (s : State) (j off n v : Nat) : State :=
  let a := (s.mirror j).area
  if a = 0 then s else s.store (a + off) (leBytes n v)

/-- Sends a MGMT segment (Table 16-4), whose RECEIPT is awaited (R312); one that admission refuses is not sent. -/
def State.sendMgmt (s : State) (dest : W32) (mtype j gen : Nat) (step : W32) (reason : Nat) (digest : W64) (entry : Bytes) : State :=
  let tail := leBytes 1 mtype ++ leBytes 1 j ++ leBytes 2 (s.mirror j).feed ++ leBytes 4 gen ++ leBytes 4 step.toNat ++ leBytes 1 reason ++
    leBytes 3 0 ++ leBytes 8 digest.toNat ++ entry
  let s := (s.submit { dest, typ := 10, vc := 7, priv := true, tail, body := [], why := .mgmt j }).1
  s.setFab { s.fab with xfers := s.fab.xfers.filter fun t => !(t.why == .mgmt j && t.ended != none) }

/-- A candidate that refuses or is skipped (R487). -/
def State.partnerRefused (s : State) (j : Nat) (addr : W32) (reason : Nat) : State :=
  s.raise 0x0782 (some j) 0x0001 0 addr.toNat reason

/-- The next candidate is asked, n of them at most; where none is left the job has the host tier only, or no partner (R487,
R489). The reason of a candidate without an address has no value in Table 16-6: it is a free value. -/
def State.askNext (j : Nat) : Nat → State → State
  | 0, s => s
  | n + 1, s =>
    let m := s.mirror j
    match m.cands[m.nextCand]? with
    | none =>
      (s.setMirror j { m with asking := none }).areaPut j 0xCC 1 (if m.tier = 0 then 4 else 3)
    | some (a, f) =>
      let s := s.setMirror j { m with nextCand := m.nextCand + 1 }
      if a = 0 then State.askNext j n ((s.partnerRefused j a (Config.freeWord s.free 0).toNat).tick)
      else if f = m.feed then State.askNext j n (s.partnerRefused j a 1)
      else
        let s := s.setMirror j { s.mirror j with asking := some a }
        (s.sendMgmt a 1 j 0 0 0 0 []).areaPut j 0xCC 1 1

/-- Partner selection starts from the first candidate (R487). -/
def State.seekPartner (s : State) (j : Nat) : State :=
  let s := s.setMirror j { s.mirror j with partner := none, asking := none, nextCand := 0, missed := 0 }
  State.askNext j 9 (s.areaPut j 0xC8 4 0)

/-- The transfers of job j's mirror no longer count. -/
def State.dropMirror (s : State) (j : Nat) : State :=
  let l := s.fab.xfers.filter fun t => t.why == .mirror j
  s.each l fun s t => (s.dropSegs t.xid).dropXfer t.xid

/-- The generation under way ends without a commit: with CONTINUE 0 its mirror point stays due (R484). -/
def State.endGen (s : State) (j : Nat) : State :=
  let m := s.mirror j
  match m.cur with
  | none => s
  | some g =>
    let due := if m.cont then [] else m.ctxs.map fun c => (c, g.step.toNat)
    let keep := m.copies.filter fun c => !(c.src == none && c.gen == g.gen)
    let s := (s.setMirror j { m with cur := none, made := m.made ++ due, copies := keep }).dropMirror j
    s.when m.cont fun s => s.settlePoints j (g.step.toNat + 1)

/-- A generation fails (R484): the event, and a new choice of partner. -/
def State.failGen (s : State) (j : Nat) : State :=
  let m := s.mirror j
  match m.cur with
  | none => s
  | some g =>
    let s := s.raise 0x0781 (some j) 0x0001 0 g.step.toNat (match m.partner with | some p => p.toNat | none => 0)
    (s.endGen j).seekPartner j

/-- The generation under way commits (R482): CGEN, CSTEP and CTIME are written. -/
def State.commitGen (s : State) (j : Nat) : State :=
  let m := s.mirror j
  match m.cur with
  | none => s
  | some g =>
    let up : MirrorCopy → MirrorCopy := fun c => if c.src = none ∧ c.gen = g.gen then { c with committed := true } else c
    let s := (s.setMirror j { m with cur := none, copies := m.copies.map up }).settlePoints j (g.step.toNat + 1)
    ((s.areaPut j 0xC0 4 g.gen).areaPut j 0xC4 4 g.step.toNat).areaPut j 0xD0 8 s.now.toNat

/-- COMMIT goes to the partner once every RECEIPT has arrived; a generation that no partner is still to confirm commits once the tier has
it (R482, R489). -/
def State.offerCommit (s : State) (j : Nat) : State :=
  let m := s.mirror j
  match m.cur with
  | none => s
  | some g =>
    if g.xids ≠ [] ∨ g.sent then s
    else if g.needPartner then
      match m.partner with
      | some p => (s.setMirror j { m with cur := some { g with sent := true } }).sendMgmt p 4 j g.gen g.step 0 g.digest []
      | none => s
    else if g.tier = [] then s.commitGen j else s

/-- A copy of job j's generation to the host tier has completed (R484, R489). -/
def State.mirrorCopied (s : State) (j id : Nat) (c : Completion) : State :=
  let m := s.mirror j
  match m.cur with
  | none => s
  | some g =>
    if !g.tier.contains id then s
    else if c.status ≠ .done then s.failGen j
    else (s.setMirror j { m with cur := some { g with tier := g.tier.filter fun y => y != id } }).offerCommit j

/-- The RECEIPT of a mirror transfer of job j (R482, R484). -/
def State.mirrorReceipt (s : State) (j : Nat) (x : W32) (c : Completion) : State :=
  let m := s.mirror j
  match m.cur with
  | none => s
  | some g =>
    if !g.xids.contains x then s
    else if c.status ≠ .done then s.failGen j
    else (s.setMirror j { m with cur := some { g with xids := g.xids.filter fun y => y != x } }).offerCommit j

end Sys2Proof.Machine
end

