-- ==== Sys2Proof/Machine/SnpOps.lean ====
section
/-! DEFINITION. Operations on the Snowpack version store that several families share: slots, pins, freeing, discard and
failed steps (R107, R245 to R258). -/
namespace Sys2Proof.Machine

/-- The hidden Snowpack state of a context. -/
def State.snp (s : State) (c : Nat) : Snp := s.snps.get {} c

/-- Replaces it. -/
def State.setSnp (s : State) (c : Nat) (x : Snp) : State := s.setSnps (s.snps.put {} c x)

/-- Full slots of a context: FULL + 1, where FULL 0 acts as 1 (Table 8-9). -/
def State.snpFull (s : State) (c : Nat) : Nat := max 1 (s.fld (Reg.snpCtxCfg c) Fld.snpCtxCfgFull) + 1

/-- Delta slots of a context: none in full mode (Table 8-9). -/
def State.snpDelta (s : State) (c : Nat) : Nat :=
  if s.fld (Reg.snpCtxCfg c) Fld.snpCtxCfgMode = 1 then s.fld (Reg.snpCtxCfg c) Fld.snpCtxCfgDelta else 0

/-- The slot indices of a context, full slots first. -/
def State.snpSlots (s : State) (c : Nat) : List Nat := upFrom 0 (min 8 (s.snpFull c + s.snpDelta c))

/-- Does slot k hold a discarded build for which a command that was accepted is not complete (R253)? -/
def State.draining (s : State) (c k : Nat) : Bool :=
  (s.snp c).drain.any fun d => d.1 == k && d.2.any fun id => s.items.live.any fun i => i.id == id && i.comp == none

/-- State of slot k (Table 8-7): that of a discarded build is FREE once every command accepted for it is complete (R253). -/
def State.slotState (s : State) (c k : Nat) : Nat :=
  if ((s.snp c).drain.any fun d => d.1 == k) && !s.draining c k then 0 else s.fld (Reg.snpSlot c k) Fld.snpSlotState

/-- Version number of slot k. -/
def State.slotVer (s : State) (c k : Nat) : Nat := s.fld (Reg.snpSlot c k) Fld.snpSlotVersion

/-- Does the context have a HEAD? -/
def State.hasHead (s : State) (c : Nat) : Bool := s.fld (Reg.snpCtxHead c) Fld.snpCtxHeadValid == 1

/-- The head number; a context without a HEAD counts as 0xFFFF (R247). -/
def State.headNum (s : State) (c : Nat) : Nat :=
  if s.hasHead c then s.fld (Reg.snpCtxHead c) Fld.snpCtxHeadVersion else 0xFFFF

/-- Is a build open? -/
def State.buildOpen (s : State) (c : Nat) : Bool := s.fld (Reg.snpCtxBuild c) Fld.snpCtxBuildState != 0

/-- The build's number. -/
def State.buildNum (s : State) (c : Nat) : Nat := s.fld (Reg.snpCtxBuild c) Fld.snpCtxBuildVersion

/-- The build's slot. -/
def State.buildSlot (s : State) (c : Nat) : Nat := s.fld (Reg.snpCtxBuild c) Fld.snpCtxBuildSlot

/-- The slot that holds a HEAD or LIVE version. -/
def State.snpFind (s : State) (c ver : Nat) : Option Nat :=
  (upFrom 0 8).find? fun k => (s.slotState c k == 2 || s.slotState c k == 3) && s.slotVer c k == ver

/-- Pins of slot k. -/
def State.pinsOf (s : State) (c k : Nat) : Nat := (s.snp c).pins.get 0 k

/-- Writes the pins of slot k and their saturating register field (Table 8-9). -/
def State.setPins (s : State) (c k n : Nat) : State :=
  (s.setSnp c { s.snp c with pins := (s.snp c).pins.put 0 k n }).setFld (Reg.snpSlot c k) Fld.snpSlotPins (min 255 n)

/-- Does a compaction run on slot k? -/
def State.compacting (s : State) (c k : Nat) : Bool := s.fld (Reg.snpSlot c k) Fld.snpSlotCompact == 1

/-- The delta slots that refer to slot k (R259). -/
def State.refsTo (s : State) (c k : Nat) : List Nat :=
  (upFrom 0 8).filter fun d => s.slotState c d == 3 && s.fld (Reg.snpSlot c d) Fld.snpSlotKind == 1 &&
    s.fld (Reg.snpSlot c d) Fld.snpSlotRef == k

/-- How far version v lies behind the head, modulo 2^16. -/
def State.behind (s : State) (c v : Nat) : Nat := (s.headNum c + 0x10000 - v) % 0x10000

/-- The number of LIVE versions newer than that of slot k. -/
def State.newerLive (s : State) (c k : Nat) : Nat :=
  ((upFrom 0 8).filter fun j => s.slotState c j == 3 && s.behind c (s.slotVer c j) < s.behind c (s.slotVer c k)).length

/-- May the version of slot k be freed (R257)? -/
def State.freeable (s : State) (c k : Nat) : Bool :=
  s.slotState c k == 3 && s.pinsOf c k == 0 && s.refsTo c k == [] &&
    decide (s.fld (Reg.snpCtxCfg c) Fld.snpCtxCfgKeep ≤ s.newerLive c k)

/-- Is slot d a delta slot whose compaction reads slot k, as its version or as its reference? -/
def State.compactsFrom (s : State) (c k d : Nat) : Bool :=
  s.compacting c d && s.fld (Reg.snpSlot c d) Fld.snpSlotKind == 1 &&
    (s.fld (Reg.snpSlot c d) Fld.snpSlotRef == k || s.slotVer c d == s.slotVer c k)

/-- Frees slot k. A compaction that reads it ends without effect (log entry 114). -/
def State.freeSlot (s : State) (c k : Nat) : State :=
  let s := s.each ((upFrom 0 8).filter fun d => s.compactsFrom c k d) fun s d =>
    let v := s.slotVer c d
    (s.setReg (Reg.snpSlot c d) 0).each ((upFrom 0 8).filter fun j => s.compacting c j && j != d && s.slotVer c j == v) fun s j =>
      s.setFld (Reg.snpSlot c j) Fld.snpSlotCompact 0
  s.setReg (Reg.snpSlot c k) 0

/-- Frees LIVE versions under R257, n times one. -/
def State.freeGo (c : Nat) : Nat → State → State
  | 0, s => s
  | n + 1, s =>
    match (upFrom 0 8).find? (s.freeable c) with
    | none => s
    | some k => State.freeGo c n (s.freeSlot c k)

/-- Frees every LIVE version that R257 frees. -/
def State.freeVersions (s : State) (c : Nat) : State := State.freeGo c 8 s

/-- Adds a pin to the version held in slot k (R255). -/
def State.pin (s : State) (c k : Nat) : State := s.setPins c k (s.pinsOf c k + 1)

/-- Releases a pin of version ver, and frees what R257 then frees. -/
def State.unpin (s : State) (c ver : Nat) : State :=
  match s.snpFind c ver with
  | none => s
  | some k => (s.setPins c k (s.pinsOf c k - 1)).freeVersions c

/-- The entry of a context's stash. -/
def State.stashAt (s : State) (c e : Nat) : Stash := s.stash.get {} (64 * c + e)

/-- Replaces it. -/
def State.setStash (s : State) (c e : Nat) (x : Stash) : State :=
  let s := s.setStashes (s.stash.put {} (64 * c + e) x)
  s.setFld (Reg.stgCtxStatus c) Fld.stgCtxStatusStashUsed (((upFrom 0 64).filter fun i => (s.stashAt c i).used).length)

/-- Frees stash entry e and releases its pin (R69, R255). -/
def State.freeStash (s : State) (c e : Nat) : State :=
  if (s.stashAt c e).used then (s.setStash c e {}).unpin c (s.stashAt c e).tag.ver.toNat else s

/-- Items accepted for the open build of context c: OPT and VPUB carry 1 + c in info. -/
def State.buildItems (s : State) (c : Nat) : List Item :=
  s.items.live.filter fun i => i.unit == 0x0201 && i.info == 1 + c && i.comp == none

/-! ## The store (R245) -/

/-- The working format of a context; none where WFMT names none. -/
def State.wfmt (s : State) (c : Nat) : Option Fmt := fmtOf (s.fld (Reg.snpCtxCfg c) Fld.snpCtxCfgWfmt)

/-- Bytes of an element's working image: none where WFMT is W16. -/
def State.workSize (s : State) (c : Nat) : Nat :=
  match s.wfmt c with
  | some .w16 => 0
  | some f => fmtSize f
  | none => 0

/-- Elements of a stack's part of the image. -/
def State.elems (s : State) (c : Nat) : Nat := (s.reg (Reg.snpCtxElems c)).toNat

/-- A length rounded up to 4 KiB. -/
def pageUp (n : Nat) : Nat := ceilDiv n 4096 * 4096

/-- Bytes that slot k takes in each stack. -/
def State.slotBytes (s : State) (c k : Nat) : Nat :=
  if k < s.snpFull c then pageUp ((2 + s.workSize c) * s.elems c)
  else pageUp (pageUp (s.elems c) + 8 * s.fld (Reg.snpCtxExc c) Fld.snpCtxExcEntries)

/-- Device address of the store in stack st. -/
def State.storeAddr (s : State) (c st : Nat) : Nat :=
  s.fld (Reg.snpCtxStore c) Fld.snpCtxStoreWindow * 2 ^ 37 + st * 2 ^ 34 + s.fld (Reg.snpCtxStore c) Fld.snpCtxStoreOffset * 4096

/-- Device address of slot k in stack st. -/
def State.slotAddr (s : State) (c st k : Nat) : Nat := s.storeAddr c st + sumBy (s.slotBytes c) (upFrom 0 k)

/-- Bytes of stack traffic of engine st (Table 8-11). -/
def State.engBytes (s : State) (st n : Nat) : State :=
  let t := (s.stack st).engRest + n
  (s.setStack st { s.stack st with engRest := t % 1024 }).bumpBy (Reg.morEngKib st) (t / 1024)

/-- Writes W16 codes into the build in slot k at image index ix of stack st, with their working image, and counts them while that build is
open (R249, R252, R253): answers the tally of the conversions. -/
def State.writeBuild (s : State) (c st k ix : Nat) (codes : List Nat) : State × Tally :=
  let a := s.slotAddr c st k
  let n := codes.length
  let s := s.store (a + 2 * ix) (codes.flatMap (leBytes 2))
  let w : Bytes × Tally := match s.wfmt c with
    | some .w16 => ([], {})
    | some f => convertAll f (codes.map (valueOf .w16))
    | none => ([], {})
  let s := s.when (!w.1.isEmpty) fun s => s.store (a + 2 * s.elems c + s.workSize c * ix) w.1
  if !(s.buildOpen c && s.buildSlot c == k) then (s, w.2)
  else
  let x := s.snp c
  let m := x.counts.get 0 st + n
  let beyond := decide (s.elems c < m) && !x.overAt.contains st
  let s := s.setSnp c { x with counts := x.counts.put 0 st m, overAt := if beyond then x.overAt ++ [st] else x.overAt }
  let s := s.when (decide (s.elems c ≤ m)) fun s =>
    s.setFld (Reg.snpCtxBuild c) Fld.snpCtxBuildReady (setBits (s.fld (Reg.snpCtxBuild c) Fld.snpCtxBuildReady) st 1 1)
  (s.when beyond fun s => s.raise 0x0307 (some (s.partJob (c / 4))) 0x0040 c c st, w.2)

/-! ## Builds (R247, R248, R251) -/

/-- The slot that a new build takes: the lowest FREE full slot, unless a LIVE version has the build's number (R247, R248), or a slot is
still BUILDING (R246, R253). -/
def State.buildRoom (s : State) (c : Nat) : Option Nat :=
  let v := (s.headNum c + 1) % 0x10000
  if (upFrom 0 8).any fun k => (s.slotState c k == 3 && s.slotVer c k == v) || s.slotState c k == 1 then none
  else (upFrom 0 (s.snpFull c)).find? fun k => s.slotState c k == 0 && !s.compacting c k

/-- Opens a build in slot k with a build step (R248). -/
def State.openBuild (s : State) (c k : Nat) (step : W32) : State :=
  let v := (s.headNum c + 1) % 0x10000
  let s := s.setReg (Reg.snpSlot c k) (BitVec.ofNat 32 (1 + v * 16))
  let s := s.setReg (Reg.snpCtxBuild c) (BitVec.ofNat 32 (v + k * 2 ^ 16 + 2 ^ 19 + (if s.elems c = 0 then 0xFF * 2 ^ 21 else 0)))
  (s.setReg (Reg.snpCtxBstep c) step).setSnp c
    { s.snp c with counts := [], overAt := [], drain := (s.snp c).drain.filter fun d => d.1 != k }

/-- Closes the build: no build is open. -/
def State.closeBuild (s : State) (c : Nat) : State := s.setReg (Reg.snpCtxBuild c) 0

/-- The D peers of context c, in ascending D index (R250); a DLEN of 0 or 1 gives none (Table 8-9). -/
def State.dPeers (s : State) (c : Nat) : List W32 :=
  let n := s.fld (Reg.snpCtxPeers c) Fld.snpCtxPeersDlen
  if n ≤ 1 then [] else ((upFrom 0 n).filter fun i => i != axisIx s.ownAddr 1).map fun i => withIx s.ownAddr 1 i

/-- Header bytes 40 on of an SNP_PUB segment: context, NOTICE flag, number, build step, stack and index. The spec fixes no
layout of them (log entry 22). -/
def snpTail (ctx : Nat) (notice : Bool) (ver : Nat) (step : W32) (stack ix : Nat) : Bytes :=
  leBytes 1 ctx ++ leBytes 1 (b2n notice) ++ leBytes 2 ver ++ leBytes 4 step.toNat ++ leBytes 4 stack ++ leBytes 4 ix

/-- A failure notice to every D peer (R254). -/
def State.sendNotices (s : State) (c ver : Nat) (step : W32) : State :=
  let s := s.each (s.dPeers c) fun s d =>
    (s.submit { dest := d, typ := 4, vc := 5, body := [], why := .notice
                tail := snpTail (s.fld (Reg.snpCtxPeers c) Fld.snpCtxPeersPeerCtx) true ver step 0 0 }).1
  s.setFab { s.fab with xfers := s.fab.xfers.filter fun t => !(t.why == .notice && t.ended != none) }

/-- Discards the open build and sends the failure notice (R253, R254). Its slot is free once the commands accepted for it are
complete. -/
def State.discardBuild (s : State) (c : Nat) : State :=
  let n := s.buildNum c
  let st := s.reg (Reg.snpCtxBstep c)
  let k := s.buildSlot c
  let ids := (s.buildItems c).map Item.id
  let s := s.each (s.snp c).vends fun s id => s.finish id { status := .aborted, detail := 5 }
  let s := s.setSnp c { s.snp c with vends := [] }
  let s := if ids = [] then s.setReg (Reg.snpSlot c k) 0 else s.setSnp c { s.snp c with drain := (s.snp c).drain ++ [(k, ids)] }
  (s.closeBuild c).sendNotices c n st

/-- Is a step marked failed at a partition? -/
def State.isFailed (s : State) (p : Nat) (step : W32) : Bool := (s.part p).failed.contains step

/-- What becomes of a publication arrival (R251). -/
inductive PubFate where
  | write | discard | stray | wait
  deriving DecidableEq, Repr

/-- The fate of an arrival now. One whose elements lie beyond the image is a stray. -/
def State.pubFate (s : State) (c : Nat) (a : SnpPub) : PubFate :=
  if s.isFailed (c / 4) a.step then .discard
  else if s.buildOpen c then
    if s.buildNum c = a.version.toNat ∧ a.ix + a.codes.length ≤ s.elems c then .write else .stray
  else if a.version.toNat = (s.headNum c + 1) % 0x10000 ∧ a.ix + a.codes.length ≤ s.elems c then .wait
  else .stray

/-- An arrival with a fate other than to wait: it is written, discarded, or discarded as a stray (R251, R267). -/
def State.endPub (s : State) (c : Nat) (a : SnpPub) (xid : W32) (f : PubFate) : State :=
  match f with
  | .write =>
    let r := s.writeBuild c a.stack (s.buildSlot c) a.ix (a.codes.map BitVec.toNat)
    let n := a.codes.length
    let s := r.1.rime (s.leadCluster (c / 4)) (s.fld (Reg.snpCtxCfg c) Fld.snpCtxCfgRime) r.2
    let s := (s.bumpBy (Reg.morEngElems a.stack) n).engBytes a.stack (n * (2 + s.workSize c))
    let s := s.bumpBy (Reg.morEngNonfin a.stack) r.2.nonfin
    s.sendReceipt a.sender xid { count := 2 * n }
  | .stray =>
    let s := (s.bump (Reg.snpCtxStray c)).raise 0x0306 (some (s.partJob (c / 4))) 0x0040 c c
      (a.version.toNat * 2 ^ 48 + a.sender.toNat)
    s.sendReceipt a.sender xid (malformed 160)
  | _ => s.sendReceipt a.sender xid {}

/-- The arrivals that wait and need to wait no longer. -/
def State.flushPubs (s : State) (c : Nat) : State :=
  let l := (s.snp c).waits
  let go := l.filter fun w => s.pubFate c w.pub != .wait
  let s := s.when (go != []) fun s => s.setSnp c { s.snp c with waits := l.filter fun w => s.pubFate c w.pub == .wait }
  s.each go fun s w => s.endPub c w.pub w.xid (s.pubFate c w.pub)

/-- VBEGINs that wait complete, but those that a mirror point holds back (R248, R483). -/
def State.endBegins (s : State) (c : Nat) : State :=
  let l := (s.snp c).begins
  let go := l.filter fun b => !s.mirrorHold c b.step
  let s := s.setSnp c { s.snp c with begins := l.filter fun b => s.mirrorHold c b.step }
  s.each go fun s b => (s.finish b.item {}).setThread b.key { s.thread b.key with wait := .none }

/-- A build opens in slot k: VBEGINs that wait complete, and arrivals for it are written (R248, R251). -/
def State.beginBuild (s : State) (c k : Nat) (step : W32) : State :=
  let s := (s.openBuild c k step).endBegins c
  s.flushPubs c

/-- Marks a step failed at a partition and discards the builds of that step (R107, R253). -/
def State.markFailed (s : State) (p : Nat) (step : W32) : State :=
  let x := s.part p
  let past := decide (step.toNat + 1 < (s.reg (Reg.stgTabStep p)).toNat)
  let new := !past && !x.failed.contains step
  let ended := decide (step.toNat + 1 = (s.reg (Reg.stgTabStep p)).toNat)
  let s := (s.when new fun s => s.setPart p { x with failed := x.failed ++ [step] }).when (new && ended) fun s =>
    s.each (upFrom (4 * p) 4) fun s c => s.mirrorLate c step.toNat
  s.each [4 * p, 4 * p + 1, 4 * p + 2, 4 * p + 3] fun s c =>
    let s := s.when (s.buildOpen c && s.reg (Reg.snpCtxBstep c) == step) fun s => s.discardBuild c
    s.flushPubs c

end Sys2Proof.Machine
end

