-- ==== Sys2Proof/Machine/NumOps.lean ====
section
/-! DEFINITION. The layer table, the widen levels, the level logs and the dispatch of a stream (R270 to R277). -/
namespace Sys2Proof.Machine

/-- A valid layer-table entry (Table 9-2); starts and resume are slice offsets in bytes. -/
structure LayerEntry where
  sets : Nat
  start : List Nat
  resume : Nat
  tsat : Bool
  tnonf : Bool
  maxLevel : Nat
  sticky : Nat
  logix : Nat
  logmode : Nat
  deriving DecidableEq, Repr

/-- The slice offset of entry l of cluster g. -/
def State.entryOff (s : State) (g l : Nat) : Nat := s.fld (Reg.cirNuLtab g) Fld.cirNuLtabBase * 32 + l * 32

/-- The number of entries: above 1,024 acts as 1,024 (Table 9-8). -/
def State.entryCount (s : State) (g : Nat) : Nat := min 1024 (s.fld (Reg.cirNuLtab g) Fld.cirNuLtabEntries)

/-- The bits of an entry that are reserved (Table 9-2). -/
def entryReserved : Nat :=
  (2 ^ 13 - 1) * 2 ^ 83 + (2 ^ 13 - 1) * 2 ^ 115 + (2 ^ 13 - 1) * 2 ^ 147 + (2 ^ 13 - 1) * 2 ^ 179 + 2 ^ 199 +
    (2 ^ 6 - 1) * 2 ^ 210 + (2 ^ 40 - 1) * 2 ^ 216

/-- Parses an entry: none where it is not valid (R271). -/
def parseEntry (b : Bytes) : Option LayerEntry :=
  let x := leNat b
  if bit x 192 ∧ x &&& entryReserved = 0 ∧ bits x 195 2 ≠ 3 ∧ bits x 197 2 ≠ 3 ∧ bits x 208 2 ≠ 3 then
    some { sets := bits x 0 64, start := [bits x 64 19 * 8, bits x 96 19 * 8, bits x 128 19 * 8], resume := bits x 160 19 * 8,
           tsat := bit x 193, tnonf := bit x 194, maxLevel := bits x 195 2, sticky := bits x 197 2, logix := bits x 200 8,
           logmode := bits x 208 2 }
  else none

/-- What a read of entry l of cluster g finds: its failing byte where it is unreadable, else the entry where it is valid
(R271, R517). -/
def State.readEntry (s : State) (g l : Nat) : Option Nat × Option LayerEntry :=
  let o := s.entryOff g l
  if s.entryCount g ≤ l ∨ sliceSize < o + 32 then (none, none)
  else match s.badByte (firnAddr g o) 32 with
    | some a => (some a, none)
    | none => (none, parseEntry (s.bytes (firnAddr g o) 32))

/-- The widen level of entry l of cluster g (Table 9-10). -/
def State.widenLevel (s : State) (g l : Nat) : Nat := bits (s.reg (Reg.cirNuWlvl g (l / 16))).toNat (2 * (l % 16)) 2

/-- Writes it. -/
def State.setWiden (s : State) (g l v : Nat) : State :=
  s.setReg (Reg.cirNuWlvl g (l / 16)) (BitVec.ofNat 32 (setBits (s.reg (Reg.cirNuWlvl g (l / 16))).toNat (2 * (l % 16)) 2 v))

/-- Returns to 0 the widen levels of the units of a STICKY code in cluster g (R276). -/
def State.clearWiden (s : State) (g sticky : Nat) : State :=
  s.each ((upFrom 0 1024).filter fun l => s.widenLevel g l != 0) fun s l =>
    match (s.readEntry g l).2 with
    | some e => s.when (e.sticky == sticky) fun s => s.setWiden g l 0
    | none => s

/-- The slice offset of the level log of stash entry e of virtual stage v (R277). -/
def State.logOff (s : State) (g v e : Nat) : Nat := s.fld (Reg.cirNuLog g) Fld.cirNuLogBase * 64 + (v * 64 + e) * 64

/-- Writes level k into field f of the level log of stash entry e (R277); nothing beyond the slice is written (R517). -/
def State.writeLog (s : State) (g v e f k : Nat) : State :=
  let o := s.logOff g v e + f / 4
  if sliceSize ≤ o then s
  else
    let b := (s.bytes (firnAddr g o) 1).headD 0
    s.store (firnAddr g o) [BitVec.ofNat 8 (setBits b.toNat (2 * (f % 4)) 2 k)]

/-- Zeroes the level log of stash entry e (R277), as far as the slice reaches. -/
def State.zeroLog (s : State) (g v e : Nat) : State :=
  let o := s.logOff g v e
  if sliceSize ≤ o then s else s.store (firnAddr g o) (List.replicate (min 64 (sliceSize - o)) 0)

/-- Field f of the level log of stash entry e; none where it cannot be read (R275, R517). -/
def State.readLog (s : State) (g v e f : Nat) : Option Nat :=
  let o := s.logOff g v e + f / 4
  if sliceSize ≤ o ∨ (s.badByte (firnAddr g o) 1).isSome then none
  else some (bits ((s.bytes (firnAddr g o) 1).headD 0).toNat (2 * (f % 4)) 2)

/-- The lowest valid entry whose level-0 body starts at slice offset pc, with the failing byte of one that is unreadable (R275). -/
def State.entryAt (s : State) (g pc : Nat) : Option (Nat × LayerEntry × Option Nat) :=
  (upFrom 0 (s.entryCount g)).findSome? fun l =>
    let o := s.entryOff g l
    match if sliceSize < o + 32 then none else parseEntry (s.bytes (firnAddr g o) 32) with
    | some e => if e.start.headD 0 = pc then some (l, e, s.badByte (firnAddr g o) 32) else none
    | none => none

/-- Does R275 look for a dispatch of thread k at its pc? -/
def State.dispatches (s : State) (k : Nat) : Bool :=
  ((s.thread k).prog == .pass || (s.thread k).prog == .early) && k % 4 != 3

/-- The dispatch level d of pass stream k and START_d, where its pc is START0 of a valid entry (R275); an unreadable entry gives no
dispatch: the word is issued at level 0. -/
def State.unitAt (s : State) (k : Nat) : Option (Nat × Nat) :=
  let t := s.thread k
  if s.dispatches k then
    match s.entryAt (k / 4) t.pc with
    | none => none
    | some (_, _, some _) => some (0, t.pc)
    | some (l, e, none) =>
      let w := s.widenLevel (k / 4) l
      let d := min e.maxLevel (match e.logmode, t.stash with
        | 2, some (c, i) => (s.readLog (k / 4) (c % 4) i e.logix).getD w
        | _, _ => w)
      some (d, e.start.getD d 0)
  else none

/-- The level and pc to which thread k jumps at its pc; none where it issues the word there (R275). -/
def State.dispatch (s : State) (k : Nat) : Option (Nat × Nat) :=
  match s.unitAt k with
  | some (d, pc) => if d = 0 ∨ pc = (s.thread k).pc then none else some (d, pc)
  | none => none

/-- The uncorrectable errors that the check of R275 meets are counted: in the entry, or in the level log that it names (R200). -/
def State.chargeUnit (s : State) (k : Nat) : State :=
  let t := s.thread k
  if !s.dispatches k then s
  else match s.entryAt (k / 4) t.pc with
    | some (_, _, some a) => s.chargeUe a
    | some (_, e, none) =>
      match e.logmode, t.stash with
      | 2, some (c, i) =>
        let o := s.logOff (k / 4) (c % 4) i + e.logix / 4
        if sliceSize ≤ o then s
        else match s.badByte (firnAddr (k / 4) o) 1 with
          | some a => s.chargeUe a
          | none => s
      | _, _ => s
    | none => s

/-- The dispatch sets the attempt level of thread k where it issues the word at its pc itself (R272, R275). -/
def State.atStart (s : State) (k : Nat) : State :=
  let s := s.chargeUnit k
  match s.unitAt k with
  | some (d, _) => if (s.thread k).level = d then s else s.setThread k { s.thread k with level := d }
  | none => s

/-- Is the word at slice offset o of cluster g a COMMIT naming unit l (Table 3-4)? -/
def State.commitAt (s : State) (g l o : Nat) : Bool :=
  let w := leNat (s.bytes (firnAddr g o) 8)
  bits w 56 8 == 0x37 && bits w 0 16 == l

/-- Does thread k of a fill program stand at a word of a body: one that lies from START_d of a valid entry on, up to the COMMIT that
names it (R274; log entry 103)? -/
def State.fillBody (s : State) (k : Nat) : Bool :=
  let t := s.thread k
  let g := k / 4
  t.prog == .fill && (upFrom 0 (s.entryCount g)).any fun l =>
    match (s.readEntry g l).2 with
    | some e => (e.start.take (e.maxLevel + 1)).any fun a =>
      decide (a ≤ t.pc) && !((upFrom 0 ((t.pc - a) / 8)).any fun i => s.commitAt g l (a + 8 * i))
    | none => false

/-- The dispatch jump: it empties the loop stack (R274). -/
def State.jump (s : State) (k level pc : Nat) : State :=
  s.setThread k { s.thread k with pc := pc, level := level, loops := [] }

/-- The bytes of containers of a format as the device writes them: bits [15:12] of a W12 container are zero (R115). -/
def containers (f : Fmt) (b : Bytes) : Bytes :=
  if f = .w12 then (upFrom 0 b.length).zipWith (fun i x => if i % 2 = 1 then x &&& 0x0F#8 else x) b else b

end Sys2Proof.Machine
end

