-- ==== Sys2Proof/Machine/Seq.lean ====
section
/-! DEFINITION. Issue of a program word, the start and the end of a program (R78 to R84, R255, R273, R275). -/
namespace Sys2Proof.Machine

/-- Issues word w of thread k: a dispatch that is due takes its place (R275); otherwise, where the thread may issue w, f gives the
word's effect and where the thread goes on; a body word of a fill program is MALFORMED (R274). -/
def State.issueTo (s : State) (k w : Nat) (f : State → State) : State :=
  match s.dispatch k with
  | some (d, pc) => s.when (s.turn k) fun s => (s.chargeUnit k).jump k d pc
  | none => s.when (s.canIssue k w) fun s =>
    if s.fillBody k then (s.reportWord k (malformed 0)).advance k else f (s.atStart k)

/-- As issueTo, for a word after which the thread goes on to the next word. -/
def State.issue (s : State) (k w : Nat) (f : State → State) : State := s.issueTo k w fun s => (f s).advance k

/-- Starts a program of thread k at a slice offset: address registers, group and loop stack are reset (R78), the attempt
level is 0 (R272), and the vector context takes its reset values (R167). The tag stays. -/
def State.startProg (s : State) (k : Nat) (prog : Prog) (pc : Nat) : State :=
  (s.setThread k { prog := prog, pc := pc, tag := (s.thread k).tag }).setVctxs (s.vctxs.put {} k {})

/-- Frees the stash entries of the backward pass of partition p, or moves them to the weight-pending list, once the B program of every
cluster has ended (Table 3-8, R69; log entry 102). -/
def State.endBackward (s : State) (p : Nat) : State :=
  s.when ((s.partClusters p).all fun g => (s.thread (4 * g + 1)).prog == .idle) fun s =>
    let x := s.part p
    let bp := match x.row with | some r => r.bPart | none => 0
    let s := s.setPart p { x with passEnds := [], pendingW := if bp = 1 then x.pendingW ++ x.passEnds else x.pendingW }
    if bp = 1 then s else s.each x.passEnds fun s e => s.freeStash e.1 e.2

/-- Ends the program of thread k: the stash entry of a backward program waits for the end of the pass (Table 3-8), the pins of
evaluation slots are released (R255). -/
def State.endProg (s : State) (k : Nat) : State :=
  let t := s.thread k
  let s := s.setThread k { tag := t.tag, ended := true }
  let s := s.each t.pins fun s q => s.unpin q.1 q.2.toNat
  match s.partOf (k / 4) with
  | none => s
  | some p =>
    s.when (k % 4 == 1) fun s =>
      let x := s.part p
      let s := match t.stash with
        | none => s
        | some e => s.when (!x.passEnds.contains e) fun s => s.setPart p { x with passEnds := x.passEnds ++ [e] }
      s.endBackward p

/-- Has thread k no item in execution but those that p picks? -/
def State.idleItems (s : State) (k : Nat) (p : Item → Bool) : Bool := !(s.items.live.any fun i => ownedBy k i && !p i)

/-- Reports a row fault of a program: the thread stops there, and the partition keeps the lowest code (R83, R95). -/
def State.rowFault (s : State) (k code : Nat) : State :=
  let t := s.thread k
  let s := s.setThread k { tag := t.tag, ended := true, stash := t.stash, pins := t.pins }
  match s.partOf (k / 4) with
  | none => s
  | some p =>
    let x := s.part p
    s.setPart p { x with fault := if x.fault = 0 then code else min x.fault code }

/-- The row of the partition of thread k. -/
def State.rowOf (s : State) (k : Nat) : Option Row :=
  match s.partOf (k / 4) with
  | none => none
  | some p => (s.part p).row

/-- The stage context on which thread k acts: p × 4 + v with the row's virtual stage for its stream (R86). -/
def State.ctxOf (s : State) (k : Nat) : Option Nat :=
  match s.partOf (k / 4) with
  | none => none
  | some p =>
    match (s.part p).row with
    | none => none
    | some r => some (4 * p + (match k % 4 with | 0 => r.fVst | 1 => r.bVst | _ => r.uVst))

end Sys2Proof.Machine
end

