-- ==== Sys2Proof/Machine/StageOps.lean ====
section
/-! DEFINITION. Operations on stage queues: slot addresses, arrival, release, fill-back and the reset of a context
(R43 to R64). -/
namespace Sys2Proof.Machine

/-- KIND of a queue (Table 2-4). -/
def State.qKind (s : State) (c q : Nat) : Nat := s.fld (Reg.stgqCfg c q) Fld.stgqCfgKind

/-- Firn slots of a queue. -/
def State.qSlots (s : State) (c q : Nat) : Nat := s.fld (Reg.stgqCfg c q) Fld.stgqCfgDepth + 1

/-- Is the queue inbound (Table 2-3)? -/
def inbound (q : Nat) : Bool := q % 2 == 0

/-- Spill slots of a queue: outbound queues have none (Table 2-21). -/
def State.qSpill (s : State) (c q : Nat) : Nat :=
  if s.fld (Reg.stgqCfg c q) Fld.stgqCfgSpillEn = 1 ∧ inbound q then s.fld (Reg.stgqSpillDepth c q) Fld.stgqSpillDepthDepth else 0

/-- Capacity C of an inbound queue (R48). -/
def State.qCap (s : State) (c q : Nat) : Nat := s.qSlots c q + s.qSpill c q

/-- Payload bytes of a slot (R49). -/
def State.qBytes (s : State) (c q : Nat) : Nat := s.fld (Reg.stgqSlot c q) Fld.stgqSlotPages * 4096

/-- Device address of the header of Firn slot i (R49). -/
def State.hdrAddr (s : State) (c q i : Nat) : Nat := firnBase + s.fld (Reg.stgqHdr c q) Fld.stgqHdrPage * 4096 + i * 64

/-- Device address of the payload of Firn slot i (R49). -/
def State.payAddr (s : State) (c q i : Nat) : Nat :=
  firnBase + s.fld (Reg.stgqFirn c q) Fld.stgqFirnPage * 4096 + i * s.qBytes c q

/-- Device address of the header of spill slot i (R62). -/
def State.spillHdr (s : State) (c q i : Nat) : Nat := s.fld (Reg.stgqSpillBase c q) Fld.stgqSpillBasePage * 4096 + i * 64

/-- Device address of the payload of spill slot i (R62). -/
def State.spillPay (s : State) (c q i : Nat) : Nat :=
  s.fld (Reg.stgqSpillBase c q) Fld.stgqSpillBasePage * 4096 + 65536 + i * s.qBytes c q

/-- The queue that the peer pairs with queue q (Table 2-3). -/
def peerQueue (q : Nat) : Nat := if q % 2 = 0 then q + 1 else q - 1

/-- Slots that the queue holds: a slot in fill-back counts once. -/
def Queue.held (x : Queue) : Nat := x.slots.length + x.spill.length - b2n x.filling

/-- Is a context in IDLE, FINISHED or RESET (R42)? -/
def State.ctxDead (s : State) (c : Nat) : Bool := s.ctxState c == 0 || s.ctxState c == 4 || s.ctxState c == 5

/-- Starts the fill-back of the oldest spilled slot where a Firn slot is free (R64). -/
def State.startFill (s : State) (c q : Nat) : State :=
  let x := s.queue c q
  s.when (!x.filling && x.spill != [] && decide (x.slots.length < s.qSlots c q)) fun s =>
    s.setQueue c q { x with filling := true, slots := x.slots ++ [{ ix := x.nextIn, resident := false }]
                            nextIn := (x.nextIn + 1) % s.qSlots c q }

/-- The virtual channel of a queue's data: 0 for activations, 1 for gradients (R44). -/
def qVc (q : Nat) : Nat := q / 2

/-- The credit record of a REMOTE inbound queue: the peer's context and queue and RELEASED, on the queue's channel in the
reverse direction (R59, Table 10-5). -/
def State.sendCredit (s : State) (c q : Nat) : State :=
  let x := s.queue c q
  let r : BitVec 16 := x.released.setWidth 16
  let p := s.reg (Reg.stgqPeer c q)
  (s.setQueue c q { x with reported := r }).sendSingle (s.reg (Reg.stgqPeerDev c q)) 2 (qVc q)
    (some (Fld.stgqPeerPort.of p)) false none
    (leBytes 1 (Fld.stgqPeerCtx.of p) ++ leBytes 1 (peerQueue q) ++ leBytes 2 r.toNat)

/-- Frees the oldest slot of an inbound queue and counts it (R52, R58). -/
def State.freeFront (s : State) (c q : Nat) : State :=
  let x := s.queue c q
  s.setQueue c q { x with slots := x.slots.drop 1, released := x.released + 1 }

/-- Frees the slots that the device has released itself as they reach the front (R57, R60). -/
def State.drainAuto (c q : Nat) : Nat → State → State
  | 0, s => s
  | n + 1, s =>
    match (s.queue c q).slots with
    | x :: _ => if x.auto then State.drainAuto c q n (s.freeFront c q) else s
    | [] => s

/-- After slots have been released: what the device itself released drains, the credit record goes out on a REMOTE queue
(R59), and a fill-back starts (R64). -/
def State.afterRelease (s : State) (c q : Nat) : State :=
  let s := State.drainAuto c q 65 s
  let s := s.when (s.qKind c q == 2 && (s.queue c q).released.setWidth 16 != (s.queue c q).reported) fun s => s.sendCredit c q
  s.startFill c q

/-- The slot header of Table 2-5 as a 512-bit number. -/
def State.slotHdr (s : State) (c q i : Nat) : Nat := leNat (s.bytes (s.hdrAddr c q i) 64)

/-- Raises an event about a queue (Table 14-8). -/
def State.queueEvent (s : State) (code c q arg1 : Nat) : State :=
  s.raise code (some (s.partJob (c / 4))) 0x0031 c (c * 256 + q) arg1

/-- Makes undefined the bytes of a copy of n bytes from a to b that could not be read. -/
def State.smearBad (s : State) (a n b : Nat) : State :=
  s.each (s.badUnits a n) fun s u =>
    let lo := max a u
    let hi := min (a + n) (u + errUnit u)
    s.smear (b + (lo - a)) (hi - lo)

/-- The fill-back of the oldest spilled slot ends: it is resident; an unreadable header waits for its TAKE, an unreadable
payload sets FLAGS.SKIP and marks the step failed (R64). -/
def State.fillBack (s : State) (c q i j : Nat) : State :=
  let sh := s.spillHdr c q j
  let bad := s.badByte sh 64
  let x := s.queue c q
  let f : InSlot → InSlot := fun y => if y.ix = i ∧ ¬ y.resident then { y with resident := true, badHdr := bad } else y
  let s := s.setQueue c q { x with slots := x.slots.map f, spill := x.spill.drop 1, filling := false }
  let s := s.chargeRange sh 64
  let s := match bad with
    | some _ => s
    | none =>
      let hdr := s.bytes sh 64
      let n := min (s.qBytes c q) (field hdr 20 4)
      let sp := s.spillPay c q j
      let skip := (s.badByte sp n).isSome
      let hdr := if skip then putField hdr 11 1 (setBits (field hdr 11 1) 1 1 1) else hdr
      let s := (s.store (s.hdrAddr c q i) hdr).store (s.payAddr c q i) (s.bytes sp n)
      let s := (s.chargeRange sp n).smearBad sp n (s.payAddr c q i)
      s.when skip fun s => s.markFailed (c / 4) (BitVec.ofNat 32 (field hdr 4 4))
  s.startFill c q

/-- The fill-back that runs ends. -/
def State.endFill (s : State) (c q : Nat) : State :=
  match (s.queue c q).slots.find? (fun y => !y.resident), (s.queue c q).spill with
  | some y, j :: _ => s.when (s.queue c q).filling fun s => s.fillBack c q y.ix j
  | _, _ => s

/-- Places an arriving slot: header and payload, in Firn or in spill (R60, R61, R63, R107). Where every position of the spill region is
in use, one by the slot in fill-back, that fill-back ends first: it began before (R64). -/
def State.arrive (s : State) (c q : Nat) (hdr pay : Bytes) : State :=
  let x := s.queue c q
  let seq := field hdr 32 4
  if s.qCap c q ≤ x.held then
    let s := s.queueEvent 0x0101 c q seq
    s.when (s.qKind c q == 2) fun s => s.sendCredit c q
  else
    let s := s.when (x.filling && decide (s.qSpill c q ≤ x.spill.length)) fun s => s.endFill c q
    let x := s.queue c q
    let ok := decide (seq = x.arrived.toNat)
    let s := if ok then s else s.queueEvent 0x0102 c q (x.arrived.toNat * 2 ^ 32 + seq)
    let x := { x with arrived := x.arrived + 1 }
    let s :=
      if decide (x.slots.length < s.qSlots c q) && x.spill == [] then
        let s := (s.store (s.hdrAddr c q x.nextIn) hdr).store (s.payAddr c q x.nextIn) pay
        s.setQueue c q { x with slots := x.slots ++ [{ ix := x.nextIn }], nextIn := (x.nextIn + 1) % s.qSlots c q }
      else
        let s := (s.store (s.spillHdr c q x.nextSpill) hdr).store (s.spillPay c q x.nextSpill) pay
        s.setQueue c q { x with spill := x.spill ++ [x.nextSpill], nextSpill := (x.nextSpill + 1) % max 1 (s.qSpill c q) }
    s.when (bit (field hdr 11 1) 1) fun s => s.markFailed (c / 4) (BitVec.ofNat 32 (field hdr 4 4))

/-- Thread k stops waiting. -/
def State.wake (s : State) (k : Nat) : State := s.setThread k { s.thread k with wait := .none }

/-- Gives a result to the flights of a queue that have none. -/
def State.endFlights (s : State) (c q : Nat) (r : Completion) : State :=
  let f : Flight → Flight := fun x => if x.result = none then { x with result := some r } else x
  s.setQueue c q { s.queue c q with flights := (s.queue c q).flights.map f }

/-- Context c is dead: SENDs already admitted to its inbound queues by LOCAL producers end QUEUE_DEAD (R361), and its FEEDs
that are not placed do so too (R405). -/
def State.consumerDied (s : State) (c : Nat) : State :=
  let s := s.each (s.queues.map Prod.fst) fun s k =>
    let (pc, pq) := (k / 4, k % 4)
    s.when (!inbound pq && s.qKind pc pq == 1 && s.fld (Reg.stgqPeer pc pq) Fld.stgqPeerCtx == c) fun s =>
      s.endFlights pc pq { status := .queueDead }
  s.each [0, 2] fun s q =>
    let s := s.each (s.queue c q).feeds fun s f => s.finish f.item { status := .queueDead }
    s.when ((s.queue c q).feeds != []) fun s => s.setQueue c q { s.queue c q with feeds := [] }

/-- The queues of a context return to their reset state: every count is zero, waiting operations and unfilled POSTs are
gone, and the threads that waited go on (R43, R361, R407). -/
def State.clearQueues (s : State) (c : Nat) : State :=
  s.each [0, 1, 2, 3] fun s q =>
    let s := s.each (s.queue c q).ops fun s o => s.wake o.key
    let s := s.each (s.queue c q).posts fun s b => s.finish b.item { status := .aborted, detail := 3 }
    let s := s.each (s.queue c q).flights fun s f =>
      match f.xid, f.buf with
      | some x, _ => (s.dropSegs x).dropXfer x
      | none, some b => s.when f.result.isNone fun s => s.finish b.item { status := .aborted, detail := 3 }
      | none, none => s
    s.setQueue c q {}

/-- The result of a flight that the consumer has placed with r: DATA_ERROR where its payload read met an error (R515). -/
def Flight.outcome (f : Flight) (r : Completion) : Completion :=
  if r.status = .done then (match f.bad with | some e => e | none => { r with count := f.len }) else r

/-- The SENDs of a queue that the consumer has placed complete with their results. -/
def State.landPlaced (s : State) (c q : Nat) : State :=
  s.each (s.queue c q).flights fun s f => match f.result with
    | some r => s.finish f.item (f.outcome r)
    | none => s

/-- The reset of a context (R43): slots, stash and counters are gone, its queue operations complete under R33. -/
def State.ctxReset (s : State) (c : Nat) : State :=
  if s.ctxState c = 0 then s
  else
    let s := s.each [1, 3] fun s q => s.landPlaced c q
    let s := s.abortItems 3 fun i => i.unit == 0x0031 && i.index == c
    let s := (s.consumerDied c).clearQueues c
    let s := s.each ((upFrom 0 64).filter fun e => (s.stashAt c e).used) fun s e => s.freeStash c e
    let s := match (s.snp c).windowPin with
      | some v => (s.setSnp c { s.snp c with windowPin := none }).unpin c v
      | none => s
    let s := s.setFld (Reg.stgCtxStatus c) Fld.stgCtxStatusBound 0
    s.setCtxState c 5

/-- Is queue q of context c bound (Table 2-19)? -/
def State.isBound (s : State) (c q : Nat) : Bool := bit (s.fld (Reg.stgCtxStatus c) Fld.stgCtxStatusBound) q

/-- The first waiting operation of a kind (Table 3-6) of a queue. -/
def Queue.op (x : Queue) (kind : Nat) : Option QOp := x.ops.find? fun o => o.kind == kind

/-- Removes the waiting operation of an item. -/
def State.dropOp (s : State) (c q item : Nat) : State :=
  s.setQueue c q { s.queue c q with ops := (s.queue c q).ops.filter fun o => o.item != item }

/-- Ends a waiting queue operation with a completion: its thread goes on. -/
def State.endOp (s : State) (c q : Nat) (o : QOp) (r : Completion) : State :=
  ((s.dropOp c q o.item).finish o.item r).wake o.key

/-- A RELEASE (R52). -/
def State.doRelease (s : State) (c q : Nat) (o : QOp) : State :=
  let s := State.drainAuto c q 65 s
  match (s.queue c q).slots with
  | x :: _ =>
    if x.taken then ((s.freeFront c q).afterRelease c q).endOp c q o {} else s.endOp c q o (malformed 0)
  | [] => s.endOp c q o (malformed 0)

/-- A SEND on a dead queue (R361): its slot is freed, the queue is dead-marked, and the event is logged once per marking. -/
def State.markDead (s : State) (c q : Nat) : State :=
  let x := s.queue c q
  if x.dead then s else (s.setQueue c q { x with dead := true }).queueEvent 0x0412 c q 0

/-- A SEND that ends QUEUE_DEAD without admission. -/
def State.sendDead (s : State) (c q : Nat) (o : QOp) : State :=
  let s := s.markDead c q
  let s := s.setQueue c q { s.queue c q with claimed := (s.queue c q).claimed.drop 1 }
  s.endOp c q o { status := .queueDead }

/-- The checks of a SEND at its issue (R54): none where it waits for credit. -/
def State.sendCheck (s : State) (c q : Nat) (o : QOp) : Option Completion :=
  if (s.queue c q).claimed = [] then some (malformed 0)
  else if bits o.flags 4 4 ≠ 0 then some (malformed 44)
  else if o.len = 0 then some { status := .empty }
  else if s.qBytes c q < o.len then some (malformed 0)
  else none

/-- What a queue operation does as it starts on a context that runs: RELEASE acts at once, a SEND is checked, TAKE and CLAIM
wait for their commands (R45, R51 to R54, R89). The context's state is checked before KIND NONE (log entry 105). -/
def State.startOp (s : State) (c q : Nat) (o : QOp) : State :=
  if s.ctxDead c then s.endOp c q o (malformed 52)
  else if s.qKind c q = 0 then s.endOp c q o (malformed 54)
  else if o.kind = 1 then s.doRelease c q o
  else if o.kind = 3 then
    match s.sendCheck c q o with
    | some r => s.endOp c q o r
    | none => if (s.queue c q).dead then s.sendDead c q o else s
  else s

/-- A context enters RUNNING once every queue whose KIND is not NONE is bound (Table 2-2), and the operations that waited
for it start (R89). -/
def State.checkBound (s : State) (c : Nat) : State :=
  if s.ctxState c = 1 ∧ [0, 1, 2, 3].all (fun q => s.qKind c q == 0 || s.isBound c q) then
    (s.setCtxState c 2).each [0, 1, 2, 3] fun s q => s.each (s.queue c q).ops fun s o => s.startOp c q o
  else s

/-- Marks queue q of context c bound. -/
def State.bindQueue (s : State) (c q : Nat) : State :=
  (s.setFld (Reg.stgCtxStatus c) Fld.stgCtxStatusBound
    (setBits (s.fld (Reg.stgCtxStatus c) Fld.stgCtxStatusBound) q 1 1)).checkBound c

end Sys2Proof.Machine
end

