-- ==== Sys2Proof/Machine/HostOps.lean ====
section
/-! DEFINITION. Message rings and interrupts of the host ports, as the units that use them see them (R408, R412 to R415). -/
namespace Sys2Proof.Machine

/-- The hidden state of a Pliand port. -/
def State.port (s : State) (p : Nat) : HostPort := s.ports.get {} p

/-- Replaces it. -/
def State.setPort (s : State) (p : Nat) (x : HostPort) : State := s.setPorts (s.ports.put {} p x)

/-- The state of a port (Table 13-1). -/
def State.portState (s : State) (p : Nat) : Nat := s.fld (Reg.plhStatus p) Fld.plhStatusState

/-- The job of a port (R417). -/
def State.portJob (s : State) (p : Nat) : Nat := s.fld (Reg.plhCfg p) Fld.plhCfgJob

/-- A host violation: row of Table 13-12, counted from 1 (R421; log entry 43). -/
def State.hostViol (s : State) (p row : Nat) : State := s.raise 0x0600 (some (s.portJob p)) 0x0010 p p row

/-- A violation that counts in PLH_VIOL. -/
def State.violate (s : State) (p row : Nat) : State := (s.bump (Reg.plhViol p)).hostViol p row

/-- The port whose message ring receives the records of job j (Table 13-14). -/
def State.mqPort (s : State) (j : Nat) : Nat := s.fld (Reg.plhTenJob j) Fld.plhTenJobMqport

/-- Is the message ring of a port enabled? -/
def State.mqOn (s : State) (p : Nat) : Bool := s.fld (Reg.plhMqCtrl p) Fld.plhMqCtrlEn == 1

/-- Units of the message ring of a port (Table 13-4). -/
def State.mqUnits (s : State) (p : Nat) : Nat := 64 * s.fld (Reg.plhMqSize p) Fld.plhMqSizePages

/-- The first 16 bytes of a message record with PHASE zero (Table 13-9). -/
def recHead (typ units : Nat) (t : W64) : Bytes :=
  leBytes 1 typ ++ leBytes 1 0 ++ leBytes 2 units ++ leBytes 4 0 ++ leBytes 8 t.toNat

/-- Bytes padded with zeros to a multiple of 64. -/
def pad64 (b : Bytes) : Bytes := b ++ List.replicate ((64 - b.length % 64) % 64) 0

/-- A SLOT record (R412). -/
def slotRecord (t : W64) (c q len : Nat) (hdr pay : Bytes) : Bytes :=
  let n := 2 + ceilDiv len 64
  pad64 (recHead 3 n t ++ leBytes 1 c ++ leBytes 1 q ++ leBytes 2 0 ++ leBytes 4 len) ++ hdr ++ pad64 (pay.take len)

/-- May a SEND of len bytes of job j go inline (R408, R414)? -/
def State.inlineOk (s : State) (j len : Nat) : Bool :=
  let i := s.fld (Reg.plhTenJob j) Fld.plhTenJobInline
  let p := s.mqPort j
  i != 0 && decide (len ≤ i * 64) && decide (2 * (2 + ceilDiv len 64) ≤ s.mqUnits p) && s.mqOn p

/-- Appends a record to those that wait for the message ring of a port (R413). -/
def State.pushRecord (s : State) (p : Nat) (r : MqRec) : State :=
  s.setPort p { s.port p with recs := (s.port p).recs ++ [r] }

/-- Port p sends INTERRUPT v now (R415). -/
def State.sendIrq (s : State) (p v : Nat) : State :=
  (s.setPort p { s.port p with irqAt := (s.port p).irqAt.put 0 v (s.now.toNat + 1)
                               irqMore := (s.port p).irqMore.filter (· != v) }).send (.interrupt p v) |>.portMsg p 0 5 (leBytes 1 v)

/-- A write went into the ring of vector v: an INTERRUPT goes out unless one went out within the holdoff (R415). -/
def State.irqWrite (s : State) (p v : Nat) : State :=
  if bit (s.fld (Reg.plhIrq p) Fld.plhIrqEn) v then
    let t := (s.port p).irqAt.get 0 v
    if t ≠ 0 ∧ s.now.toNat + 1 < t + s.fld (Reg.plhIrq p) Fld.plhIrqHoldoff * 1000 then
      s.setPort p { s.port p with irqMore := if (s.port p).irqMore.contains v then (s.port p).irqMore
                                             else (s.port p).irqMore ++ [v] }
    else s.sendIrq p v
  else s

/-! ## Reads of host memory (R392 to R394, R416) -/

/-- The port of a host window address. -/
def hostPortOf (a : Nat) : Option Nat :=
  match regionOf a with
  | some (.host n) => some n
  | _ => none

/-- Port p sends READ_REQs for n bytes at device address a of its window, 4,096 bytes at most each, k of them at most. -/
def State.askHost (p : Nat) (ring : Option Nat) (first : Nat) : Nat → Nat → Nat → State → State
  | 0, _, _, s => s
  | k + 1, a, n, s =>
    if n = 0 then s
    else
      let m := min n 4096
      let x := s.port p
      let s := (s.setPort p { x with reads := x.reads ++ [⟨x.nextTag, ring, a, m, first⟩], nextTag := x.nextTag + 1 }).send
        (.readReq p x.nextTag (a - hostBase p) m)
      let s := s.portMsg p 0 2 (leBytes 4 x.nextTag ++ leBytes 6 (a - hostBase p) ++ leBytes 2 m)
      State.askHost p ring first k (a + m) (n - m) s

/-- A unit reads n bytes at a: where they lie in a host window, READ_REQs go out for them. -/
def State.hostRead (s : State) (a n : Nat) : State :=
  match hostPortOf a with
  | some p => State.askHost p none 0 (n / 4096 + 1) a n s
  | none => s

/-- Is a read of [a, a + n) of host memory without its READ_DATA? -/
def State.hostBusy (s : State) (a n : Nat) : Bool :=
  match hostPortOf a with
  | some p => (s.port p).reads.any fun r => r.ring == none && overlaps a n r.addr r.n
  | none => false

/-- Must an access at a wait for its port, which is in GRACE (R416)? -/
def State.hostHeld (s : State) (a : Nat) : Bool :=
  match hostPortOf a with
  | some p => s.portState p == 3
  | none => false

/-- Is an access at a made to the window of a port that is not UP or in GRACE: ADDRESS_FAULT (R416)? -/
def State.hostGone (s : State) (a : Nat) : Bool :=
  match hostPortOf a with
  | some p => decide (s.portState p < 2)
  | none => false

/-- The WRITEs that port p sends last are those of a SEND: context, queue and item (R408). -/
def State.tellSend (s : State) (p : Nat) (k : Nat × Nat × Nat) : State :=
  let x := s.layer (32 + p)
  match x.txq.getLast? with
  | some g => s.setLayer (32 + p) { x with txq := x.txq.dropLast ++ [{ g with tell := some k }] }
  | none => s

/-- Port p answers a MGMT_REQ (R392, R419): request tag, status and value. -/
def State.mgmtAnswer (s : State) (p tag status : Nat) (value : W32) : State :=
  (s.send (.mgmtRsp p tag status value)).portMsg p 7 7 (leBytes 4 tag ++ leBytes 1 status ++ leBytes 4 value.toNat)

/-- Changes the INFO of a live item. -/
def State.setInfo (s : State) (id n : Nat) : State := s.modItem id fun i => { i with info := n }

end Sys2Proof.Machine
end

