-- ==== Sys2Proof/Machine/Queues.lean ====
section
/-! DEFINITION. The QUEUE words, the life of a queue operation, binding, arrival, fill-back, credit and the states of a stage
context (chapter 2; R86 to R90, R106, R255, R256, R405 to R408, R515, R516). -/
namespace Sys2Proof.Machine

/-! ## Issue of a QUEUE word (Table 3-6) -/

/-- May thread k do operation kind on queue q (R87)? -/
def State.pairOk (s : State) (k kind q : Nat) : Bool :=
  let p := (s.thread k).prog
  let bp := match s.rowOf k with | some r => r.bPart | none => 0
  (p == .pass || p == .early) && q / 2 == k % 4 && decide (k % 4 ≤ 1) && (kind / 2 == q % 2) && !(k % 4 == 1 && bp == 2)

/-- Issues a QUEUE word of operation kind: bits [50:48], then the pairing of R87, then the context's state and the queue's
kind; otherwise the operation is accepted and its thread waits for it (R79, R86 to R89); that of a SEND waits until it is admitted (log
entry 131). -/
def State.queueWord (s : State) (k kind w : Nat) : State :=
  let q := bits w 54 2
  if bits w 48 3 ≠ 0 then s.reportWord k (malformed 48)
  else if s.pairOk k kind q = false then s.reportWord k (malformed 54)
  else match s.ctxOf k with
    | none => s.reportWord k (malformed 54)
    | some c =>
      let id := s.nextId
      let s := s.accept { id := 0, unit := 0x0031, index := c, chan := k, owner := s.ownerOf k, tag := (s.thread k).tag
                          info := kind }
      let s := s.setThread k { s.thread k with wait := .item id }
      let o : QOp := { kind := kind, key := k, item := id, d := bits w 51 3, flags := bits w 40 8, fmt := bits w 32 8
                       len := bits w 0 32 }
      let s := s.setQueue c q { s.queue c q with ops := (s.queue c q).ops ++ [o] }
      if s.ctxState c = 1 then s else s.startOp c q o

/-- TAKE (R51, R86). -/
def execTake (g : ClusterId) (t : Thr) (w : BitVec 56) (s : State) : Res :=
  .next (s.issue (threadKey g t) (progWord 4 0 w.toNat) fun s => s.queueWord (threadKey g t) 0 w.toNat)

/-- RELEASE (R52, R86). -/
def execRelease (g : ClusterId) (t : Thr) (w : BitVec 56) (s : State) : Res :=
  .next (s.issue (threadKey g t) (progWord 4 1 w.toNat) fun s => s.queueWord (threadKey g t) 1 w.toNat)

/-- CLAIM (R53, R86). -/
def execClaim (g : ClusterId) (t : Thr) (w : BitVec 56) (s : State) : Res :=
  .next (s.issue (threadKey g t) (progWord 4 2 w.toNat) fun s => s.queueWord (threadKey g t) 2 w.toNat)

/-- SEND (R54, R86). -/
def execSend (g : ClusterId) (t : Thr) (w : BitVec 56) (s : State) : Res :=
  .next (s.issue (threadKey g t) (progWord 4 3 w.toNat) fun s => s.queueWord (threadKey g t) 3 w.toNat)

/-! ## TAKE (R51, R57, R70, R90, R106, R255, R256) -/

/-- The slot header as the TAKE reads it. -/
structure SlotHdr where
  tag : Tag
  kind : Nat
  flags : Nat
  fmt : Nat
  low : Nat
  high : Nat
  deriving DecidableEq, Repr

/-- Parses a slot header (Table 2-5). -/
def parseSlotHdr (x : Nat) : SlotHdr :=
  { tag := { mb := BitVec.ofNat 32 x, step := BitVec.ofNat 32 (bits x 32 32), ver := BitVec.ofNat 16 (bits x 64 16) }
    kind := bits x 80 8, flags := bits x 88 8, fmt := bits x 96 8, low := bits x 112 16, high := bits x 288 224 }

/-- The first bad field of a slot header (R57): its bit offset. -/
def badField (q : Nat) (h : SlotHdr) : Option Nat :=
  if h.kind ≠ q / 2 then some 80
  else if bits h.flags 4 4 ≠ 0 then some 92
  else if 5 < h.fmt then some 96
  else if h.low ≠ 0 then some 112
  else if h.high ≠ 0 then some 288
  else none

/-- The device releases the slot with ring index i itself (R57): its credit returns in its turn. -/
def State.autoRelease (s : State) (c q i : Nat) : State :=
  let f : InSlot → InSlot := fun x => if x.ix = i ∧ ¬ x.taken then { x with auto := true } else x
  (s.setQueue c q { s.queue c q with slots := (s.queue c q).slots.map f }).afterRelease c q

/-- A TAKE that rejects its slot: MALFORMED with a detail, the slot is released, and a malformed-slot event is logged (R57). -/
def State.rejectSlot (s : State) (c q i : Nat) (o : QOp) (d : Nat) : State :=
  ((s.endOp c q o (malformed d)).queueEvent 0x0100 c q d).autoRelease c q i

/-- A TAKE that succeeds: the slot is taken, the stream and the TAKE itself get its tag (R23), and the stream the payload's Firn-window
offset (R51, R86). -/
def State.takeSlot (s : State) (c q i : Nat) (o : QOp) (tag : Tag) (st : Option Nat) (pins : List (Nat × BitVec 16)) : State :=
  let f : InSlot → InSlot := fun x => if x.ix = i ∧ ¬ x.auto then { x with taken := true } else x
  let s := s.setQueue c q { s.queue c q with slots := (s.queue c q).slots.map f }
  let t := s.thread o.key
  let s := s.setThread o.key { t with
    tag := tag, widened := q == 2 && (st.map fun e => (s.stashAt c e).widened).getD false, stash := st.map fun e => (c, e)
    pins := t.pins ++ pins
    ag := t.ag.put 0 o.d (BitVec.ofNat 32 (s.payAddr c q i - firnBase)) }
  (s.modItem o.item fun i => { i with tag := tag }).endOp c q o {}

/-- The version that a TAKE at a HOST-fed stage gives (R90, R106): in an EVAL row the window's. -/
def State.hostVersion (s : State) (c : Nat) (eval : Bool) : Nat :=
  match (s.part (c / 4)).evalVer.find? (fun e => e.1 == c) with
  | some (_, v) => if eval then v.toNat else s.headNum c
  | none => s.headNum c

/-- The first TAKE of an evaluation window at a HOST-fed stage fixes the window's version and pins it (R106, R255). -/
def State.openWindow (s : State) (c : Nat) : State :=
  let x := s.part (c / 4)
  if x.evalVer.any fun e => e.1 == c then s
  else
    let s := s.setPart (c / 4) { x with evalVer := x.evalVer ++ [(c, BitVec.ofNat 16 (s.headNum c))] }
    match s.snpFind c (s.headNum c) with
    | none => s
    | some k => (s.setSnp c { s.snp c with windowPin := some (s.headNum c) }).pin c k

/-- The lowest free stash entry (R69). -/
def State.freeEntry (s : State) (c : Nat) : Option Nat :=
  (upFrom 0 (s.fld (Reg.stgCtxStash c) Fld.stgCtxStashEntries + 1)).find? fun e => !(s.stashAt c e).used

/-- A TAKE on AIN whose header is good, with its tag (R51, R69, R255, R277): a slot without EVAL takes a stash entry. -/
def State.takeForward (s : State) (c i : Nat) (o : QOp) (tag : Tag) (slot : Nat) (eval : Bool) : State :=
  if eval then (s.pin c slot).takeSlot c 0 i o tag none [(c, tag.ver)]
  else match s.freeEntry c with
    | none => s
    | some e =>
      let s := ((s.setStash c e { used := true, order := o.item, tag := tag }).pin c slot).zeroLog (o.key / 4) (c % 4) e
      s.takeSlot c 0 i o tag (some e) []

/-- A TAKE on AIN (R51, R90, R106, R256): it waits where its version is the open build's, where a HOST-fed stage has no HEAD,
or where no stash entry is free. FLAGS.EVAL is checked before the version (log entry 105). -/
def State.takeAin (s : State) (c i : Nat) (o : QOp) (h : SlotHdr) : State :=
  let eval := match (s.part (c / 4)).row with | some r => r.eval | none => false
  if bit h.flags 0 ≠ eval then s.rejectSlot c 0 i o 88
  else if s.qKind c 0 = 3 then
    if s.hasHead c = false then s
    else
      let s := s.when eval fun s => s.openWindow c
      let v := s.hostVersion c eval
      match s.snpFind c v with
      | none => s
      | some k =>
        s.takeForward c i o { mb := h.tag.mb, step := s.reg (Reg.stgTabStep (c / 4)), ver := BitVec.ofNat 16 v } k eval
  else match s.snpFind c h.tag.ver.toNat with
    | some k => s.takeForward c i o h.tag k eval
    | none => if s.buildOpen c ∧ s.buildNum c = h.tag.ver.toNat then s else s.rejectSlot c 0 i o 64

/-- A TAKE on GIN (R70, R106): no entry, another version, or FLAGS.EVAL in a row without EVAL, in this order (log entry 105). -/
def State.takeGin (s : State) (c i : Nat) (o : QOp) (h : SlotHdr) : State :=
  let eval := match (s.part (c / 4)).row with | some r => r.eval | none => false
  let hit := (upFrom 0 64).find? fun e =>
    let x := s.stashAt c e
    x.used && x.tag.mb == h.tag.mb && x.tag.step == h.tag.step
  match hit with
  | none => s.rejectSlot c 2 i o 0
  | some e =>
    if (s.stashAt c e).tag.ver ≠ h.tag.ver then s.rejectSlot c 2 i o 64
    else if bit h.flags 0 ∧ eval = false then s.rejectSlot c 2 i o 88
    else s.takeSlot c 2 i o h.tag (some e) []

/-- The TAKE that waits longest on an inbound queue meets the oldest untaken slot (R51, R57, R64). -/
def State.takeFront (s : State) (c q : Nat) (o : QOp) (x : InSlot) : State :=
  match x.badHdr with
  | some a => ((s.endOp c q o (dataError a 0)).autoRelease c q x.ix)
  | none =>
    match s.badByte (s.hdrAddr c q x.ix) 64 with
    | some a => (s.chargeUe a).endOp c q o (dataError a 0)
    | none =>
      let h := parseSlotHdr (s.slotHdr c q x.ix)
      match badField q h with
      | some d => s.rejectSlot c q x.ix o d
      | none => if q = 0 then s.takeAin c x.ix o h else s.takeGin c x.ix o h

/-- May queue operations of a context act (Table 2-2)? -/
def State.ctxRuns (s : State) (c : Nat) : Bool := s.ctxState c == 2 || s.ctxState c == 3

/-- TAKE_COMPLETE (R51). -/
def execTakeComplete (c : CtxId) (q : QueueId) (s : State) : Res :=
  .next (match (s.queue c q).op 0, (s.queue c q).slots.find? (fun x => !x.taken && !x.auto) with
    | some o, some x => s.when (s.ctxRuns c && x.resident) fun s => s.takeFront c q o x
    | _, _ => s)

/-! ## Fill-back (R64) -/

/-- FILL_BACK_COMPLETE (R64). -/
def execFillBackComplete (c : CtxId) (q : QueueId) (s : State) : Res := .next (s.endFill c q)

/-! ## CLAIM (R53) -/

/-- Is ring slot i of an outbound queue free? -/
def Queue.outFree (x : Queue) (i : Nat) : Bool := !(x.claimed.any fun y => y.1 == i) && !(x.flights.any fun f => f.slot == i)

/-- CLAIM_COMPLETE (R53): the slot in ring order is claimed once it is free, and the tag is written into its header. -/
def execClaimComplete (c : CtxId) (q : QueueId) (s : State) : Res :=
  .next (match (s.queue c q).op 2 with
    | none => s
    | some o =>
      let x := s.queue c q
      let i := x.nextClaim
      let tag := (s.thread o.key).tag
      let a := s.payAddr c q i - firnBase
      let n := s.qSlots c q
      s.when (s.ctxRuns c && x.outFree i) fun s =>
        let s := s.store (s.hdrAddr c q i) (leBytes 4 tag.mb.toNat ++ leBytes 4 tag.step.toNat ++ leBytes 2 tag.ver.toNat)
        let s := s.setQueue c q { x with claimed := x.claimed ++ [(i, tag)], nextClaim := (i + 1) % n }
        let t := s.thread o.key
        let s := s.setThread o.key { t with ag := t.ag.put 0 o.d (BitVec.ofNat 32 a) }
        s.endOp c q o {})

/-! ## SEND (R50, R54 to R58, R88, R361, R408, R515) -/

/-- The header of a slot as it is sent (R50, R88). -/
def State.sendHdr (s : State) (c q : Nat) (o : QOp) (tag : Tag) (seq : Nat) : Bytes :=
  let eval := match s.rowOf o.key with | some r => r.eval | none => false
  let fl := b2n eval + 2 * b2n (s.isFailed (c / 4) tag.step) + 4 * b2n (s.thread o.key).widened + 8 * b2n (bit o.flags 3)
  leBytes 4 tag.mb.toNat ++ leBytes 4 tag.step.toNat ++ leBytes 2 tag.ver.toNat ++ leBytes 1 (q / 2) ++ leBytes 1 fl ++
    leBytes 1 o.fmt ++ leBytes 1 c ++ leBytes 2 0 ++ leBytes 4 s.ownAddr.toNat ++ leBytes 4 o.len ++
    leBytes 8 s.now.toNat ++ leBytes 4 seq ++ List.replicate 28 0

/-- The peer context of a queue. -/
def State.peerCtx (s : State) (c q : Nat) : Nat := s.fld (Reg.stgqPeer c q) Fld.stgqPeerCtx

/-- RELEASED as the producer sees it: read directly on a LOCAL queue, else the latest value received (R58, R59). -/
def State.releasedSeen (s : State) (c q : Nat) : BitVec 16 :=
  if s.qKind c q = 1 then (s.queue (s.peerCtx c q) (peerQueue q)).released.setWidth 16 else (s.queue c q).seen

/-- Has the producer credit (R58)? -/
def State.hasCredit (s : State) (c q : Nat) : Bool :=
  decide (((s.queue c q).sent.toNat + 0x10000 - (s.releasedSeen c q).toNat) % 0x10000 < (s.queue c q).peerCap)

/-- What reading the payload of a slot meets: the completion of R515 where a byte cannot be read. -/
def State.payloadFault (s : State) (a n : Nat) : Option Completion :=
  (s.badByte a n).map fun b => dataError b (b - a)

/-- Admission of a SEND: SENT counts it, its slot is in flight, and its thread goes on. -/
def State.launch (s : State) (c q : Nat) (o : QOp) (f : Flight) : State :=
  let x := s.queue c q
  let s := s.setQueue c q { x with sent := x.sent + 1, claimed := x.claimed.drop 1, flights := x.flights ++ [f] }
  (s.dropOp c q o.item).wake o.key

/-- A SEND on a LOCAL queue with credit (R56). -/
def State.sendLocal (s : State) (c q : Nat) (o : QOp) (i : Nat) (tag : Tag) : State :=
  if s.ctxDead (s.peerCtx c q) then s.sendDead c q o
  else s.when (s.hasCredit c q) fun s =>
    let seq := (s.queue c q).sent.toNat
    let hdr := s.sendHdr c q o tag seq
    let s := (s.store (s.hdrAddr c q i) hdr).setReg (Reg.stgqBound c q) 0
    s.launch c q o { slot := i, len := o.len, seq := seq, item := o.item, hdr := hdr }

/-- Bytes 40 to 239 of a STAGE_SLOT segment's header (Table 10-5). -/
def slotTail (ctx q : Nat) (hdr : Bytes) : Bytes := leBytes 1 ctx ++ leBytes 1 q ++ List.replicate 22 0 ++ hdr

/-- The n payload bytes at a as the transfer delivers them: undefined from the first byte that could not be read onwards
(R515). -/
def State.deliverBytes (s : State) (a n : Nat) : Bytes :=
  match s.badByte a n with
  | none => s.bytes a n
  | some b => s.bytes a (b - a) ++ (upFrom b (a + n - b)).map fun x => Config.freeByte s.free x

/-- A SEND on a REMOTE queue with credit (R55, R325): refused, or admitted with its bound, which is 0 under no admission (log entry
104). -/
def State.sendRemote (s : State) (c q : Nat) (o : QOp) (i : Nat) (tag : Tag) : State :=
  s.when (s.hasCredit c q) fun s =>
    let seq := (s.queue c q).sent.toNat
    let bad := s.payloadFault (s.payAddr c q i) o.len
    let hdr := s.sendHdr c q o tag seq
    let out := if bad.isSome then putField hdr 11 1 (setBits (field hdr 11 1) 1 1 1) else hdr
    let (r, x, bound) := s.tick.submit {
      dest := s.reg (Reg.stgqPeerDev c q), typ := 1, vc := qVc q
      port := some (s.fld (Reg.stgqPeer c q) Fld.stgqPeerPort)
      tail := slotTail (s.peerCtx c q) (peerQueue q) out, body := s.deliverBytes (s.payAddr c q i) o.len, why := .slot c q }
    match (r.fab.xfers.find? fun t => t.xid == x).bind Xfer.ended with
    | some e => (r.dropXfer x).endOp c q o e
    | none =>
      let r := r.when bad.isSome fun r => r.chargeRange (r.payAddr c q i) o.len
      let r := (r.store (r.hdrAddr c q i) hdr).setReg (Reg.stgqBound c q) (BitVec.ofNat 32 bound)
      r.launch c q o { slot := i, len := o.len, seq := seq, item := o.item, xid := some x, hdr := hdr, bad := bad }

/-- Replaces the flight of the same item. -/
def State.setFlight (s : State) (c q : Nat) (f : Flight) : State :=
  let up : Flight → Flight := fun y => if y.item = f.item then f else y
  s.setQueue c q { s.queue c q with flights := (s.queue c q).flights.map up }

/-- The bytes of a flight's payload that reach its buffer. -/
def Flight.sentBytes (f : Flight) : Nat := match f.bad with | some e => e.count | none => f.len

/-- The POST of a flight's buffer completes as its SEND does, or with r where nothing was written (R407). -/
def State.endPost (s : State) (f : Flight) (b : PostBuf) (r : Completion) : State :=
  (s.setInfo b.item f.seq).finish b.item r

/-- The WRITEs of a flight's buffer leave: the header as it was sent, then payload up to the first byte that could not be read
(R407, R408). -/
def State.fillBuffer (s : State) (c q : Nat) (f : Flight) (b : PostBuf) : State :=
  let p := (hostPortOf b.addr).getD 0
  let f := { f with bad := s.payloadFault (s.payAddr c q f.slot) f.len, wrote := some p }
  let s := s.when f.bad.isSome fun s => s.chargeRange (s.payAddr c q f.slot) f.len
  let s := (s.store b.addr f.hdr).store (b.addr + 64) (s.bytes (s.payAddr c q f.slot) f.sentBytes)
  (s.tellSend p (c, q, f.item)).setFlight c q f

/-- The oldest flight of a HOST queue fills its buffer, where it has not begun to: the SENDs of a queue are delivered one at a time, in
SEQ order (R408). A window in GRACE holds it back, and one that is gone ends it (R416). -/
def State.fillNext (s : State) (c q : Nat) : State :=
  match (s.queue c q).flights.head? with
  | none => s
  | some f =>
    match f.buf with
    | none => s
    | some b =>
      s.when (f.wrote.isNone && f.result.isNone && !s.hostHeld b.addr) fun s =>
        if s.hostGone b.addr then (s.endPost f b (addressFault b.addr)).setFlight c q { f with result := some (addressFault b.addr) }
        else s.fillBuffer c q f b

/-- Every WRITE of a SEND has been acknowledged (R303, R408): the slot is delivered, and the POST of its buffer completes. -/
def State.hostAcked (s : State) (k : Nat × Nat × Nat) : State :=
  match (s.queue k.1 k.2.1).flights.find? fun f => f.item == k.2.2 && f.wrote.isSome && f.result.isNone with
  | none => s
  | some f =>
    let s := s.setFlight k.1 k.2.1 { f with result := some {} }
    match f.buf, f.bad with
    | some b, some e => s.endPost f b { e with count := 64 + f.sentBytes }
    | some b, none => s.endPost f b { count := 64 + f.sentBytes }
    | none, _ => s

/-- A SEND on a HOST queue: into the oldest buffer, else inline once every slot before it is delivered, else it waits (R408).
One that cannot be read ends an inline delivery DATA_ERROR with its slot claimed (log entry 10). -/
def State.sendHost (s : State) (c q : Nat) (o : QOp) (i : Nat) (tag : Tag) : State :=
  let seq := (s.queue c q).sent.toNat
  let hdr := s.sendHdr c q o tag seq
  let f : Flight := { slot := i, len := o.len, seq := seq, item := o.item, hdr := hdr }
  let j := s.partJob (c / 4)
  match (s.queue c q).posts with
  | b :: r =>
    let s := (s.store (s.hdrAddr c q i) hdr).setReg (Reg.stgqBound c q) 0
    ((s.setQueue c q { s.queue c q with posts := r }).launch c q o { f with buf := some b }).fillNext c q
  | [] =>
    s.when (s.inlineOk j o.len && (s.queue c q).flights.all fun f => f.result.isSome) fun s =>
      match s.payloadFault (s.payAddr c q i) o.len with
      | some e => (s.chargeRange (s.payAddr c q i) o.len).endOp c q o { e with count := 0 }
      | none =>
        let s := (s.store (s.hdrAddr c q i) hdr).setReg (Reg.stgqBound c q) 0
        let r := slotRecord s.now c q o.len hdr (s.bytes (s.payAddr c q i) o.len)
        (s.pushRecord (s.mqPort j) { bytes := r, event := false, slot := some (c, q) }).launch c q o f

/-- SEND_ADMIT (R54, R55, R58). -/
def execSendAdmit (c : CtxId) (q : QueueId) (s : State) : Res :=
  .next (match (s.queue c q).op 3 with
    | none => s
    | some o =>
      s.when (s.ctxRuns c) fun s =>
        match s.sendCheck c q o, (s.queue c q).claimed with
        | some r, _ => s.endOp c q o r
        | none, [] => s.endOp c q o (malformed 0)
        | none, (i, tag) :: _ =>
          if (s.queue c q).dead then s.sendDead c q o
          else match s.qKind c q with
            | 1 => s.sendLocal c q o i tag
            | 2 => s.sendRemote c q o i tag
            | _ => s.sendHost c q o i tag)

/-- The SEND of a flight completes with r: its slot is free; QUEUE_DEAD dead-marks the queue (R54, R361). -/
def State.land (s : State) (c q : Nat) (f : Flight) (r : Completion) : State :=
  let s := s.setQueue c q { s.queue c q with flights := (s.queue c q).flights.filter fun x => x.slot != f.slot }
  let s := s.when (r.status == .queueDead) fun s => s.markDead c q
  s.finish f.item r

/-- SEND_COMPLETE (R54): the oldest flight that its consumer has placed; the next one of a HOST queue begins to fill its buffer (R408). -/
def execSendComplete (c : CtxId) (q : QueueId) (s : State) : Res :=
  .next (match (s.queue c q).flights.find? fun f => f.result.isSome with
    | none => s
    | some f =>
      match f.result with
      | some r => (s.land c q f (f.outcome r)).fillNext c q
      | none => s)

/-! ## Binding (R47) -/

/-- May inbound queue q of context c, of endpoint kind KIND, answer a bind request (R47)? The queue that matches a producer's is the one
that Table 2-3 pairs with it in the peer context, of the same KIND (log entry 100). -/
def State.answers (s : State) (c q kind : Nat) : Bool :=
  inbound q && (s.ctxState c == 1 || s.ctxState c == 2) && s.qKind c q == kind

/-- The producer takes the answer to its bind request (R47): CFG_ERR shows 0x5 while a queue's slots are larger than its consumer's. -/
def State.takeAnswer (s : State) (c q cap pages : Nat) : State :=
  let large := decide (pages < s.fld (Reg.stgqSlot c q) Fld.stgqSlotPages)
  let s := s.setQueue c q { s.queue c q with tooLarge := large, peerCap := if large then (s.queue c q).peerCap else cap }
  let any := [1, 3].any fun p => (s.queue c p).tooLarge
  (s.setFld (Reg.stgCtxStatus c) Fld.stgCtxStatusCfgErr (if any then 5 else 0)).when (!large) fun s => s.bindQueue c q

/-- BIND_REQUEST (R47): a LOCAL peer that can answer does so at once. -/
def execBindRequest (c : CtxId) (q : QueueId) (s : State) : Res :=
  .next (s.when (s.ctxState c == 1 && !inbound q && !s.isBound c q) fun s =>
    match s.qKind c q with
    | 1 =>
      let pc := s.peerCtx c q
      let pq := peerQueue q
      s.when (s.answers pc pq 1) fun s =>
        (s.takeAnswer c q (s.qCap pc pq) (s.fld (Reg.stgqSlot pc pq) Fld.stgqSlotPages)).when (!s.isBound pc pq) fun s =>
          s.bindQueue pc pq
    | 2 => s.send (.bindRequest c q)
    | _ => s)

/-- BIND_ANSWER_RECEIVE (R47). -/
def execBindAnswerReceive (c : CtxId) (q : QueueId) (capacity pages : Nat) (s : State) : Res :=
  .next (s.when (s.ctxState c == 1 && !inbound q && s.qKind c q == 2 && !s.isBound c q) fun s => s.takeAnswer c q capacity pages)

/-- BIND_REQUEST_RECEIVE (R47): a REMOTE producer's request; the inbound queue answers with its capacity and slot size. -/
def execBindRequestReceive (c : CtxId) (q : QueueId) (s : State) : Res :=
  .next (s.when (s.answers c q 2) fun s =>
    let s := s.send (.bindAnswer c q (s.qCap c q) (s.fld (Reg.stgqSlot c q) Fld.stgqSlotPages))
    s.when (!s.isBound c q) fun s => s.bindQueue c q)

/-! ## Arrival (R60 to R63) -/

/-- Places the oldest flight of a LOCAL producer queue that is not placed yet, with its header as it was sent (R50, R56, R515); one that
a full queue drops is not placed (R61; log entry 91). -/
def State.arriveLocal (s : State) (c q pc pq : Nat) : State :=
  match (s.queue pc pq).flights.find? (fun f => f.result == none && !f.dropped) with
  | none => s
  | some f =>
    let bad := s.payloadFault (s.payAddr pc pq f.slot) f.len
    let hdr := if bad.isSome then putField f.hdr 11 1 (setBits (field f.hdr 11 1) 1 1 1) else f.hdr
    let pay := s.deliverBytes (s.payAddr pc pq f.slot) f.len
    let full := decide (s.qCap c q ≤ (s.queue c q).held)
    let s := (s.when bad.isSome fun s => s.tick.chargeRange (s.payAddr pc pq f.slot) f.len).arrive c q hdr pay
    let up : Flight → Flight := fun x =>
      if x.slot ≠ f.slot then x else if full then { x with dropped := true } else { x with bad := bad, result := some {} }
    s.setQueue pc pq { s.queue pc pq with flights := (s.queue pc pq).flights.map up }

/-- The header of a FEED's slot (R405). -/
def State.feedHdr (s : State) (q : Nat) (f : Feed) : Bytes :=
  leBytes 4 f.mb.toNat ++ leBytes 4 f.tag.step.toNat ++ leBytes 2 f.tag.ver.toNat ++ leBytes 1 (q / 2) ++ leBytes 1 f.flags ++
    leBytes 1 f.fmt ++ leBytes 1 0xFF ++ leBytes 2 0 ++ leBytes 4 s.ownAddr.toNat ++ leBytes 4 f.len ++
    leBytes 8 f.time.toNat ++ leBytes 4 f.seq ++ List.replicate 28 0

/-- Places the oldest FEED in transfer (R405); data that cannot be read end it DATA_ERROR without a slot (log entry 23). -/
def State.arriveFeed (s : State) (c q : Nat) : State :=
  match (s.queue c q).feeds.find? Feed.started with
  | none => s
  | some f => s.when (!s.hostBusy f.addr f.len && !s.hostHeld f.addr) fun s =>
    let s := s.setQueue c q { s.queue c q with feeds := (s.queue c q).feeds.filter fun x => x.item != f.item }
    match s.badByte f.addr f.len with
    | some b => (s.chargeUe b).finish f.item (dataError b 0)
    | none =>
      let s := s.arrive c q (s.feedHdr q f) (s.bytes f.addr f.len)
      (s.setInfo f.item f.seq).finish f.item { count := f.len }

/-- SLOT_ARRIVAL (R60, R61, R63). -/
def execSlotArrival (c : CtxId) (q : QueueId) (a : Arrival) (s : State) : Res :=
  .next (s.when (inbound q && !s.ctxDead c) fun s =>
    match a with
    | .fromLocal pc pq =>
      s.when (s.qKind c q == 1 && s.qKind pc pq == 1 && !inbound pq && s.peerCtx pc pq == c && peerQueue pq == q) fun s =>
        s.arriveLocal c q pc pq
    | .fromFabric hdr pay => s.when (s.qKind c q == 2) fun s => s.arrive c q ((hdr ++ List.replicate 64 0).take 64) pay
    | .fromFeed => s.when (s.qKind c q == 3) fun s => s.arriveFeed c q)

/-! ## Credit (R58, R59) and stalls (R68) -/

/-- CREDIT_RECORD_REFRESH (R59): the count differs from the last value sent. -/
def execCreditRecordRefresh (c : CtxId) (q : QueueId) (s : State) : Res :=
  .next (s.when (inbound q && s.qKind c q == 2 && (s.queue c q).released.setWidth 16 != (s.queue c q).reported) fun s =>
    s.sendCredit c q)

/-- The producer receives a RELEASED count (R58). -/
def State.creditReceive (s : State) (c q : Nat) (r : BitVec 16) : State :=
  s.when (!inbound q && s.qKind c q == 2) fun s => s.setQueue c q { s.queue c q with seen := r }

/-- CREDIT_RECORD_RECEIVE (R58). -/
def execCreditRecordReceive (c : CtxId) (q : QueueId) (released : BitVec 16) (s : State) : Res :=
  .next (s.creditReceive c q released)

/-- STAGE_QUEUE_STALL (R68): the operation that waits longest has waited us microseconds. -/
def execStageQueueStall (c : CtxId) (q : QueueId) (us : Nat) (s : State) : Res :=
  .next (match (s.queue c q).ops.find? (fun o => !o.logged) with
    | none => s
    | some o =>
      let lim := s.fld (Reg.stgCtxCtrl c) Fld.stgCtxCtrlWaitLimit
      s.when (lim != 0 && decide (lim < us)) fun s =>
        let f : QOp → QOp := fun x => if x.item = o.item then { x with logged := true } else x
        (s.setQueue c q { s.queue c q with ops := (s.queue c q).ops.map f }).queueEvent 0x0103 c q us)

/-! ## States of a stage context (R40, R41, R516) -/

/-- Does n bytes at Firn device address a lie entirely in slices of partition p (R49)? -/
def State.inSlices (s : State) (p a n : Nat) : Bool :=
  decide (firnBase ≤ a ∧ a + n ≤ firnBase + 512 * sliceSize) &&
    ((upFrom ((a - firnBase) / sliceSize) ((a - firnBase + max n 1 - 1) / sliceSize + 1 - (a - firnBase) / sliceSize)).all
      fun g => s.mapHas p g)

/-- Is n bytes at a HBM owned by a job (R37, R62)? -/
def State.hbmOwned (s : State) (job a n : Nat) : Bool :=
  regionOf a == some .hbm && (s.rangeFault (some job) a n).isNone

/-- Is n bytes of Firn at a owned by a job: a lent window belongs to the guest (R37, R104)? -/
def State.firnOwned (s : State) (job a n : Nat) : Bool := (s.rangeFault (some job) a n).isNone

/-- The CFG_ERR conditions of queue q of context c (R37, R516, Tables 2-19 and 2-21; log entry 101). -/
def State.queueCfgErr (s : State) (c q : Nat) : List Nat :=
  let job := s.partJob (c / 4)
  let depth := s.fld (Reg.stgqSpillDepth c q) Fld.stgqSpillDepthDepth
  (if 1024 < depth then [4] else []) ++
  if s.qKind c q = 0 then []
  else
    let pages := s.fld (Reg.stgqSlot c q) Fld.stgqSlotPages
    let spill := inbound q && s.fld (Reg.stgqCfg c q) Fld.stgqCfgSpillEn == 1
    let size := s.qSlots c q * pages * 4096
    (if pages = 0 then [1] else []) ++
      (if s.inSlices (c / 4) (s.hdrAddr c q 0) 4096 && s.inSlices (c / 4) (s.payAddr c q 0) size then [] else [2]) ++
      (if s.firnOwned job (s.hdrAddr c q 0) 4096 && s.firnOwned job (s.payAddr c q 0) size then [] else [3]) ++
      (if spill && !s.hbmOwned job (s.spillHdr c q 0) (65536 + depth * pages * 4096) then [3] else []) ++
      (if s.qKind c q = 1 ∧ s.partJob (s.peerCtx c q / 4) ≠ job then [7] else [])

/-- The CFG_ERR conditions of a context (R516; log entry 101). -/
def State.ctxCfgErr (s : State) (c : Nat) : List Nat :=
  let p := c / 4
  let mode := s.fld (Reg.stgCtxStash c) Fld.stgCtxStashMode
  let page := s.fld (Reg.stgCtxStashBase c) Fld.stgCtxStashBasePage
  let pages := s.fld (Reg.stgCtxStashPages c) Fld.stgCtxStashPagesPages
  let size := (s.fld (Reg.stgCtxStash c) Fld.stgCtxStashEntries + 1) * pages * 4096
  (if pages = 0 then [1] else []) ++
    (if mode < 2 ∧ (2 ^ 19 ≤ page ∨ s.inSlices p (firnBase + page * 4096) size = false) then [2] else []) ++
    (if mode < 2 ∧ s.firnOwned (s.partJob p) (firnBase + page * 4096) size = false then [3] else []) ++
    (if 2 ≤ mode ∧ s.hbmOwned (s.partJob p) (page * 4096) size = false then [3] else []) ++
    (if s.partOn p ∧ c % 4 ≤ s.afld (Reg.stgPartCtrl p) Fld.stgPartCtrlVstages then [] else [6]) ++
    [0, 1, 2, 3].flatMap (s.queueCfgErr c)

/-- ENABLE is written 1 (R516): the context stays IDLE with the lowest code that holds, or enters BINDING, where a HOST queue is
bound at once. -/
def State.enableCtx (s : State) (c : Nat) : State :=
  s.when (s.ctxState c == 0) fun s =>
    let e := s.ctxCfgErr c
    let s := s.setFld (Reg.stgCtxStatus c) Fld.stgCtxStatusCfgErr (if e = [] then 0 else e.foldl min 15)
    s.when (e == []) fun s =>
      let s := s.each [0, 1, 2, 3] fun s q => s.setQueue c q { (s.queue c q) with
        nextClaim := 0, nextIn := 0, nextSpill := 0, dead := false, tooLarge := false }
      let s := (s.setCtxState c 1).setFld (Reg.stgCtxCtrl c) Fld.stgCtxCtrlEnable 1
      let s := s.each ([0, 1, 2, 3].filter fun q => s.qKind c q == 3) fun s q => s.bindQueue c q
      s.checkBound c

/-- CTX_ENABLE (R516). -/
def execCtxEnable (c : CtxId) (s : State) : Res := .next (s.enableCtx c)

/-- ENABLE is written 0 in FINISHED or RESET (Table 2-2): the context is IDLE, and its counts are zero. -/
def State.disableCtx (s : State) (c : Nat) : State :=
  s.when (s.ctxState c == 4 || s.ctxState c == 5) fun s =>
    let s := s.clearQueues c
    let s := ((s.setCtxState c 0).setFld (Reg.stgCtxStatus c) Fld.stgCtxStatusBound 0)
    (s.setFld (Reg.stgCtxCtrl c) Fld.stgCtxCtrlEnable 0).setFld (Reg.stgCtxCtrl c) Fld.stgCtxCtrlFinish 0

/-- CTX_DISABLE (R40). -/
def execCtxDisable (c : CtxId) (s : State) : Res := .next (s.disableCtx c)

/-- FINISH is written 1 in RUNNING (Table 2-2). -/
def State.finishCtx (s : State) (c : Nat) : State :=
  s.when (s.ctxState c == 2) fun s => (s.setCtxState c 3).setFld (Reg.stgCtxCtrl c) Fld.stgCtxCtrlFinish 1

/-- CTX_FINISH (R40). -/
def execCtxFinish (c : CtxId) (s : State) : Res := .next (s.finishCtx c)

/-- Does the drain condition of R41 hold? -/
def State.drained (s : State) (c : Nat) : Bool :=
  ([0, 1, 2, 3].all fun q =>
    let x := s.queue c q
    x.slots == [] && x.spill == [] && x.claimed == [] && x.flights == [] && x.ops == []) &&
    !((upFrom 0 64).any fun e => (s.stashAt c e).used)

/-- CTX_DRAINED (R41). -/
def execCtxDrained (c : CtxId) (s : State) : Res :=
  .next (s.when (s.ctxState c == 3 && s.drained c) fun s => (s.setCtxState c 4).consumerDied c)

end Sys2Proof.Machine
end

