-- ==== Sys2Proof/Machine/Tablature.lean ====
section
/-! DEFINITION. The CONTROL words, program fetch, the rows of a tablature, the partition barrier, early forwards, the update
stream and fill programs (chapter 3; R255, R275, R276, R517). -/
namespace Sys2Proof.Machine

/-! ## CONTROL words (Table 3-4, R81 to R84) -/

/-- Issues a CONTROL word whose reserved bits are those of a mask: MALFORMED with the lowest that is set, else f. -/
def State.control (s : State) (k w mask : Nat) (f : State → State) : State :=
  match lowReserved w mask with
  | some d => s.reportWord k (malformed d)
  | none => f (s.reportWord k {})

/-- CTRL_NOP (R82). -/
def execCtrlNop (g : ClusterId) (t : Thr) (w : BitVec 56) (s : State) : Res :=
  .next (s.issue (threadKey g t) (progWord 3 0 w.toNat) fun s => s.control (threadKey g t) w.toNat (2 ^ 56 - 1) id)

/-- Writes address register d of thread k. -/
def State.setAg (s : State) (k d : Nat) (v : W32) : State :=
  s.setThread k { s.thread k with ag := (s.thread k).ag.put 0 d v }

/-- The reserved bits of SETA and ADDA. -/
def setaReserved : Nat := 0x1F * 2 ^ 51 + 0xFFFF * 2 ^ 32

/-- CTRL_SETA (R82). -/
def execCtrlSeta (g : ClusterId) (t : Thr) (w : BitVec 56) (s : State) : Res :=
  .next (s.issue (threadKey g t) (progWord 3 2 w.toNat) fun s => s.control (threadKey g t) w.toNat setaReserved fun s =>
    s.setAg (threadKey g t) (bits w.toNat 48 3) (BitVec.ofNat 32 w.toNat))

/-- CTRL_ADDA (R82). -/
def execCtrlAdda (g : ClusterId) (t : Thr) (w : BitVec 56) (s : State) : Res :=
  .next (s.issue (threadKey g t) (progWord 3 3 w.toNat) fun s => s.control (threadKey g t) w.toNat setaReserved fun s =>
    let d := bits w.toNat 48 3
    s.setAg (threadKey g t) d (s.ag (threadKey g t) d + BitVec.ofNat 32 w.toNat))

/-- CTRL_GROUP (R81). -/
def execCtrlGroup (g : ClusterId) (t : Thr) (w : BitVec 56) (s : State) : Res :=
  .next (s.issue (threadKey g t) (progWord 3 5 w.toNat) fun s => s.control (threadKey g t) w.toNat ((2 ^ 53 - 1) * 8) fun s =>
    s.setThread (threadKey g t) { s.thread (threadKey g t) with grp := bits w.toNat 0 3 })

/-- CTRL_WAIT (R81): the thread waits while an item of a named group is in execution. -/
def execCtrlWait (g : ClusterId) (t : Thr) (w : BitVec 56) (s : State) : Res :=
  let k := threadKey g t
  .next (s.issue k (progWord 3 6 w.toNat) fun s => s.control k w.toNat ((2 ^ 48 - 1) * 256) fun s =>
    s.when (s.items.live.any (inGroups k (bits w.toNat 0 8))) fun s =>
      s.setThread k { s.thread k with wait := .groups (bits w.toNat 0 8) })

/-- The pc and loop stack after a body of n words from pc on is skipped (R84). -/
def skipBody (loops : List Loop) (pc n : Nat) : Nat × List Loop := stepPc loops (pc + 8 * n)

/-- The effect of a LOOP word on its thread (R82, R84): answers its completion with the next pc and loop stack. -/
def loopWord (t : Thread) (w : Nat) : Completion × Nat × List Loop :=
  let n := bits w 16 16
  let count := if bit w 52 then (t.ag.get 0 (bits w 48 3)).toNat else bits w 0 16
  let res := lowReserved w (0x7 * 2 ^ 53 + 2 ^ 51 + 0xFFFF * 2 ^ 32)
  if n = 0 then (malformed 16, stepPc t.loops t.pc)
  else match res with
    | some d => (malformed d, skipBody t.loops t.pc n)
    | none =>
      if count = 0 then ({ status := .empty }, skipBody t.loops t.pc n)
      else if 4 ≤ t.loops.length then (malformed 56, skipBody t.loops t.pc n)
      else ({}, t.pc + 8, { first := t.pc + 8, last := t.pc + 8 * n, left := count } :: t.loops)

/-- CTRL_LOOP (R84). -/
def execCtrlLoop (g : ClusterId) (t : Thr) (w : BitVec 56) (s : State) : Res :=
  let k := threadKey g t
  .next (s.issueTo k (progWord 3 4 w.toNat) fun s =>
    let r := loopWord (s.thread k) w.toNat
    let s := s.reportWord k r.1
    s.setThread k { s.thread k with pc := r.2.1, loops := r.2.2 })

/-- Frees the record of a handler that ends (R356): its place is the oldest record of the ring of its cluster. -/
def State.freeRecord (s : State) (g : Nat) : State :=
  let r := s.drift.rings.get {} g
  s.setDrift { s.drift with rings := s.drift.rings.put {} g { r with recs := r.recs.drop 1 } }

/-- Ends the program of a thread, and frees the record of a handler (R83, R356). -/
def State.closeProg (s : State) (k : Nat) : State :=
  let h := (s.thread k).prog == .handler
  (s.endProg k).when h fun s => s.freeRecord (k / 4)

/-- Ends a program that waits at its END where nothing of it is left in execution (R83). -/
def State.tryEnd (s : State) (k : Nat) : State :=
  s.when ((s.thread k).wait == .ending && s.idleItems k fun _ => false) fun s => s.closeProg k

/-- CTRL_END (R83). -/
def execCtrlEnd (g : ClusterId) (t : Thr) (w : BitVec 56) (s : State) : Res :=
  let k := threadKey g t
  .next (s.issue k (progWord 3 1 w.toNat) fun s => s.control k w.toNat (2 ^ 56 - 1) fun s =>
    (s.setThread k { s.thread k with wait := .ending }).tryEnd k)

/-- LAYERDONE (R101): counts cluster g for the layer; the last cluster's count appends the layer to the ready list. -/
def State.layerDone (s : State) (g layer : Nat) : State :=
  match s.partOf g with
  | none => s
  | some p =>
    let x := s.part p
    let by_ := match x.doneBy.find? (fun e => e.1 == layer) with | some e => e.2 | none => []
    let by_ := if by_.contains g then by_ else by_ ++ [g]
    let rest := x.doneBy.filter fun e => e.1 != layer
    if by_.length = (s.partClusters p).length then
      s.setPart p { x with doneBy := rest, ready := x.ready ++ [{ layer := layer }] }
    else s.setPart p { x with doneBy := rest ++ [(layer, by_)] }

/-- LAYERDONE (R101). -/
def execLayerdone (g : ClusterId) (t : Thr) (w : BitVec 56) (s : State) : Res :=
  .next (s.issue (threadKey g t) (progWord 3 8 w.toNat) fun s => s.control (threadKey g t) w.toNat ((2 ^ 40 - 1) * 2 ^ 16) fun s =>
    s.layerDone g (bits w.toNat 0 16))

/-! ## Program fetch (R83, R517) -/

/-- A program stops where it cannot be read on: a row fault of a pass program; any other ends as at END, once every item that it has
issued has completed (R83, R517). -/
def State.stopProg (s : State) (k code : Nat) : State :=
  if (s.thread k).prog = .pass ∨ (s.thread k).prog = .early then s.rowFault k code
  else (s.setThread k { s.thread k with wait := .ending }).tryEnd k

/-- Fetches the line of the word at the pc of thread k. -/
def State.fetchLine (s : State) (k : Nat) : State :=
  let t := s.thread k
  let a := firnAddr (k / 4) (t.pc / 64 * 64)
  if sliceSize ≤ t.pc then s.stopProg k 5
  else match s.badByte a 64 with
    | some b =>
      let s := (s.chargeUe b).when (t.prog == .fill || t.prog == .handler) fun s =>
        s.raise 0x0301 (s.clusterJob (k / 4)) 0x0104 (k / 4) 0 b
      s.stopProg k 7
    | none => s.setThread k { t with lines := t.lines ++ [(t.pc / 64, s.bytes a 64)] }

/-- PROGRAM_FETCH (R77, R83): the thread has reached a line that it has not fetched. -/
def execProgramFetch (g : ClusterId) (t : Thr) (s : State) : Res :=
  let k := threadKey g t
  let x := s.thread k
  .next (s.when (x.prog != .idle && x.wait == .none && !(decide (x.pc < sliceSize) && x.fetched)) fun s =>
    s.fetchLine k)

/-! ## Rows (Table 3-7) -/

/-- The bits of a row that are reserved. -/
def rowReserved : Nat :=
  (2 ^ 13 - 1) * 2 ^ 19 + (2 ^ 13 - 1) * 2 ^ 51 + (2 ^ 13 - 1) * 2 ^ 83 + 2 ^ 119 + 3 * 2 ^ 134 + 0xF * 2 ^ 140 +
    0x3F * 2 ^ 154 + 0x3F * 2 ^ 170 + (2 ^ 32 - 1) * 2 ^ 224

/-- Parses a row. -/
def parseRow (x : Nat) : Row :=
  { rep := bits x 96 16, fEn := bit x 112, bEn := bit x 113, uEn := bit x 114, bPart := bits x 115 2, stepEnd := bit x 117
    eval := bit x 118, fPrio := bits x 120 2, bPrio := bits x 122 2, uPrio := bits x 124 2, wait := bits x 126 2
    fVst := bits x 128 2, bVst := bits x 130 2, uVst := bits x 132 2, cond := bits x 136 4, next := bits x 144 10
    alt := bits x 160 10, arg := bits x 176 16, limit := bits x 192 32 }

/-- The programs that a copy of a row names, as slice offsets in bytes (R77). -/
def parseProgs (x : Nat) : Progs := { f := bits x 0 19 * 8, b := bits x 32 19 * 8, u := bits x 64 19 * 8 }

/-- The fault code of a row that could be read: the lowest of Table 3-11 that applies, 0 for none (R95). -/
def rowCode (x rows ix vstages : Nat) : Nat :=
  let r := parseRow x
  if x &&& rowReserved ≠ 0 then 1
  else if r.bPart = 3 ∨ (r.bPart ≠ 0 ∧ !r.bEn) ∨ (r.eval ∧ (r.bEn ∨ r.uEn)) then 2
  else if 4 < r.cond then 3
  else if rows ≤ r.next ∨ rows ≤ r.alt ∨ rows ≤ ix then 4
  else if (r.fEn ∧ vstages < r.fVst) ∨ (r.bEn ∧ vstages < r.bVst) ∨ (r.uEn ∧ vstages < r.uVst) then 6
  else 0

/-- The tablature enters FAULT (R95). -/
def State.tabFault (s : State) (p code : Nat) : State :=
  let s := s.setPart p { s.part p with fault := 0, phase := .none, fetchDue := false, row := none }
  let s := (s.setFld (Reg.stgTabStatus p) Fld.stgTabStatusFault code).setTab p 4
  s.raise 0x0104 (some (s.partJob p)) 0x0032 p (p * 2 ^ 16 + s.fld (Reg.stgTabStatus p) Fld.stgTabStatusRow) code

/-- Forward credit of virtual stage v (Table 3-15). -/
def State.fwdCredit (s : State) (p v : Nat) : Nat := bits (s.reg (Reg.stgTabFc p)).toNat (8 * v) 8

/-- Writes it. -/
def State.setFwdCredit (s : State) (p v n : Nat) : State :=
  s.setReg (Reg.stgTabFc p) (BitVec.ofNat 32 (setBits (s.reg (Reg.stgTabFc p)).toNat (8 * v) 8 n))

/-! ## The fill ring (R102 to R104) -/

/-- Device address of byte o of the lent window in the slice of the partition's lowest-indexed cluster (R104; log entry 107). -/
def State.ringAddr (s : State) (p o : Nat) : Nat :=
  firnAddr (s.leadCluster p) (s.fld (Reg.stgTabFillWin p) Fld.stgTabFillWinStart * 0x10000 + o)

/-- HEAD, modulo 1,024, and TAIL of the fill ring, none where nothing is lent or they cannot be read (log entries 14 and 107). -/
def State.fillRing (s : State) (p : Nat) : Option (Nat × Nat) :=
  match s.lent p with
  | none => none
  | some _ =>
    if (s.badByte (s.ringAddr p 0) 8).isSome then none
    else
      let h := leNat (s.bytes (s.ringAddr p 0) 4) % 1024
      some (h, leNat (s.bytes (s.ringAddr p 4) 4))

/-- A TAIL above 1,023 is treated as HEAD and logged (R104). -/
def State.checkTail (s : State) (p : Nat) : State :=
  match s.fillRing p with
  | some (_, t) => s.when (decide (1023 < t)) fun s => s.raise 0x0106 (some (s.partJob p)) 0x0032 p p t
  | none => s

/-- Is the fill ring empty? -/
def State.ringEmpty (s : State) (p : Nat) : Bool :=
  match s.fillRing p with
  | some (h, t) => h == t || decide (1023 < t)
  | none => true

/-- Holds an inbound queue a resident untaken slot? -/
def State.slotWaiting (s : State) (c q : Nat) : Bool := (s.queue c q).slots.any fun x => x.resident && !x.taken && !x.auto

/-- Does a fill program run before the iteration starts (R102)? -/
def State.fillWanted (s : State) (p : Nat) (r : Row) : Bool :=
  r.wait == 3 && s.fld (Reg.stgTabFill p) Fld.stgTabFillEn == 1 && !s.ringEmpty p &&
    !(r.fEn && s.slotWaiting (4 * p + r.fVst) 0) &&
    !(r.bEn && decide (r.bPart < 2) && s.slotWaiting (4 * p + r.bVst) 2)

/-- Clears every lane operand store and accumulator of a cluster, its curve slots and its vector contexts (R103, R163, R193). -/
def State.clearCluster (s : State) (g : Nat) : State :=
  let s := s.each (upFrom 0 8) fun s k =>
    let m := s.cores.get {} (8 * g + k)
    let s := s.each [0, 1] fun s b => s.setFld (Reg.cirMcBank g k b) Fld.cirMcBankValid 0
    s.setCores (s.cores.put {} (8 * g + k) { m with seed := 0, store := [], acc := [], poison := [] })
  let s := s.each (upFrom 0 4) fun s k =>
    let s := s.setCurves (s.curves.put {} (4 * g + k) {})
    (s.resetReg (Reg.cirVeTbl g k)).resetReg (Reg.cirVeTchk g k)
  let s := s.setFld (Reg.cirVeStatus g) Fld.cirVeStatusTvalid 0
  s.each (upFrom 0 4) fun s k => s.setVctxs (s.vctxs.put {} (4 * g + k) {})

/-- The lane operand stores and accumulators of a cluster have no defined content: every byte and every accumulator that is
not zero or not written is a free value (R105). -/
def State.loosenCluster (s : State) (g : Nat) : State :=
  s.each (upFrom 0 8) fun s k =>
    let m := s.cores.get {} (8 * g + k)
    (s.setCores (s.cores.put {} (8 * g + k) { m with seed := s.free + 1, store := [], acc := [] })).setFree (s.free + 1)

/-! ## Iterations (R92 to R94) -/

/-- Starts the pass program of thread k where cluster k / 4's own copy names it. -/
def State.startPass (s : State) (k : Nat) (prog : Prog) (pc : Nat) : State := s.startProg k prog pc

/-- A thread of a stream that does not run in this iteration: it has not ended a program. -/
def State.restThread (s : State) (k : Nat) : State :=
  s.when ((s.thread k).prog == .idle) fun s => s.setThread k { s.thread k with ended := false }

/-- The F stream starts, or its forward credit is used up (R100). -/
def State.startF (s : State) (p : Nat) (r : Row) : State :=
  let gs := s.partClusters p
  if r.fEn = false then s.each gs fun s g => s.restThread (4 * g)
  else if 0 < s.fwdCredit p r.fVst then
    (s.setFwdCredit p r.fVst (s.fwdCredit p r.fVst - 1)).each gs fun s g => s.restThread (4 * g)
  else s.each gs fun s g => s.startPass (4 * g) .pass (s.progs.get {} g).f

/-- The stash entry of context c that was taken first among those that await a backward pass. -/
def State.oldestEntry (s : State) (c : Nat) : Option Nat :=
  ((upFrom 0 64).filter fun e => (s.stashAt c e).used && !(s.part (c / 4)).pendingW.contains (c, e)).foldl (fun r e => match r with
    | none => some e
    | some m => if (s.stashAt c e).order < (s.stashAt c m).order then some e else some m) none

/-- The B stream of cluster g starts on stash entry e of context c, with the entry's tag. -/
def State.startEntryB (s : State) (c e g : Nat) : State :=
  let k := 4 * g + 1
  let s := s.startPass k .pass (s.progs.get {} g).b
  s.setThread k { s.thread k with tag := (s.stashAt c e).tag, widened := (s.stashAt c e).widened, stash := some (c, e) }

/-- The B stream starts; where GIN has KIND NONE, so that no TAKE names the micro-batch, it takes the oldest stash entry (R69; log
entry 102); a weight-gradient pass takes the oldest entry of the weight-pending list, or does not run (R93). -/
def State.startB (s : State) (p : Nat) (r : Row) : State :=
  let gs := s.partClusters p
  if r.bEn = false then s.each gs fun s g => s.restThread (4 * g + 1)
  else if r.bPart = 2 then
    match (s.part p).pendingW with
    | [] => s.each gs fun s g => s.restThread (4 * g + 1)
    | (c, e) :: rest =>
      let s := s.setPart p { s.part p with pendingW := rest, passEnds := [] }
      s.each gs fun s g => s.startEntryB c e g
  else
    let c := 4 * p + r.bVst
    match (if s.qKind c 2 = 0 then s.oldestEntry c else none) with
    | some e => s.each gs fun s g => s.startEntryB c e g
    | none => s.each gs fun s g => s.startPass (4 * g + 1) .pass (s.progs.get {} g).b

/-- The pass streams of an iteration start (R92). -/
def State.startStreams (s : State) (p : Nat) (r : Row) : State :=
  let s := s.when (r.wait == 3) fun s => s.each (s.partClusters p) fun s g => s.loosenCluster g
  let s := s.setPart p { s.part p with phase := .running, iterLogged := false }
  let s := (s.startF p r).startB p r
  s.each (s.partClusters p) fun s g => s.restThread (4 * g + 2)

/-- An iteration starts: a FILL row first runs fill programs while R102 asks for them. -/
def State.startIter (s : State) (p : Nat) : State :=
  match (s.part p).row with
  | none => s
  | some r =>
    let s := s.when (r.wait == 3) fun s => s.checkTail p
    if s.fillWanted p r then s.setPart p { s.part p with phase := .fillDue } else s.startStreams p r

/-! ## The end of a row (R94) -/

/-- The marks of steps that the step counter of partition p has passed by more than one end (R107). -/
def State.dropMarks (s : State) (p : Nat) : State :=
  let keep : W32 → Bool := fun m => decide ((s.reg (Reg.stgTabStep p)).toNat ≤ m.toNat + 1)
  s.setPart p { s.part p with failed := (s.part p).failed.filter keep, handled := (s.part p).handled.filter keep }

/-- STEP_END (R94, R107, R276): the step counter advances, widen levels of STICKY 0b01 units return to 0, marks of steps that
lie more than one behind end, and RUN returns to 0 where the ended step is not failed (R108); a mark that comes later is counted on the
RUN before it. -/
def State.stepEnd (s : State) (p : Nat) : State :=
  let n := s.reg (Reg.stgTabStep p)
  let s := s.setReg (Reg.stgTabStep p) (n + 1)
  let s := s.each (s.partClusters p) fun s g => s.clearWiden g 1
  let s := s.when (s.isFailed p n) fun s => s.each (upFrom (4 * p) 4) fun s c => s.mirrorMade c n.toNat
  let s := s.when (!s.isFailed p n) fun s =>
    (s.setPart p { s.part p with runWas := s.fld (Reg.stgTabSkip p) Fld.stgTabSkipRun }).setFld (Reg.stgTabSkip p) Fld.stgTabSkipRun 0
  s.dropMarks p

/-- The next row is fetched (R94). -/
def State.gotoRow (s : State) (p n : Nat) : State :=
  (s.setFld (Reg.stgTabStatus p) Fld.stgTabStatusRow n).setPart p { s.part p with fetchDue := true, phase := .none }

/-- COND is evaluated (Table 3-10). -/
def State.evalCond (s : State) (p : Nat) (r : Row) : State :=
  let step := s.reg (Reg.stgTabStep p)
  match r.cond with
  | 1 =>
    let n := r.arg % 4
    let v := (s.fld (Reg.stgTabTc p n) Fld.stgTabTcCount + 0xFFFF) % 0x10000
    if v ≠ 0 then (s.setFld (Reg.stgTabTc p n) Fld.stgTabTcCount v).gotoRow p r.alt
    else (s.setFld (Reg.stgTabTc p n) Fld.stgTabTcCount (s.fld (Reg.stgTabTc p n) Fld.stgTabTcInit)).gotoRow p r.next
  | 2 =>
    let e := s.fld (Reg.stgTabEval p) Fld.stgTabEvalEvery
    if e ≠ 0 ∧ step.toNat % e = 0 then s.gotoRow p r.alt else s.gotoRow p r.next
  | 3 => if s.isFailed p (step - 1) ∨ s.isFailed p step then s.gotoRow p r.alt else s.gotoRow p r.next
  | 4 => (s.setTab p 3).setPart p { s.part p with phase := .none }
  | _ => s.gotoRow p r.next

/-- Step (5) of R94. -/
def State.endRow (s : State) (p : Nat) : State :=
  match (s.part p).row with
  | none => s
  | some r => (s.when r.stepEnd fun s => s.stepEnd p).evalCond p r

/-! ## ROW_FETCH (R95) -/

/-- Releases the window pins of the partition's contexts: a row with EVAL = 0 ends an evaluation window (R255). -/
def State.closeWindow (s : State) (p : Nat) : State :=
  let s := s.each [4 * p, 4 * p + 1, 4 * p + 2, 4 * p + 3] fun s c =>
    match (s.snp c).windowPin with
    | some v => (s.setSnp c { s.snp c with windowPin := none }).unpin c v
    | none => s
  s.setPart p { s.part p with evalVer := [] }

/-- Runs a row that has passed its checks: every cluster takes the programs of its own copy (R77, R92). -/
def State.runRow (s : State) (p off : Nat) (r : Row) : State :=
  let s := s.when (!r.eval) fun s => s.closeWindow p
  let s := s.each (s.partClusters p) fun s g =>
    s.setProgs (s.progs.put {} g (parseProgs (leNat (s.bytes (firnAddr g off) 32))))
  let s := s.setPart p { s.part p with row := some r, fetchDue := false, phase := .none }
  let s := s.setReg (Reg.stgTabIter p) (BitVec.ofNat 32 r.rep)
  if r.rep = 0 then s.endRow p else s.startIter p

/-- Fetches and checks the row that is due (R91, R95, R517). -/
def State.fetchRow (s : State) (p : Nat) : State :=
  let i := s.fld (Reg.stgTabStatus p) Fld.stgTabStatusRow
  let off := s.afld (Reg.stgTabBase p) Fld.stgTabBaseRow0 * 32 + i * 32
  let rows := s.afld (Reg.stgTabLen p) Fld.stgTabLenRows
  if sliceSize < off + 32 then s.tabFault p (if rows ≤ i then 4 else 5)
  else
    let bad := (s.partClusters p).filterMap fun g => s.badByte (firnAddr g off) 32
    let lead := firnAddr (s.leadCluster p) off
    let x := leNat (s.bytes lead 32)
    let e := if (s.badByte lead 32).isSome then (if rows ≤ i then 4 else 7)
             else rowCode x rows i (s.afld (Reg.stgPartCtrl p) Fld.stgPartCtrlVstages)
    let e := if e = 0 ∧ bad ≠ [] then 7 else e
    let s := s.each bad fun s b => s.chargeUe b
    if e ≠ 0 then s.tabFault p e else s.runRow p off (parseRow x)

/-- ROW_FETCH (R95). -/
def execRowFetch (p : PartId) (s : State) : Res :=
  .next (s.when (s.tab p == 1 && (s.part p).fetchDue) fun s => s.fetchRow p)

/-! ## The partition barrier (R77, R94, R108) -/

/-- Has the U stream of cluster g nothing left (R101)? -/
def State.uDone (s : State) (p g : Nat) : Bool :=
  (s.thread (4 * g + 2)).prog == .idle && (s.part p).ready.all fun e => e.started.contains g

/-- Has every enabled stream of every cluster ended (R77)? -/
def State.atBarrier (s : State) (p : Nat) (r : Row) : Bool :=
  (s.partClusters p).all fun g =>
    (!r.fEn || (s.thread (4 * g)).prog == .idle) && (!r.bEn || (s.thread (4 * g + 1)).prog == .idle) && (!r.uEn || s.uDone p g)

/-- The skip policy for the steps that are marked failed (R108): answers whether the tablature stops. RUN counts a step once the step
counter has reached it, and one that is marked after its STEP_END together with the RUN before it. -/
def State.applySkip (s : State) (p : Nat) : State × Bool :=
  let x := s.part p
  let step := (s.reg (Reg.stgTabStep p)).toNat
  let new := x.failed.filter fun m => !x.handled.contains m && decide (m.toNat ≤ step)
  let late := new.any fun m => decide (m.toNat < step)
  if x.failed = [] then (s, false)
  else
    let pol := s.fld (Reg.stgTabSkip p) Fld.stgTabSkipPolicy
    let s := s.setPart p { x with handled := x.handled ++ new, skipLogged := x.skipLogged || pol == 3
                                  runWas := if late then 0 else x.runWas }
    let s := s.when (pol == 3 && !x.skipLogged) fun s =>
      s.raise 0x0005 (some (s.partJob p)) 0x0032 p (Reg.stgTabSkip p) (s.reg (Reg.stgTabSkip p)).toNat
    let s := s.bumpFld (Reg.stgTabSkip p) Fld.stgTabSkipRun (new.length + if late then x.runWas else 0)
    let run := s.fld (Reg.stgTabSkip p) Fld.stgTabSkipRun
    (s, pol == 0 || pol == 3 || (pol == 2 && decide (max 1 (s.fld (Reg.stgTabSkip p) Fld.stgTabSkipLimit) ≤ run)))

/-- The tablature stops at an iteration boundary. -/
def State.stopTab (s : State) (p : Nat) : State :=
  (s.setTab p 2).setPart p { s.part p with phase := .none, pendingStop := false }

/-- After an iteration (R94): row faults, the skip policy, a pending STOP, the next iteration, or the end of the row. -/
def State.barrier (s : State) (p : Nat) : State :=
  if (s.part p).fault ≠ 0 then s.tabFault p (s.part p).fault
  else
    let left := s.fld (Reg.stgTabIter p) Fld.stgTabIterLeft - 1
    let s := s.setFld (Reg.stgTabIter p) Fld.stgTabIterLeft left
    let r := s.applySkip p
    if r.2 ∨ (r.1.part p).pendingStop then r.1.stopTab p
    else if 0 < left then r.1.startIter p
    else r.1.endRow p

/-- PARTITION_BARRIER (R94). -/
def execPartitionBarrier (p : PartId) (s : State) : Res :=
  .next (match (s.part p).row with
    | none => s
    | some r => s.when (s.tab p == 1 && (s.part p).phase == .running && s.atBarrier p r) fun s => s.barrier p)

/-! ## Wait policies (R99 to R101) -/

/-- Does thread k wait in a TAKE or a CLAIM, or has it ended its iteration (R99)? -/
def State.inBubble (s : State) (k : Nat) : Bool :=
  let t := s.thread k
  t.prog == .idle || (match t.wait with
    | .item id => (match s.item id with | some i => i.unit == 0x0031 && (i.info == 0 || i.info == 2) | none => false)
    | _ => false)

/-- Does every enabled pass stream of the partition wait in a TAKE or a CLAIM, or has it ended (R99)? -/
def State.allWait (s : State) (p : Nat) (r : Row) : Bool :=
  (s.partClusters p).all fun g =>
    (!r.fEn || s.inBubble (4 * g)) && (!r.bEn || s.inBubble (4 * g + 1)) && (!r.uEn || s.uDone p g)

/-- EARLY_FORWARD (R100). -/
def execEarlyForward (p : PartId) (s : State) : Res :=
  .next (match (s.part p).row with
    | none => s
    | some r =>
      let gs := s.partClusters p
      let c := 4 * p.val + r.fVst
      let credit := s.fwdCredit p r.fVst
      s.when (s.tab p == 1 && (s.part p).phase == .running && r.wait == 1 && r.fEn && s.allWait p r &&
          gs.all (fun g => (s.thread (4 * g)).prog == .idle && (s.thread (4 * g)).ended) &&
          decide (credit < min 64 (s.fld (Reg.stgTabWaitcfg p) Fld.stgTabWaitcfgFcMax)) && s.slotWaiting c 0 &&
          (s.freeEntry c).isSome) fun s =>
        (s.setFwdCredit p r.fVst (credit + 1)).each gs fun s g => s.startPass (4 * g) .early (s.progs.get {} g).f)

/-- Marks entry layer of the ready list as started by cluster g; it leaves the list with the last cluster (R101). -/
def State.startEntry (s : State) (p g layer : Nat) : State :=
  let x := s.part p
  let gs := s.partClusters p
  let rec go : List LayerReady → List LayerReady
    | [] => []
    | e :: r => if e.layer = layer ∧ ¬ e.started.contains g then { e with started := e.started ++ [g] } :: r else e :: go r
  s.setPart p { x with ready := (go x.ready).filter fun e => !(gs.all fun h => e.started.contains h) }

/-- LAYER_UPDATE_RUN (R76, R101, R108): the oldest entry that cluster g has not started; U_PROG is not run for a failed step. -/
def execLayerUpdateRun (g : ClusterId) (s : State) : Res :=
  let k := 4 * g.val + 2
  .next (match s.partOf g with
    | none => s
    | some p =>
      match (s.part p).row, (s.part p).ready.find? (fun e => !e.started.contains g.val) with
      | some r, some e =>
        s.when (s.tab p == 1 && (s.part p).phase == .running && (s.thread k).prog == .idle &&
            (r.uEn || (r.wait == 2 && s.allWait p r))) fun s =>
          let step := s.reg (Reg.stgTabStep p)
          let s := s.startEntry p g e.layer
          if s.isFailed p step then s
          else
            let s := s.startPass k .pass (s.progs.get {} g).u
            let tag : Tag := { mb := 0xFFFFFFFF, step := step
                               ver := BitVec.ofNat 16 (s.fld (Reg.snpCtxHead (4 * p + r.uVst)) Fld.snpCtxHeadVersion) }
            s.setThread k { s.thread k with tag := tag, ag := (s.thread k).ag.put 0 0 (BitVec.ofNat 32 e.layer) }
      | _, _ => s)

/-! ## Fill programs (R102 to R104) -/

/-- FILL_SWITCH (R102, R103): the partition is cleared and the fill program at HEAD starts on the F threads; where the ring can no
longer be read, the iteration starts. The ring's entry is read without an error check (log entry 107). -/
def execFillSwitch (p : PartId) (s : State) : Res :=
  .next (s.when (s.tab p == 1 && (s.part p).phase == .fillDue) fun s =>
    match s.fillRing p with
    | none => match (s.part p).row with
      | some r => s.startStreams p r
      | none => s
    | some (h, _) =>
      let s := s.each (s.partClusters p) fun s g => s.clearCluster g
      let pc := bits (leNat (s.bytes (s.ringAddr p (64 + h * 8)) 8)) 0 19 * 8
      let s := s.setPart p { s.part p with phase := .filling, fillLogged := false }
      s.each (s.partClusters p) fun s g => s.startProg (4 * g) .fill pc)

/-- FILL_PROGRAM_END (R103, R104): every F thread has ended; the clear is repeated, HEAD advances, and R102 is asked again. -/
def execFillProgramEnd (p : PartId) (s : State) : Res :=
  .next (s.when ((s.part p).phase == .filling && (s.partClusters p).all fun g => (s.thread (4 * g)).prog == .idle) fun s =>
    let s := s.each (s.partClusters p) fun s g => s.clearCluster g
    let s := match s.fillRing p with
      | some (h, _) => s.store (s.ringAddr p 0) (leBytes 4 ((h + 1) % 1024))
      | none => s
    (s.bump (Reg.stgTabFills p)).startIter p)

/-- FILL_OVERRUN (R103). -/
def execFillOverrun (p : PartId) (us : Nat) (s : State) : Res :=
  let lim := s.fld (Reg.stgTabFill p) Fld.stgTabFillLimit
  .next (s.when ((s.part p).phase == .filling && lim != 0 && decide (lim < us) && !(s.part p).fillLogged) fun s =>
    (s.setPart p { s.part p with fillLogged := true }).raise 0x0105 (some (s.partJob p)) 0x0032 p p us)

/-- ITERATION_OVERRUN (R91). -/
def execIterationOverrun (p : PartId) (us : Nat) (s : State) : Res :=
  .next (match (s.part p).row with
    | none => s
    | some r =>
      s.when ((s.part p).phase == .running && r.limit != 0 && decide (r.limit < us) && !(s.part p).iterLogged) fun s =>
        (s.setPart p { s.part p with iterLogged := true }).raise 0x0107 (some (s.partJob p)) 0x0032 p
          (p * 2 ^ 16 + s.fld (Reg.stgTabStatus p) Fld.stgTabStatusRow) us)

/-! ## Tablature commands (R97) -/

/-- A write that a rule ignores: it logs a configuration-write-ignored event (Table 14-8). -/
def State.writeIgnored (s : State) (job : Option Nat) (unit index off value : Nat) : State :=
  s.raise 0x0004 job unit index off value

/-- Would START be ignored (R97)? -/
def State.startBad (s : State) (p : Nat) : Bool :=
  let rows := s.afld (Reg.stgTabLen p) Fld.stgTabLenRows
  s.tab p == 1 || rows == 0 || decide (1024 < rows) || decide (rows ≤ s.fld (Reg.stgTabCtrl p) Fld.stgTabCtrlEntry) || !s.partOn p

/-- START by a write of v (R97): FAULT is 0 again (log entry 108). -/
def State.tabStart (s : State) (p v : Nat) : State :=
  let entry := s.fld (Reg.stgTabCtrl p) Fld.stgTabCtrlEntry
  if s.startBad p then s.writeIgnored (some (s.partJob p)) 0x0032 p (Reg.stgTabCtrl p) v
  else
    let s := s.each (upFrom 0 4) fun s n => s.setFld (Reg.stgTabTc p n) Fld.stgTabTcCount (s.fld (Reg.stgTabTc p n) Fld.stgTabTcInit)
    let s := s.setReg (Reg.stgTabFc p) 0
    let s := s.setPart p { s.part p with pendingW := [], ready := [], fault := 0, pendingStop := false, phase := .none
                                         fetchDue := true, row := none }
    let s := (s.setFld (Reg.stgTabStatus p) Fld.stgTabStatusFault 0).setTab p 1
    (s.setFld (Reg.stgTabStatus p) Fld.stgTabStatusRow entry).mirrorFrom p

/-- RESUME by a write of v (R97): the stopped row goes on with its remaining iterations. -/
def State.tabResume (s : State) (p v : Nat) : State :=
  if s.tab p ≠ 2 then s.writeIgnored (some (s.partJob p)) 0x0032 p (Reg.stgTabCtrl p) v
  else
    let s := s.setTab p 1
    if 0 < s.fld (Reg.stgTabIter p) Fld.stgTabIterLeft then s.startIter p else s.endRow p

/-- STOP (R97). -/
def State.tabStop (s : State) (p : Nat) : State :=
  s.when (s.tab p == 1) fun s => s.setPart p { s.part p with pendingStop := true }

/-- TAB_START (R97). -/
def execTabStart (p : PartId) (s : State) : Res := .next (s.tabStart p (1 + s.fld (Reg.stgTabCtrl p) Fld.stgTabCtrlEntry * 16))

/-- TAB_RESUME (R97). -/
def execTabResume (p : PartId) (s : State) : Res := .next (s.tabResume p (2 + s.fld (Reg.stgTabCtrl p) Fld.stgTabCtrlEntry * 16))

/-- TAB_STOP (R97). -/
def execTabStop (p : PartId) (s : State) : Res := .next (s.tabStop p)

end Sys2Proof.Machine
end

