-- ==== Sys2Proof/Machine/Numerics.lean ====
section
/-! DEFINITION. COMMIT and its partition exchange, the widen levels and the pending counters (R269 to R281). -/
namespace Sys2Proof.Machine

/-- The COMMIT exchange of thread t of a partition (0 F, 1 B, 2 U). -/
def Part.joined (x : Part) (t : Nat) : List Joined := if t = 0 then x.joinF else if t = 1 then x.joinB else x.joinU

/-- Replaces it. -/
def Part.setJoined (x : Part) (t : Nat) (l : List Joined) : Part :=
  if t = 0 then { x with joinF := l } else if t = 1 then { x with joinB := l } else { x with joinU := l }

/-- The snapshot of the pending counters of set n of cluster g. -/
def State.snapSet (s : State) (g n : Nat) : SetSnap :=
  { set := n, conv := (s.reg (Reg.cirRimeConv g n)).toNat, zero := (s.reg (Reg.cirRimeZero g n)).toNat
    sat := (s.reg (Reg.cirRimeSat g n)).toNat, nonfin := (s.reg (Reg.cirRimeNonfin g n)).toNat }

/-- A COMMIT joins the exchange of its partition: it reads its entry, and takes a snapshot where that is valid (R273). -/
def State.joinCommit (s : State) (p k id layer : Nat) : State :=
  let g := k / 4
  let r := s.readEntry g layer
  let s := match r.1 with | some a => s.chargeUe a | none => s
  let j : Joined := match r.2 with
    | some e => { g := g, layer := layer, item := id, entry := some (s.bytes (firnAddr g (s.entryOff g layer)) 32), bad := none
                  snap := (onesFrom 0 64 e.sets).map (s.snapSet g) }
    | none => { g := g, layer := layer, item := id, entry := none, bad := r.1, snap := [] }
  let x := s.part p
  s.setPart p (x.setJoined (k % 4) (x.joined (k % 4) ++ [j]))

/-- A COMMIT that waits joins once every other item that its stream has issued has completed (R273). -/
def State.tryCommit (s : State) (k : Nat) : State :=
  match (s.thread k).wait, s.partOf (k / 4) with
  | .commit id layer, some p =>
    s.when (!((s.part p).joined (k % 4)).any (fun j => j.item == id) && s.idleItems k fun i => i.id == id) fun s =>
      s.joinCommit p k id layer
  | _, _ => s

/-- COMMIT (R273, R274). -/
def execCommit (g : ClusterId) (t : Thr) (w : BitVec 56) (s : State) : Res :=
  let k := threadKey g t
  .next (s.issue k (progWord 3 7 w.toNat) fun s =>
    if (s.thread k).prog = .fill ∨ (s.thread k).prog = .handler then s.reportWord k (malformed 0)
    else match lowReserved w.toNat ((2 ^ 40 - 1) * 2 ^ 16) with
      | some d => s.reportWord k (malformed d)
      | none =>
        let id := s.nextId
        let s := s.accept { id := 0, unit := 0x0106, index := g, chan := thrNat t, owner := s.ownerOf k, tag := (s.thread k).tag }
        (s.setThread k { s.thread k with wait := .commit id (bits w.toNat 0 16) }).tryCommit k)

/-- The outcomes of a COMMIT (Table 9-3). -/
inductive Outcome where
  | commit | replay | failed | saturated
  deriving DecidableEq, Repr

/-- The outcome at level k for the partition-wide sums (Table 9-3). -/
def outcomeOf (e : LayerEntry) (replay : Bool) (k sat nonfin : Nat) : Outcome :=
  if !(e.tsat && decide (0 < sat)) && !(e.tnonf && decide (0 < nonfin)) then .commit
  else if k < e.maxLevel ∧ replay then .replay
  else if e.tnonf ∧ 0 < nonfin then .failed
  else .saturated

/-- Takes a snapshot out of the pending counters of cluster g, and adds it to the totals of a committing outcome. -/
def State.settle (s : State) (g : Nat) (commits : Bool) (l : List SetSnap) : State :=
  s.each l fun s x =>
    let sub := fun (s : State) (r n : Nat) => s.setReg r (BitVec.ofNat 32 ((s.reg r).toNat - n))
    let s := sub (sub (sub (sub s (Reg.cirRimeConv g x.set) x.conv) (Reg.cirRimeZero g x.set) x.zero)
      (Reg.cirRimeSat g x.set) x.sat) (Reg.cirRimeNonfin g x.set) x.nonfin
    if commits then
      (((s.bumpBy (Reg.cirRimeTconv g x.set) x.conv).bumpBy (Reg.cirRimeTzero g x.set) x.zero).bumpBy
        (Reg.cirRimeTsat g x.set) x.sat).bumpBy (Reg.cirRimeTnonfin g x.set) x.nonfin
    else s

/-- The code of an outcome in `CIR_NU_STATUS` (Table 9-8). -/
def outcomeCode : Outcome → Nat
  | .commit => 0 | .replay => 1 | .saturated => 2 | .failed => 3

/-- The completion of a COMMIT with an outcome at level k (Table 9-3). -/
def outcomeComp (o : Outcome) (k : Nat) : Completion :=
  match o with
  | .commit => { detail := k }
  | .replay => { detail := 0x0100 + k + 1 }
  | .failed => { status := .stepFailed, detail := k }
  | .saturated => { detail := 0x0200 + k }

/-- Widen level, level log and the WIDENED mark after a committing outcome at level k (R276 to R278). -/
def State.afterCommit (s : State) (key layer k : Nat) (e : LayerEntry) : State :=
  let g := key / 4
  let s := s.when (e.sticky == 1 || e.sticky == 2) fun s => s.setWiden g layer (max k (s.widenLevel g layer))
  let s := match (s.thread key).stash with
    | some (c, i) => s.when (e.logmode == 1) fun s => s.writeLog g (c % 4) i e.logix k
    | none => s
  s.when (decide (0 < k)) fun s =>
    let s := match (s.thread key).stash with
      | some (c, i) => s.setStash c i { s.stashAt c i with widened := true }
      | none => s
    s.setThread key { s.thread key with widened := true }

/-- Steps 4 and 5 of R273 for one cluster, with the partition-wide sums. -/
def State.applyCommit (s : State) (p t sat nonfin : Nat) (j : Joined) (e : LayerEntry) : State :=
  let key := 4 * j.g + t
  let x := s.thread key
  let k := x.level
  let o := outcomeOf e (s.fld (Reg.cirNuCtrl j.g) Fld.cirNuCtrlReplay == 1) k sat nonfin
  let commits := decide (o ≠ .replay)
  let s := s.settle j.g commits j.snap
  let s := s.setReg (Reg.cirNuStatus j.g) (BitVec.ofNat 32 (j.layer + k * 2 ^ 16 + outcomeCode o * 2 ^ 18 + t * 2 ^ 20))
  let s := s.bump (if commits then Reg.cirNuCommits j.g else Reg.cirNuReplays j.g)
  let s := s.when (o == .failed) fun s => (s.bump (Reg.cirNuFails j.g)).markFailed p x.tag.step
  let sums := min sat 0xFFFFFFFF * 2 ^ 32 + min nonfin 0xFFFFFFFF
  let s := s.when (j.g == s.leadCluster p && (o == .replay || o == .saturated)) fun s =>
    if o = .replay then s.raise 0x0202 (some (s.partJob p)) 0x0106 j.g (j.layer * 2 ^ 16 + k + 1) sums
    else s.raise 0x0203 (some (s.partJob p)) 0x0106 j.g (j.layer * 2 ^ 16 + k) sums
  let s := s.when commits fun s => s.afterCommit key j.layer k e
  let s := s.finish j.item (outcomeComp o k)
  let x := s.thread key
  if o = .replay then s.setThread key { x with wait := .none, level := k + 1, pc := e.start.getD (k + 1) 0, loops := [] }
  else if k = 0 then s.setThread key { x with wait := .none, level := 0 }
  else s.setThread key { x with wait := .none, level := 0, pc := e.resume, loops := [] }

/-- An exchange that fails at step 3 of R273: every COMMIT completes without changing a counter. -/
def State.failExchange (s : State) (p t : Nat) (l : List Joined) : State :=
  let differ := l.any fun a => l.any fun b => a.layer != b.layer || a.entry.isSome != b.entry.isSome
  let s := s.when differ fun s => s.raise 0x0204 (some (s.partJob p)) 0x0106 (s.leadCluster p) p 0
  s.each l fun s j =>
    let s := s.bump (Reg.cirNuMismatch j.g)
    let s := s.finish j.item (match j.bad with | some a => dataError a 0 | none => malformed 0)
    s.wake (4 * j.g + t)

/-- Clears the pending counters of every set of cluster g (Table 9-8). -/
def State.clearPending (s : State) (g : Nat) : State :=
  s.each (upFrom 0 64) fun s n =>
    (((s.setReg (Reg.cirRimeConv g n) 0).setReg (Reg.cirRimeZero g n) 0).setReg (Reg.cirRimeSat g n) 0).setReg
      (Reg.cirRimeNonfin g n) 0

/-- Is a COMMIT of cluster g in an exchange? -/
def State.inExchange (s : State) (g : Nat) : Bool :=
  match s.partOf g with
  | none => false
  | some p => [0, 1, 2].any fun t => ((s.part p).joined t).any fun j => j.g == g

/-- Clears that waited for the COMMITs of their cluster take effect (R279). -/
def State.dueClears (s : State) : State :=
  let now := s.clrpend.filter fun g => !s.inExchange g
  ((s.setClrpend (s.clrpend.filter fun g => s.inExchange g))).each now fun s g => s.clearPending g

/-- The exchange of stream t of partition p ends: every cluster has joined (R273). -/
def State.endExchange (s : State) (p t : Nat) : State :=
  let l := (s.part p).joined t
  let gs := s.partClusters p
  s.when (gs != [] && gs.all fun g => l.any fun j => j.g == g) fun s =>
    let s := s.setPart p ((s.part p).setJoined t [])
    let one : Bool := match l with | j :: _ => l.all fun i => i.layer == j.layer | [] => false
    let s :=
      if one && l.all (fun j => j.entry.isSome) then
        let sat := sumBy (fun j => sumBy SetSnap.sat j.snap) l
        let nonfin := sumBy (fun j => sumBy SetSnap.nonfin j.snap) l
        s.each gs fun s g =>
          match l.find? fun j => j.g == g with
          | none => s
          | some j => match j.entry.bind parseEntry with
            | none => s
            | some e => s.applyCommit p t sat nonfin j e
      else s.failExchange p t l
    s.dueClears

/-- COMMIT_EXCHANGE_END (R273). -/
def execCommitExchangeEnd (p : PartId) (t : Thr) (s : State) : Res := .next (s.endExchange p (thrNat t))

/-- NU_UNSTICK (R276): the widen levels of STICKY 0b10 units return to 0. -/
def execNuUnstick (g : ClusterId) (s : State) : Res := .next (s.clearWiden g 2)

/-- CLRPEND is written 1 (R279): at once, or when the COMMITs that have joined an exchange have completed. -/
def State.clrPend (s : State) (g : Nat) : State :=
  if s.inExchange g then s.setClrpend (if s.clrpend.contains g then s.clrpend else s.clrpend ++ [g])
  else s.clearPending g

/-- NU_CLRPEND (R279). -/
def execNuClrpend (g : ClusterId) (s : State) : Res := .next (s.clrPend g)

end Sys2Proof.Machine
end

