-- ==== Sys2Proof/Machine/Copy.lean ====
section
/-! DEFINITION. COPY words, copy descriptors and the copy engines of the clusters and of the hub (R85, R200 to R216, R404,
R514, R517). -/
namespace Sys2Proof.Machine

/-- Channel ch of copy engine e. -/
def State.chan (s : State) (e ch : Nat) : Chan := s.chans.get {} (8 * e + ch)

/-- Replaces it. -/
def State.setChan (s : State) (e ch : Nat) (x : Chan) : State := s.setChans (s.chans.put {} (8 * e + ch) x)

/-- The unit code of a copy engine (Table 15-4). -/
def ceUnit (e : Nat) : Nat := if e < 512 then 0x0102 else 0x0012

/-- The instance number of a copy engine in its unit. -/
def ceIndex (e : Nat) : Nat := if e < 512 then e else e - 512

/-! ## Descriptors (Tables 7-2, 7-3) -/

/-- A copy descriptor. -/
structure Desc where
  src : Nat
  op : Nat
  after : Bool
  ch : Nat
  dst : Nat
  len : Nat
  rows : Nat
  sstride : Int
  dstride : Int
  deriving DecidableEq, Repr

/-- Parses a descriptor. -/
def parseDesc (b : Bytes) : Desc :=
  let x := leNat b
  { src := bits x 0 48, op := bits x 48 4, after := bit x 52, ch := bits x 56 3, dst := bits x 64 48, len := bits x 128 13
    rows := bits x 160 24, sstride := signed 32 (bits x 192 32), dstride := signed 32 (bits x 224 32) }

/-- The least of a list of numbers. -/
def leastOf : List Nat → Option Nat
  | [] => none
  | a :: r => optMin (some a) (leastOf r)

/-- Check 1 of R206: the lowest bit offset of a field that fails (R203, R204). -/
def descFault (b : Bytes) : Option Nat :=
  let x := leNat b
  let d := parseDesc b
  leastOf ((if d.op = 1 ∧ bits x 32 16 ≠ 0 then [32] else []) ++
    (if 3 < d.op then [48] else []) ++
    (if bits x 53 3 ≠ 0 then [53] else []) ++ (if bits x 59 5 ≠ 0 then [59] else []) ++
    (if bits x 112 16 ≠ 0 then [112] else []) ++ (if 4096 < d.len then [128] else []) ++
    (if bits x 141 3 ≠ 0 then [141] else []) ++ (if bits x 144 16 ≠ 0 then [144] else []) ++
    (if 2 ≤ d.op ∧ d.op ≤ 3 ∧ 4096 < d.rows then [160] else []) ++ (if bits x 184 8 ≠ 0 then [184] else []) ++
    (if 1 ≤ d.op ∧ d.op ≤ 2 ∧ d.sstride ≠ 0 then [192] else []) ++ (if d.op = 3 ∧ d.dstride ≠ 0 then [224] else []))

/-- An address of row r: base + r × stride, modulo 2^48 (R204). -/
def rowAddr (base : Nat) (stride : Int) (r : Nat) : Nat := wrapInt 48 (base + stride * r)

/-- The lowest faulting address of n bytes at a; a range that passes 2^48 meets address 0 (R17, R204). -/
def State.fault48 (s : State) (job : Option Nat) (a n : Nat) : Option Nat :=
  if 2 ^ 48 < a + n then some 0 else s.rangeFault job a n

/-- Entry r of an index list. -/
def State.listEntry (s : State) (a r : Nat) : Nat := leNat (s.bytes (a + 8 * r) 8)

/-- The index list of a descriptor: address and bytes; none for COPY and FILL. -/
def Desc.list (d : Desc) : Option (Nat × Nat) :=
  if d.op = 2 then some (d.src, 8 * d.rows) else if d.op = 3 then some (d.dst, 8 * d.rows) else none

/-- Source address of row r. -/
def State.srcRow (s : State) (d : Desc) (r : Nat) : Nat :=
  if d.op = 2 then s.listEntry d.src r % 2 ^ 48 else rowAddr d.src d.sstride r

/-- Destination address of row r. -/
def State.dstRow (s : State) (d : Desc) (r : Nat) : Nat :=
  if d.op = 3 then s.listEntry d.dst r % 2 ^ 48 else rowAddr d.dst d.dstride r

/-- Check 4 of R206 for the rows: the lowest faulting address; an entry with a bit in [63:48] faults at its own address
(R205). -/
def State.rowsFault (s : State) (job : Option Nat) (d : Desc) : Option Nat :=
  (upFrom 0 d.rows).foldl (fun m r =>
    let lst := match d.list with
      | some (a, _) => if 2 ^ 48 ≤ s.listEntry a r then some ((a + 8 * r) % 2 ^ 48) else none
      | none => none
    let badSrc := d.op == 2 && lst.isSome
    let badDst := d.op == 3 && lst.isSome
    let x := if d.op = 1 ∨ badSrc then none else s.fault48 job (s.srcRow d r) d.len
    let y := if badDst then none else s.fault48 job (s.dstRow d r) d.len
    optMin m (optMin lst (optMin x y))) none

/-- The span of rows as lowest byte and end. -/
def spanOf (l : List Nat) (n : Nat) : Nat × Nat := (l.foldl min (l.headD 0), l.foldl max 0 + n)

/-- Check 5 of R206: do the destination span and the source span intersect? -/
def State.spansMeet (s : State) (d : Desc) : Bool :=
  let rs := upFrom 0 d.rows
  let dst := spanOf (rs.map (s.dstRow d)) d.len
  let src := spanOf (rs.map (s.srcRow d)) d.len
  let src := match d.list with | some (a, n) => (min src.1 a, max src.2 (a + n)) | none => src
  d.op != 1 && decide (dst.1 < src.2 ∧ src.1 < dst.2)

/-- Cuts n bytes at source a, destination b at the 512-byte blocks of the memory that c addresses (R209). -/
def cutRow (a b : Nat) (fill : Bool) : Nat → Nat → List CopyReq
  | 0, _ => []
  | k + 1, n =>
    if n = 0 then []
    else
      let c := if fill then b else a
      let m := min n (512 - c % 512)
      { src := a, dst := b, len := m } :: cutRow (a + m) (b + m) fill k (n - m)

/-- The FILL data of n bytes from byte x of a row on (Table 7-3). -/
def fillData (pat x n : Nat) : Bytes := (upFrom x n).map fun i => BitVec.ofNat 8 (bits pat (8 * (i % 4)) 8)

/-- The requests of a descriptor in descriptor byte order (R207, R209). A FILL request has its data at once. -/
def State.cutDesc (s : State) (d : Desc) : List CopyReq :=
  (upFrom 0 d.rows).flatMap fun r =>
    if d.op = 1 then
      let b := s.dstRow d r
      (cutRow 0 b true 10 d.len).map fun q => { q with st := .returned, data := fillData (d.src % 2 ^ 32) (q.dst - b) q.len }
    else cutRow (s.srcRow d r) (s.dstRow d r) false 10 d.len

/-! ## Writes and completion (R208, R213, R214) -/

/-- Counts n bytes written by engine e (Table 7-7). -/
def State.ceBytes (s : State) (e n : Nat) : State :=
  let x := s.chan e 0
  let t := x.rest + n
  let s := s.setChan e 0 { x with rest := t % 1024 }
  s.when (decide (e < 512)) fun s => s.bumpBy (Reg.cirCeBytes e) (t / 1024)

/-- The writes of one descriptor that may be issued now, in cut order: answers the state and the descriptor. -/
def State.writeReqs (e : Nat) : List CopyReq → CopyDesc → State → State × CopyDesc
  | [], d, s => (s, { d with reqs := [], result := some { count := d.wrote } })
  | r :: rest, d, s =>
    match r.st with
    | .returned =>
      if s.hostHeld r.dst then (s, { d with reqs := r :: rest })
      else if s.hostGone r.dst then (s, { d with reqs := [], result := some { addressFault r.dst with count := d.wrote } })
      else State.writeReqs e rest { d with wrote := d.wrote + r.len } ((s.store r.dst r.data).ceBytes e r.len)
    | .failed => (s, { d with reqs := [], result := some { r.fail with count := d.wrote } })
    | _ => (s, { d with reqs := r :: rest })

/-- The completion of the front descriptor of a channel (R208). -/
def State.ceDone (s : State) (e : Nat) (d : CopyDesc) (c : Completion) : State :=
  let s := s.finish d.item c
  s.when (decide (e < 512)) fun s => s.setFld (Reg.cirCeStatus e) Fld.cirCeStatusLast (statusCode c.status)

/-- Issues the writes that a channel may issue, and completes its descriptors in order (R208, R213). -/
def State.pumpGo (e ch : Nat) : Nat → State → State
  | 0, s => s
  | n + 1, s =>
    match (s.chan e ch).queue with
    | [] => s
    | d :: rest =>
      if d.started = false then s
      else
        let (s, d) := match d.result with
          | some _ => (s, d)
          | none => State.writeReqs e d.reqs d s
        match d.result with
        | none => s.setChan e ch { s.chan e ch with queue := d :: rest }
        | some c =>
          let s := s.setChan e ch { s.chan e ch with queue := rest, prev := some c.status }
          State.pumpGo e ch n (s.ceDone e d c)

/-- Goes on with a channel. -/
def State.pump (e ch : Nat) (s : State) : State := State.pumpGo e ch ((s.chan e ch).queue.length + 1) s

/-- Starts a descriptor with its five checks in order (R206); none where it waits for its predecessor. -/
def State.descStart (s : State) (e ch : Nat) (first : Bool) (d : CopyDesc) : Option (State × CopyDesc) :=
  let x := parseDesc d.desc
  let done := fun (s : State) c => some (s, { d with started := true, result := some c })
  match descFault d.desc with
  | some o => done s (malformed (if e < 512 then o else o + 64))
  | none =>
    if x.len = 0 ∨ x.rows = 0 then done s { status := .empty }
    else if x.after ∧ ¬ first then none
    else if x.after ∧ ((s.chan e ch).prev.getD .done ≠ .done ∧ (s.chan e ch).prev.getD .done ≠ .empty) then
      done s { status := .aborted, detail := 1 }
    else
      match x.list.bind fun l => s.fault48 d.job l.1 l.2 with
      | some a => done s (addressFault a)
      | none =>
        let bad := x.list.bind fun l => s.badByte l.1 l.2
        let s := match x.list with | some l => s.chargeRange l.1 l.2 | none => s
        match bad with
        | some a => done s (dataError a 0)
        | none =>
          match s.rowsFault d.job x with
          | some a => done s (addressFault a)
          | none =>
            if s.spansMeet x then done s (malformed (if e < 512 then 64 else 128))
            else some (s, { d with started := true, reqs := s.cutDesc x })

/-- Replaces the first descriptor of a queue that has not started. -/
def putFirst (d : CopyDesc) : List CopyDesc → List CopyDesc
  | [] => []
  | x :: r => if x.started then x :: putFirst d r else d :: r

/-- COPY_DESCRIPTOR_START (R206, R208): the next descriptor of the channel, in issue order. -/
def execCopyDescriptorStart (e : CopyEngineId) (ch : Fin 8) (s : State) : Res :=
  let q := (s.chan e ch).queue
  .next (match q.find? (fun d => !d.started) with
    | none => s
    | some d =>
      match s.descStart e ch (q.all fun x => !x.started) d with
      | none => s
      | some (t, d) => State.pump e ch (t.setChan e ch { t.chan e ch with queue := putFirst d (t.chan e ch).queue }))

/-! ## The COPY word (R85, R208) -/

/-- Places descriptors of a COPY word in their channels in address order while they have room; the thread waits where a
channel is full (R208). -/
def State.feedCopy (k : Nat) : Nat → Nat → State → State
  | _, 0, s => s.setThread k { s.thread k with wait := .none }
  | off, n + 1, s =>
    let g := k / 4
    match s.recordFault k off 32 with
    | some c => State.feedCopy k (off + 32) n (s.reportWord k c)
    | none => match s.badByte (firnAddr g off) 32 with
      | some a => State.feedCopy k (off + 32) n ((s.chargeRange (firnAddr g off) 32).reportWord k (dataError a 0))
      | none =>
        let b := s.bytes (firnAddr g off) 32
        let ch := (parseDesc b).ch
        if 16 ≤ (s.chan g ch).queue.length then s.setThread k { s.thread k with wait := .copy off (n + 1) }
        else
          let id := s.nextId
          let s := s.accept { id := 0, unit := 0x0102, index := g, chan := ch, owner := s.ownerOf k, tag := (s.thread k).tag }
          let d : CopyDesc := { item := id, desc := b, job := s.threadJob k }
          State.feedCopy k (off + 32) n (s.setChan g ch { s.chan g ch with queue := (s.chan g ch).queue ++ [d] })

/-- Goes on with a COPY word that waits for room. -/
def State.resumeCopy (s : State) (k : Nat) : State :=
  match (s.thread k).wait with
  | .copy off n => State.feedCopy k off n s
  | _ => s

/-- COPY_WORD (R85, Table 3-5). -/
def execCopyWord (g : ClusterId) (t : Thr) (w : BitVec 60) (s : State) : Res :=
  let k := threadKey g t
  let x := w.toNat
  .next (s.issue k (2 * 2 ^ 60 + x) fun s =>
    if bits x 17 15 ≠ 0 then s.reportWord k (malformed 17)
    else if bits x 40 20 ≠ 0 then s.reportWord k (malformed 40)
    else if bits x 32 8 = 0 then s.reportWord k { status := .empty }
    else State.feedCopy k (bits x 0 17 * 32) (bits x 32 8) s)

/-! ## Reads (R210 to R214) -/

/-- The bank of the first byte of a read, for BANKCAP: an HBM bank or a Firn bank; none for a host window (R210; log entry 140). -/
def State.bankOf (s : State) (a : Nat) : Option (Nat × Nat) :=
  match regionOf a with
  | some .hbm => let (st, l) := s.hbmMap a; some (st, bits l 11 10)
  | some .firn => some (8 + (a - firnBase) / sliceSize, bits (a - firnBase) 5 4)
  | _ => none

/-- The page of the first byte of a read for rule 2 of R211: an HBM page, or for Firn a slice bank (log entry 140). -/
def State.pageOf (s : State) (a : Nat) : Option Nat :=
  match regionOf a with
  | some .hbm => let (st, l) := s.hbmMap a; some (l / 2048 * 8 + st)
  | some .firn => some (2 ^ 40 + (a - firnBase) / sliceSize * 16 + bits (a - firnBase) 5 4)
  | _ => none

/-- The requests of a channel that are not written, in cut order. -/
def Chan.reqs (x : Chan) : List CopyReq := x.queue.flatMap CopyDesc.reqs

/-- The requests of every channel of an engine. -/
def State.engineReqs (s : State) (e : Nat) : List CopyReq := (upFrom 0 8).flatMap fun ch => (s.chan e ch).reqs

/-- The reads that hold a slot of channel ch: issued, with a write that is not issued (R210). -/
def State.slotReads (s : State) (e ch : Nat) : List (Nat × Nat) :=
  ((s.engineReqs e).filterMap fun r => match r.rd with | some x => if x.1 = ch then some x else none | none => none).eraseDups

/-- Request slots in use that a further read of a channel would share: those of its channel, or of the whole hub engine (R210,
R404). -/
def State.slotsUsed (s : State) (e ch : Nat) : Nat :=
  if e < 512 then (s.slotReads e ch).length else sumBy (fun c => (s.slotReads e c).length) (upFrom 0 8)

/-- BANKCAP of an engine; a hub engine has none, and its cap is its slots (R210, R404). -/
def State.bankCap (s : State) (e : Nat) : Nat :=
  if e < 512 then min 48 (max 1 (s.fld (Reg.cirCeCfg e) Fld.cirCeCfgBankcap)) else 64

/-- Request slots of a channel (R210, R404). -/
def ceSlots (e : Nat) : Nat := if e < 512 then 48 else 64

/-- Slots of channel ch on the bank of an address. -/
def State.bankUse (s : State) (e ch a : Nat) : Nat :=
  match s.bankOf a with
  | none => 0
  | some b => (((s.engineReqs e).filterMap fun r => match r.rd with
      | some x => if x.1 = ch ∧ s.bankOf r.src = some b then some x else none
      | none => none).eraseDups).length

/-- AGE of an engine; a hub engine has none. -/
def State.ceAge (s : State) (e : Nat) : Nat := if e < 512 then s.fld (Reg.cirCeCfg e) Fld.cirCeCfgAge else 2 ^ 32

/-- The held reads in a channel's sorter that are not skipped, oldest first (R211). -/
def State.readyReads (s : State) (e ch : Nat) : List CopyReq :=
  (((s.chan e ch).reqs.filter fun r => r.st == .held).take 64).filter fun r => decide (s.bankUse e ch r.src < s.bankCap e)

/-- The read that R211 chooses, and whether by its rule 1; a hub engine has no sorter and takes the oldest (R404). -/
def State.chooseRead (s : State) (e ch : Nat) : Option (CopyReq × Bool) :=
  let l := s.readyReads e ch
  if 512 ≤ e then l.head?.map fun r => (r, false)
  else match l.find? (fun r => decide (s.ceAge e ≤ r.passed)) with
  | some r => some (r, true)
  | none =>
    match l.find? (fun r => (s.chan e ch).lastPage.isSome && s.pageOf r.src == (s.chan e ch).lastPage) with
    | some r => some (r, false)
    | none => l.head?.map fun r => (r, false)

/-- Changes the requests of a channel. -/
def State.mapReqs (s : State) (e ch : Nat) (f : CopyReq → CopyReq) : State :=
  let g : CopyDesc → CopyDesc := fun d => { d with reqs := d.reqs.map f }
  s.setChan e ch { s.chan e ch with queue := (s.chan e ch).queue.map g }

/-- Changes the held requests among the first n held ones of a list; answers how many are left of n. -/
def mapHeld (f : CopyReq → CopyReq) : Nat → List CopyReq → List CopyReq × Nat
  | n, [] => ([], n)
  | n, r :: l =>
    if r.st = .held then
      match n with
      | 0 => (r :: l, 0)
      | m + 1 => let x := mapHeld f m l; (f r :: x.1, x.2)
    else let x := mapHeld f n l; (r :: x.1, x.2)

/-- Changes the held reads that a sorter of n entries holds, in cut order (R211). -/
def mapSorter (f : CopyReq → CopyReq) : Nat → List CopyDesc → List CopyDesc
  | _, [] => []
  | n, d :: l => let x := mapHeld f n d.reqs; { d with reqs := x.1 } :: mapSorter f x.2 l

/-- The reads in the sorters of engine e that are in the 512-byte block of r, with their channel and item (R212). -/
def State.blockReads (s : State) (e : Nat) (r : CopyReq) : List (Nat × Nat × CopyReq) :=
  (upFrom 0 8).flatMap fun c =>
    (((s.chan e c).queue.flatMap fun d => (d.reqs.filter fun q => q.st == .held).map fun q => (c, d.item, q)).take 64).filter
      fun q => q.2.2.src / 512 == r.src / 512

/-- Changes requests up to the first that p picks: those before it are passed over. -/
def passGo (p : CopyReq → Bool) : List CopyReq → List CopyReq
  | [] => []
  | x :: l => if p x then x :: l else (if x.st = .held then { x with passed := x.passed + 1 } else x) :: passGo p l

/-- Passes over the held reads of a channel that are older than r (R211). -/
def passDescs (r : CopyReq) : List CopyDesc → List CopyDesc
  | [] => []
  | d :: l => if d.reqs.contains r then { d with reqs := passGo (· == r) d.reqs } :: l
              else { d with reqs := passGo (fun _ => false) d.reqs } :: passDescs r l

/-- Spans of bytes with [lo, hi) added: spans that touch are one. -/
def addSpan (lo hi : Nat) : List (Nat × Nat) → List (Nat × Nat)
  | [] => [(lo, hi)]
  | x :: r => if hi < x.1 ∨ x.2 < lo then x :: addSpan lo hi r else addSpan (min x.1 lo) (max x.2 hi) r

/-- The bytes of some reads, each once, as first address and length (R212). -/
def spansOf (l : List CopyReq) : List (Nat × Nat) :=
  (l.foldl (fun a r => addSpan r.src (r.src + r.len) a) []).map fun x => (x.1, x.2 - x.1)

/-- The channel whose slot a read takes: that of the oldest of the reads that it unites (R212; log entry 113). -/
def State.readOwner (s : State) (e ch : Nat) (r : CopyReq) : Nat :=
  match s.blockReads e r with
  | x :: l => if e < 512 then (l.foldl (fun m y => if y.2.1 < m.2 then (y.1, y.2.1) else m) (x.1, x.2.1)).1 else ch
  | [] => ch

/-- Issues read r of a channel with the held reads of its block in the sorters of the engine as one read of the union of their bytes,
which takes the slot of the oldest of them (R211, R212). A hub engine merges no reads (R404). -/
def State.issueRead (s : State) (e ch : Nat) (r : CopyReq) (aged : Bool) : State :=
  let all := if e < 512 then s.blockReads e r else [(ch, 0, r)]
  let own := s.readOwner e ch r
  let no := (s.chan e own).reads
  let x := s.chan e ch
  let s := s.setChan e ch { x with queue := passDescs r x.queue, lastPage := s.pageOf r.src }
  let s := s.setChan e own { s.chan e own with reads := no + 1 }
  let up : CopyReq → CopyReq := fun q =>
    if q.src / 512 = r.src / 512 then { q with st := .issued, rd := some (own, no), time := s.now } else q
  let s := (if e < 512 then
      s.each (upFrom 0 8) fun s c => s.setChan e c { s.chan e c with queue := mapSorter up 64 (s.chan e c).queue }
    else s.setChan e ch { s.chan e ch with queue := mapSorter up 1 (s.chan e ch).queue }).each (spansOf (all.map fun x => x.2.2)) fun s b => s.hostRead b.1 b.2
  s.when (decide (e < 512)) fun s =>
    (s.when aged fun s => s.bump (Reg.cirCeAged e)).when (decide (1 < all.length)) fun s =>
      s.bumpBy (Reg.cirCeMerged e) (all.length - 1)

/-- COPY_READ_ISSUE (R210 to R212). -/
def execCopyReadIssue (e : CopyEngineId) (ch : Fin 8) (s : State) : Res :=
  .next (s.when (decide (s.slotsUsed e ch < ceSlots e)) fun s =>
    match s.chooseRead e ch with
    | none => s
    | some (r, aged) =>
      let own := s.readOwner e ch r
      if s.hostHeld r.src ∨ ceSlots e ≤ s.slotsUsed e own ∨ s.bankCap e ≤ s.bankUse e own r.src then s
      else if s.hostGone r.src then
        let up : CopyReq → CopyReq := fun q => if q = r then { q with st := .failed, fail := addressFault r.src } else q
        State.pump e ch (s.mapReqs e ch up)
      else s.issueRead e ch r aged)

/-- Does a read wait for its port: its host window's port is not UP (R416)? -/
def State.hostWaits (s : State) (a : Nat) : Bool :=
  match regionOf a with
  | some (.host n) => s.portState n != 2
  | _ => false

/-- The k-th read of a channel that is issued and has no answer. -/
def State.issuedRead (s : State) (e ch k : Nat) : Option (Nat × Nat) :=
  ((((s.chan e ch).reqs.filter fun r => r.st == .issued).filterMap CopyReq.rd).eraseDups)[k]?

/-- What a returning read gives one of its requests (R214). -/
def State.answerReq (s : State) (r : CopyReq) : CopyReq :=
  match s.badByte r.src r.len with
  | some a => { r with st := .failed, fail := dataError a 0 }
  | none => { r with st := .returned, data := s.bytes r.src r.len }

/-- COPY_READ_RETURN (R213, R214). -/
def execCopyReadReturn (e : CopyEngineId) (ch : Fin 8) (k : Nat) (s : State) : Res :=
  .next (match s.issuedRead e ch k with
    | none => s
    | some x =>
      let rs := (s.engineReqs e).filter fun r => r.rd == some x && r.st == .issued
      s.when (!rs.any fun r => s.hostWaits r.src || s.hostBusy r.src r.len) fun s =>
        let bs := spansOf rs
        let up : CopyReq → CopyReq := fun r => if r.rd = some x ∧ r.st = .issued then s.answerReq r else r
        let lat := rs.foldl (fun m r => max m (s.now.toNat - r.time.toNat)) 0
        let s := s.each (upFrom 0 8) fun s c => s.mapReqs e c up
        let s := match bs with
          | b :: _ => (s.openPages b.1 b.2).each bs fun s b => s.chargeErrors b.1 b.2
          | [] => s
        let s := s.when (decide (e.val < 512)) fun s => s.maxReg (Reg.cirCeLatMax e) lat
        s.each (upFrom 0 8) fun s c => State.pump e c s)

/-- COPY_READ_TIMEOUT (R214): a TMO of zero disables it; time in GRACE does not count. -/
def execCopyReadTimeout (e : CopyEngineId) (ch : Fin 8) (k : Nat) (s : State) : Res :=
  .next (match s.issuedRead e ch k with
    | none => s
    | some x =>
      let rs := (s.engineReqs e).filter fun r => r.rd == some x && r.st == .issued
      let on := decide (512 ≤ e.val) || s.fld (Reg.cirCeCfg e) Fld.cirCeCfgTmo != 0
      s.when (on && !rs.any fun r => s.hostWaits r.src) fun s =>
        let up : CopyReq → CopyReq := fun r =>
          if r.rd = some x ∧ r.st = .issued then { r with st := .failed, fail := { status := .timeout } } else r
        let s := s.each (upFrom 0 8) fun s c => s.mapReqs e c up
        let s := s.when (decide (e.val < 512)) fun s => s.bump (Reg.cirCeTmo e)
        s.each (upFrom 0 8) fun s c => State.pump e c s)

/-- A reset reaches copy engine e (R33, R215): every descriptor completes ABORTED with the bytes written so far. -/
def State.resetCopy (s : State) (e : Nat) : State :=
  s.each (upFrom 0 8) fun s ch =>
    let s := s.each (s.chan e ch).queue fun s d => s.finish d.item { status := .aborted, detail := 3, count := d.wrote }
    s.setChan e ch {}

end Sys2Proof.Machine
end

