-- ==== Sys2Proof/Machine/Flash.lean ====
section
/-! DEFINITION. The SPI flash and the images in it (Tables 16-7 and 16-8, R493 to R495, R507; log entries 84 and 143). -/
namespace Sys2Proof.Machine

/-- n bytes of flash at an offset. -/
def State.flashBytes (s : State) (a n : Nat) : Bytes := (s.flash.bytes a n).map fun b => ~~~b

/-- The sector of offset a is erased to 0xFF. -/
def State.flashErase (s : State) (a : Nat) : State :=
  let a := a / 0x10000 * 0x10000
  let m := s.flash
  s.setFlash { m with cells := m.cells.filter fun c => !(decide (a ≤ c.1 ∧ c.1 < a + 0x10000)), undef := punch m.undef a 0x10000 }

/-- Programs bytes at an offset: bits are cleared and none is set. -/
def State.flashProgram (s : State) (a : Nat) (b : Bytes) : State :=
  s.setFlash (s.flash.put a ((s.flash.bytes a b.length).zipWith (fun o d => o ||| ~~~d) b))

/-- The SM3 digest of bytes. -/
def sm3 (b : Bytes) : Bytes := (upFrom 0 32).map (Config.sm3 b)

/-- The offset of slot k (0 A, 1 B) of image i (Table 16-7). -/
def imageSlot (i k : Nat) : Nat :=
  match i, k with
  | 0, _ => 0
  | 1, 0 => 0x0010000 | 1, _ => 0x0020000
  | 2, 0 => 0x0100000 | 2, _ => 0x0500000
  | 3, 0 => 0x0900000 | 3, _ => 0x0D00000
  | 4, 0 => 0x1100000 | 4, _ => 0x1300000
  | 5, 0 => 0x1500000 | 5, _ => 0x1600000
  | 6, 0 => 0x1700000 | 6, _ => 0x1800000
  | _, 0 => 0x1900000 | _, _ => 0x1A00000

/-- The bytes from a slot of image i to the next slot or image. -/
def imageRoom (i : Nat) : Nat :=
  match i with
  | 0 | 1 => 0x10000
  | 2 | 3 => 0x400000
  | 4 => 0x200000
  | _ => 0x100000

/-- The header in slot k of image i. -/
def State.imageHeader (s : State) (i k : Nat) : Bytes := s.flashBytes (imageSlot i k) 128

/-- The field of n bytes at byte a of a header. -/
def hdrField (h : Bytes) (a n : Nat) : Nat := leNat ((h.drop a).take n)

/-- The VERSION of a header. -/
def hdrVersion (h : Bytes) : Nat := hdrField h 4 4

/-- The body that the header in slot k of image i gives. -/
def State.imageBody (s : State) (i k : Nat) : Bytes := s.flashBytes (imageSlot i k + 128) (hdrField (s.imageHeader i k) 8 4)

/-- Does the header in slot k of image i name that image, at most this stepping and a body that the slot holds, and is DIGEST the digest
of the body (R494; log entry 144)? -/
def State.digestOk (s : State) (i k : Nat) : Bool :=
  let h := s.imageHeader i k
  decide (hdrField h 0 2 = 0x4731 ∧ hdrField h 2 1 = i ∧ hdrField h 12 4 ≤ 0xB1 ∧ hdrField h 8 4 + 128 ≤ imageRoom i) &&
    (h.drop 16).take 32 == sm3 (s.imageBody i k)

/-- The slot of image i with the higher VERSION among those that a test accepts (R229, R495). -/
def State.newerSlot (s : State) (i : Nat) (ok : Nat → Bool) : Option Nat :=
  if ok 0 ∧ (!ok 1 ∨ hdrVersion (s.imageHeader i 1) ≤ hdrVersion (s.imageHeader i 0)) then some 0 else if ok 1 then some 1 else none

/-! ## Retirement tables (R229; log entry 143) -/

/-- The body of a copy of the retirement tables: 8 bytes for each entry, stack, state and page. -/
def State.retBody (s : State) : Bytes :=
  (upFrom 0 8).flatMap fun st => (s.stack st).ret.flatMap fun e => leBytes 1 st ++ leBytes 1 e.2.state ++ leBytes 6 e.2.page

/-- The entries that a body holds: stack, page and state. -/
def retEntries (b : Bytes) : List (Nat × Nat × Nat) :=
  (upFrom 0 (b.length / 8)).map fun i =>
    let e := (b.drop (8 * i)).take 8
    (leNat (e.take 1), leNat (e.drop 2), leNat ((e.drop 1).take 1))

/-- The image of the retirement tables with a number: no signature, since no key that the Bridge holds signs one. -/
def retImage (ver : Nat) (body : Bytes) : Bytes :=
  leBytes 2 0x4731 ++ leBytes 2 7 ++ leBytes 4 ver ++ leBytes 4 body.length ++ leBytes 4 0xB1 ++ sm3 body ++ List.replicate 80 0 ++ body

/-- The tables are written over the older of the two copies. -/
def State.saveTables (s : State) : State :=
  let r : RetSave := { slot := 1 - s.retSave.slot, ver := s.retSave.ver + 1 }
  let a := imageSlot 7 r.slot
  ((s.flashErase a).flashProgram a (retImage r.ver s.retBody)).setRetSave r

/-- The slot of the newer copy whose digest verifies. -/
def State.newestTables (s : State) : Option Nat := s.newerSlot 7 (s.digestOk 7)

/-- The entries of that copy. -/
def State.savedTables (s : State) : List (Nat × Nat × Nat) :=
  match s.newestTables with
  | some k => retEntries (s.imageBody 7 k)
  | none => []

end Sys2Proof.Machine
end

