-- ==== Sys2Proof/Machine/Memory.lean ====
section
/-! DEFINITION. Scrubbing of Firn and HBM, the Moraine controllers' request windows and pages, and the retirement tables
(R202, R220 to R229, R514). -/
namespace Sys2Proof.Machine

/-! ## Firn (R200, R202) -/

/-- FIRN_SCRUB (R202): each corrected word is counted and written back; each word with a double-bit error is counted, recorded and
logged, and stays as it is. What the scrubber finds anew stands in one word of the granule. -/
def execFirnScrub (g : ClusterId) (n : BitVec 17) (found : WordFinding) (s : State) : Res :=
  let a := firnAddr g (n.toNat * 32)
  .next (s.when (s.fld (Reg.cirFpScrub g) Fld.cirFpScrubPeriod != 0) fun s =>
    let w := a + 8 * found.word.val
    let old := s.mem.ue.contains w
    let s := s.when (found.ecc == .uncorrectable) fun s => s.markUe w
    let s := s.each ([0, 8, 16, 24].filter fun o => s.mem.ue.contains (a + o)) fun s o =>
      (s.chargeUe (a + o)).raise 0x0301 (s.clusterJob g) 0x0105 g 0 (a + o)
    let fix := (s.fixable fun m => overlaps a 32 m 8).filter fun m => !s.mem.ue.contains m
    let s := (s.each fix fun s m => s.chargeFixed m).setMem { s.mem with ce := s.mem.ce.filter fun m => !fix.contains m }
    s.when (found.ecc == .corrected && !old && !fix.contains w) fun s => s.bump (Reg.cirFpCe g))

/-- SCRUB_OVERRUN (R202). -/
def execScrubOverrun (g : ClusterId) (s : State) : Res :=
  let p := s.fld (Reg.cirFpScrub g) Fld.cirFpScrubPeriod
  .next (s.when (p != 0) fun s => s.raise 0x0300 (s.clusterJob g) 0x0105 g p 0)

/-! ## HBM errors (R226, R227) -/

/-- What a read or scrub finds in the burst at stack-local address l, besides what earlier reads have met (R226). -/
def State.findHbm (s : State) (st l : Nat) (found : Ecc) : State :=
  let a := s.hbmAddr st (l / 64 * 64)
  if (s.retiredPages.any fun p => p ≤ a && a < p + 2048) then s
  else if s.mem.ue.contains a ∨ found = .uncorrectable then (s.markUe a).chargeUe a
  else if s.mem.ce.contains a ∨ found = .corrected then s.chargeCe st l
  else s

/-- Marks a burst as holding an error that reads correct. -/
def State.markCe (s : State) (a : Nat) : State :=
  if s.mem.ce.contains a ∨ s.mem.ue.contains a then s else s.setMem { s.mem with ce := s.mem.ce ++ [a] }

/-- Must b wait for a, accepted before it: they overlap, and one of them writes (R221)? -/
def mustWait (a b : WinReq) : Bool :=
  overlaps a.addr a.len b.addr b.len && (a.write.isSome || b.write.isSome)

/-- The requests of a window that are ready, with their places. -/
def readyReqs (l : List WinReq) : List (Nat × WinReq) :=
  ((upFrom 0 l.length).zip l).filter fun x => !(l.take x.1).any fun a => mustWait a x.2

/-- HBM_SCRUB (R224): while no request is ready; a burst that it corrects is written back. -/
def execHbmScrub (st : StackId) (n : BitVec 31) (found : Ecc) (s : State) : Res :=
  .next (s.when (readyReqs (s.stack st).window).isEmpty fun s =>
    let a := s.hbmAddr st (n.toNat * 64)
    let s := s.findHbm st (n.toNat * 64) found
    s.when (s.mem.ce.contains a) fun s => s.setMem { s.mem with ce := s.mem.ce.erase a })

/-! ## The request window (R220 to R223) -/

/-- Accepts request r into the window of a stack: a read returns what the writes accepted before it leave (R221). -/
def State.enterWindow (s : State) (st : Nat) (r : WinReq) : State :=
  let x := s.stack st
  let read : Nat → Nat → Bytes := fun a n => s.bytes (s.hbmAddr st a) n
  let m := min r.len (4096 - r.addr % 4096)
  let data := if r.write = none then
      read r.addr m ++ (upFrom 1 (r.len / 4096 + 1)).flatMap fun i =>
        let a := r.addr / 4096 * 4096 + 4096 * i
        read a (min 4096 (r.addr + r.len - a))
    else []
  s.setStack st { x with window := x.window ++ [{ r with data := data, time := s.now }], lastEngine := r.fromEngine }

/-- Requests that wait at the two ports enter while the window has room: in order at each port, the ports in turn while both wait
(R220). -/
def State.fillWindow (s : State) (st : Nat) : Nat → State
  | 0 => s
  | n + 1 =>
    let x := s.stack st
    if 256 ≤ x.window.length then s
    else match (x.waiting.find? fun r => r.fromEngine != x.lastEngine).or x.waiting.head? with
      | none => s
      | some r => ((s.setStack st { x with waiting := x.waiting.erase r }).enterWindow st r).fillWindow st n

/-- HBM_REQUEST_ACCEPT (R220): a request waits at its port and enters the window while that holds less than 256. To an isolated
stack, a read is answered with an error and a write is discarded (Table 12-5). -/
def execHbmRequestAccept (st : StackId) (r : HbmReq) (s : State) : Res :=
  let x := s.stack st
  .next (s.when (decide (0 < r.len) && decide (r.addr + r.len ≤ 2 ^ 37)) fun s =>
    let q : WinReq := { addr := r.addr, len := r.len, write := r.write.map (·.take r.len), fromEngine := r.fromEngine, time := s.now }
    if s.stackCut st then s.when r.write.isNone fun s => s.send (.hbmRead st r.addr [])
    else (s.setStack st { x with waiting := x.waiting ++ [q] }).fillWindow st 1)

/-- The request that is served next at time now (R221): one older than AGE ns, oldest first; then a page hit; then the oldest. -/
def Stack.next (x : Stack) (now age : Nat) : Option (Nat × WinReq) :=
  let l := readyReqs x.window
  match l.find? (fun r => decide (r.2.time.toNat + age < now)) with
  | some r => some r
  | none =>
    match l.find? (fun r => x.hit r.2.addr) with
    | some r => some r
    | none => l.head?

/-- Stores the bytes of a write that is served, at a stack-local address: pieces of one 4 KiB are contiguous in both modes (Table 7-4).
Overlapping writes that were accepted later are served later, and keep their bytes (R221). -/
def State.storeL (s : State) (st : Nat) : Nat → Nat → Bytes → State
  | 0, _, _ => s
  | n + 1, l, bs =>
    if bs = [] then s
    else
      let m := 4096 - l % 4096
      State.storeL (s.storeServed (s.hbmAddr st l) (bs.take m) fun _ => true) st n (l + m) (bs.drop m)

/-- Confirms that waited for a served request take effect once none of theirs is left (R228). -/
def State.settleConfirms (s : State) (st : Nat) (r : WinReq) : State :=
  let x := s.stack st
  let l := x.confirm.map fun c => (c.1, c.2.erase r)
  let s := s.setStack st { x with confirm := l.filter fun c => c.2 != [] }
  s.each (l.filter fun c => c.2 == []) fun s c =>
    let x := s.stack st
    s.setStack st { x with ret := x.ret.put {} c.1 { x.ret.get {} c.1 with state := 2 }, retDirty := true }

/-- The bursts of n bytes at stack-local address l, by their stack-local addresses. -/
def burstsOf (l n : Nat) : List Nat := (upFrom (l / 64) ((l + n - 1) / 64 + 1 - l / 64)).map (64 * ·)

/-- The pages that n bytes at stack-local address l touch are accessed (R222). -/
def State.openLocalPages (s : State) (st l n : Nat) : State :=
  s.each (upFrom (l / 2048) ((l + n - 1) / 2048 + 1 - l / 2048)) fun s i => s.openPage st (2048 * i)

/-- What the controller finds as it serves a request (R226, R514): a read finds errors in every burst that it meets, a write in those
which it covers in part, and counts them as it is stored; found is met in the one numbered n of them. An error that a read has corrected
stands until a write. -/
def State.serveErrors (s : State) (st : Nat) (r : WinReq) (n : Nat) (found : Ecc) : State :=
  let l := (burstsOf r.addr r.len).filter fun b => r.write.isNone || !(decide (r.addr ≤ b ∧ b + 64 ≤ r.addr + r.len))
  let s := match l[n]?, found with
    | some b, .uncorrectable => s.markUe (s.hbmAddr st b)
    | some b, .corrected => s.markCe (s.hbmAddr st b)
    | _, _ => s
  if r.write.isSome then s else s.each l fun s b => s.findHbm st b .clean

/-- HBM_REQUEST_SERVE (R221, R222, R226, R514): a read returns its bytes where none of them is uncorrectable. -/
def execHbmRequestServe (st : StackId) (n : Nat) (found : Ecc) (s : State) : Res :=
  .next (match (s.stack st).next s.now.toNat (s.fld (Reg.morCtlCfg st) Fld.morCtlCfgAge) with
    | none => s
    | some (i, r) =>
      let x := s.stack st
      let s := s.setStack st { x with window := x.window.eraseIdx i }
      let s := s.serveErrors st r n found
      let s := match r.write with
        | none =>
          let bad := (burstsOf r.addr r.len).any fun b => (s.badByte (s.hbmAddr st b) 64).isSome
          (s.openLocalPages st r.addr r.len).send (.hbmRead st r.addr (if bad then [] else r.data))
        | some b => s.storeL st (b.length / 4096 + 2) r.addr b
      let s := s.maxReg (Reg.morLatMax st) (s.now.toNat - r.time.toNat)
      (s.settleConfirms st r).fillWindow st 1)

/-- The controller of stack st finishes the requests that it has accepted (Table 12-6): writes reach the stack, reads are answered with
an error, and what still waits at its ports is answered or discarded (Table 12-5). -/
def State.drainStack (s : State) (st : Nat) : State :=
  let x := s.stack st
  let s := s.setStack st { x with window := [], waiting := [] }
  let s := s.each x.window fun s r =>
    (match r.write with
      | some b => s.storeL st (b.length / 4096 + 2) r.addr b
      | none => s.send (.hbmRead st r.addr [])).settleConfirms st r
  s.each x.waiting fun s r => s.when r.write.isNone fun s => s.send (.hbmRead st r.addr [])

/-- A page of a bank closes. -/
def State.closePage (s : State) (st ch bank : Nat) : State :=
  let x := s.stack st
  s.setStack st { x with openRow := x.openRow.put 0 (ch * 64 + bank) 0 }

/-- PAGE_IDLE_CLOSE (R222). -/
def execPageIdleClose (st : StackId) (ch : Fin 16) (bank : Fin 64) (s : State) : Res := .next (s.closePage st ch bank)

/-- HBM_REFRESH (R222, R223): a refreshed bank has no open page. -/
def execHbmRefresh (st : StackId) (ch : Fin 16) (bank : Fin 64) (s : State) : Res := .next (s.closePage st ch bank)

/-! ## Retirement (R228, R229) -/

/-- CONFIRM is written (R228): ignored unless the entry is RETIRING; otherwise the entry is RETIRED once every request accepted
before has been served. -/
def State.retConfirm (s : State) (st ix : Nat) : State :=
  let x := s.stack st
  if (x.ret.get {} ix).state ≠ 1 then s.writeIgnored none 0x0200 st (Reg.morRetCtrl st) (ix + 512)
  else if x.window = [] then
    s.setStack st { x with ret := x.ret.put {} ix { x.ret.get {} ix with state := 2 }, retDirty := true }
  else s.setStack st { x with confirm := x.confirm ++ [(ix, x.window)] }

/-- RETIREMENT_TABLE_SAVE (R229): the table of every stack goes to flash with its digest, over the older of the two copies. -/
def execRetirementTableSave (s : State) : Res :=
  .next (s.when ((upFrom 0 8).any fun st => (s.stack st).retDirty) fun s =>
    s.saveTables.each (upFrom 0 8) fun s st =>
      s.when (s.stack st).retDirty fun s => s.setStack st { s.stack st with retDirty := false })

end Sys2Proof.Machine
end

