-- ==== Sys2Proof/Machine/Matrix.lean ====
section
/-! DEFINITION. The matrix cores: MCFG, MLOAD, MSTREAM, MCLR and MEMIT, gangs and their stream headers, poison and the reset of
a core (chapter 5; log entries 24, 25). -/
namespace Sys2Proof.Machine

/-- Core c = 8 × cluster + core of the cluster. -/
def State.core (s : State) (c : Nat) : MatCore := s.cores.get {} c

/-- Replaces it. -/
def State.setCore (s : State) (c : Nat) (x : MatCore) : State := s.setCores (s.cores.put {} c x)

/-- Is core c enabled, as applied (R144)? -/
def State.coreOn (s : State) (c : Nat) : Bool := s.afld (Reg.cirMcCtrl (c / 8) (c % 8)) Fld.cirMcCtrlEn == 1

/-- The leader that core c names, as applied. -/
def State.coreLeader (s : State) (c : Nat) : Nat := s.afld (Reg.cirMcGang (c / 8) (c % 8)) Fld.cirMcGangLeader

/-- GSTATE of core c: 1 joined, 2 gang lost. -/
def State.gstate (s : State) (c : Nat) : Nat := s.fld (Reg.cirMcStatus (c / 8) (c % 8)) Fld.cirMcStatusGstate

/-- Writes it. -/
def State.setGstate (s : State) (c v : Nat) : State := s.setFld (Reg.cirMcStatus (c / 8) (c % 8)) Fld.cirMcStatusGstate v

/-! ## The lane row (R136 to R141) -/

/-- Elements of a bank (Table 5-2); FP32 is no operand format. -/
def bankElems : Fmt → Nat
  | .w8 => 512 | .w12 => 256 | .w16 => 256 | .int8 => 256 | .fp32 => 0

/-- Elements of a weight unit (Table 5-2). -/
def unitElems : Fmt → Nat
  | .w8 => 16 | .int8 => 16 | _ => 8

/-- The operand formats (Table 5-6). -/
def operandFmt (c : Nat) : Option Fmt := match fmtOf c with | some .fp32 => none | r => r

/-- Byte k of the operand store. -/
def MatCore.byte (m : MatCore) (k : Nat) : Byte :=
  match m.store.get none k with
  | some b => b
  | none => if m.seed = 0 then 0 else Config.freeByte m.seed k

/-- The accumulator with key k. -/
def MatCore.accOf (m : MatCore) (k : Nat) : W32 :=
  match m.acc.get none k with
  | some v => v
  | none => if m.seed = 0 then 0 else Config.freeWord m.seed k

/-- Writes an accumulator. -/
def MatCore.putAcc (m : MatCore) (k : Nat) (v : W32) : MatCore :=
  { m with acc := if m.seed = 0 ∧ v = 0 then m.acc.erase k else m.acc.insert k (some v) }

/-- Writes bytes of the operand store from key k on. -/
def MatCore.putStore (m : MatCore) : Nat → Bytes → MatCore
  | _, [] => m
  | k, b :: r =>
    MatCore.putStore { m with store := if m.seed = 0 ∧ b = 0 then m.store.erase k else m.store.insert k (some b) } (k + 1) r

/-- The store entries of W12 containers: bits [15:12] are zero (R138). -/
def entries12 : Bytes → Bytes
  | a :: b :: r => a :: (b &&& 0x0F#8) :: entries12 r
  | l => l

/-- The store entries of INT8 elements: sign-extended to 16 bits (R138). -/
def entriesInt8 : Bytes → Bytes
  | [] => []
  | b :: r => b :: (if b.msb then 0xFF#8 else 0#8) :: entriesInt8 r

/-- The store bytes of the elements that a lane loads (Table 5-3). -/
def storeEntries (f : Fmt) (b : Bytes) : Bytes :=
  match f with
  | .w12 => entries12 b
  | .int8 => entriesInt8 b
  | _ => b

/-- Element i of a bank of a lane (Table 5-3). -/
def MatCore.element (m : MatCore) (lane bank : Nat) (f : Fmt) (i : Nat) : Val :=
  let o := lane * 1024 + bank * 512
  match f with
  | .w8 => valueOf f (m.byte (o + i)).toNat
  | _ => valueOf f ((m.byte (o + 2 * i)).toNat + 256 * (m.byte (o + 2 * i + 1)).toNat)

/-- One granule (R140): the accumulator and the products, summed exactly and rounded once. -/
def addGranule (acc : W32) (products : List Val) : W32 := rne32 (sumVals (val32 acc :: products))

/-- The products of elements [lo, lo + n) of unit u, whose bytes are d; positions from K on form none (R139). -/
def MatCore.products (m : MatCore) (lane bank : Nat) (f : Fmt) (k u lo n : Nat) (d : Bytes) : List Val :=
  (upFrom lo n).filterMap fun i =>
    let x := u * unitElems f + i
    if x < k then some ((m.element lane bank f x).mul (valueOf f (field d (i * fmtSize f) (fmtSize f)))) else none

/-- Unit u of a column into an accumulator: W16 forms two granules, every other format one (R137, R141). -/
def MatCore.addUnit (m : MatCore) (lane bank : Nat) (f : Fmt) (k u : Nat) (d : Bytes) (acc : W32) : W32 :=
  match f with
  | .w16 => addGranule (addGranule acc (m.products lane bank f k u 0 4 d)) (m.products lane bank f k u 4 4 d)
  | _ => addGranule acc (m.products lane bank f k u 0 (unitElems f) d)

/-- Units [lo, m) of a column, whose bytes are d, into an accumulator. -/
def MatCore.addColumn (c : MatCore) (lane bank : Nat) (f : Fmt) (k lo m : Nat) (d : Bytes) (acc : W32) : W32 :=
  (upFrom lo (m - lo)).foldl (fun a u => c.addUnit lane bank f k u ((d.drop (16 * u)).take 16) a) acc

/-- Units of a column for reduction length k (R153). -/
def unitsOf (f : Fmt) (k : Nat) : Nat := ceilDiv k (unitElems f)

/-- Units [lo, hi) of a stream of n columns, into accumulators a0 on of the lanes below l (R153). -/
def MatCore.stream (c : MatCore) (l bank : Nat) (f : Fmt) (a0 n k lo hi : Nat) (d : Bytes) : MatCore :=
  let u := unitsOf f k
  (upFrom 0 n).foldl (fun c j =>
    let m := min u (hi - j * u)
    let x := lo - j * u
    if m ≤ x then c
    else (upFrom 0 l).foldl (fun c lane =>
      let key := lane * 64 + a0 + j
      c.putAcc key (c.addColumn lane bank f k x m ((d.drop (16 * j * u)).take (16 * m)) (c.accOf key))) c) c

/-! ## Checks (R150 to R155) -/

/-- The checks of MCFG (Table 5-7); a Rime set is checked over all of VALUE (log entry 139). -/
def mcfgFault (w : Nat) : Option Nat :=
  let sel := bits w 54 2
  let v := bits w 0 32
  if (sel = 0 ∧ v % 16 ≠ 0) ∨ (sel = 2 ∧ 63 < v) then some 0
  else match lowReserved w ((2 ^ 22 - 1) * 2 ^ 32) with
    | some _ => some 32
    | none => if sel = 3 then some 54 else none

/-- The checks of MLOAD (Table 5-8). Where FMT is none of an operand, E is checked against 512 (log entry 133). -/
def mloadFault (w : Nat) : Option Nat :=
  let f := operandFmt (bits w 52 3)
  let cap := match f with | some x => bankElems x | none => 512
  if cap < bits w 31 10 then some 31
  else if 96 < bits w 41 7 then some 41
  else if f = none then some 52
  else none

/-- The checks of MSTREAM against the bank's recorded state (Table 5-9). -/
def State.mstreamFault (s : State) (c w : Nat) : Option Nat :=
  let r := Reg.cirMcBank (c / 8) (c % 8) (bits w 55 1)
  if s.fld r Fld.cirMcBankElems < bits w 25 10 then some 25
  else if 64 < bits w 35 7 ∨ 64 < bits w 42 6 + bits w 35 7 then some 35
  else if operandFmt (bits w 52 3) = none ∨ s.fld r Fld.cirMcBankFmt ≠ bits w 52 3 then some 52
  else none

/-- The checks of MCLR (Table 5-10). -/
def mclrFault (w : Nat) : Option Nat :=
  if bits w 0 35 ≠ 0 then some 0
  else if 64 < bits w 42 6 + bits w 35 7 then some 35
  else if bits w 48 8 ≠ 0 then some 48
  else none

/-- The checks of MEMIT (Table 5-11). -/
def memitFault (w : Nat) : Option Nat :=
  if 96 < bits w 28 7 then some 28
  else if 64 < bits w 42 6 + bits w 35 7 then some 35
  else if fmtOf (bits w 52 3) = none then some 52
  else none

/-- The lowest faulting address of n bytes at each of some Firn offsets. -/
def State.lanesFault (s : State) (job : Option Nat) (starts : List Nat) (n : Nat) : Option Nat :=
  starts.foldl (fun r a => optMin r (s.rangeFault job (firnBase + a) n)) none

/-! ## The items of a core -/

/-- MCFG (R150). -/
def State.doMcfg (s : State) (c : Nat) (i : CoreItem) : State × Completion :=
  match mcfgFault i.w with
  | some d => (s, malformed d)
  | none =>
    let v := bits i.w 0 32
    let m := s.core c
    match bits i.w 54 2 with
    | 0 => (s.setCore c { m with loadStride := v }, {})
    | 1 => (s.setCore c { m with emitStride := v }, {})
    | _ => (s.setCore c { m with rime := v }, {})

/-- Loads lanes from their Firn offsets, up to the first that cannot be read: answers its failing byte and the lanes
loaded. -/
def State.loadLanes (c bank : Nat) (f : Fmt) (n : Nat) : List Nat → Nat → State → State × Option Nat × Nat
  | [], lane, s => (s, none, lane)
  | a :: r, lane, s =>
    match s.badByte (firnBase + a) n with
    | some b => (s.chargeRange (firnBase + a) n, some b, lane)
    | none =>
      let m := (s.core c).putStore (lane * 1024 + bank * 512) (storeEntries f (s.bytes (firnBase + a) n))
      State.loadLanes c bank f n r (lane + 1) (s.setCore c m)

/-- MLOAD (R152, R162). -/
def State.doMload (s : State) (c : Nat) (i : CoreItem) : State × Completion :=
  let l := bits i.w 41 7
  let e := bits i.w 31 10
  let bank := bits i.w 55 1
  match mloadFault i.w, operandFmt (bits i.w 52 3) with
  | some d, _ => (s, malformed d)
  | none, none => (s, malformed 52)
  | none, some f =>
    if l = 0 ∨ e = 0 then (s, { status := .empty })
    else
      let a := (bits i.w 0 31 + i.ag + s.fld (Reg.cirMcLoff (c / 8) (c % 8)) Fld.cirMcLoffOff) % 2 ^ 31
      let starts := (upFrom 0 l).map fun n => a + n * i.loadStride
      if starts.any fun x => x % 16 != 0 then (s, malformed 0)
      else match s.lanesFault (s.threadJob i.key) starts (e * fmtSize f) with
        | some x => (s, addressFault x)
        | none =>
          let r := State.loadLanes c bank f (e * fmtSize f) starts 0 s
          let v := l + bits i.w 52 3 * 2 ^ 7 + e * 2 ^ 10 + b2n r.2.1.isNone * 2 ^ 20
          (r.1.setReg (Reg.cirMcBank (c / 8) (c % 8) bank) (BitVec.ofNat 32 v),
            match r.2.1 with | some b => dataError b r.2.2 | none => { count := l })

/-- MCLR (R154). -/
def State.doMclr (s : State) (c : Nat) (i : CoreItem) : State × Completion :=
  let a0 := bits i.w 42 6
  let n := bits i.w 35 7
  match mclrFault i.w with
  | some d => (s, malformed d)
  | none =>
    if n = 0 then (s, { status := .empty })
    else
      let keys := (upFrom 0 96).flatMap fun lane => upFrom (lane * 64 + a0) n
      let m := keys.foldl (fun m k => m.putAcc k 0) (s.core c)
      (s.setCore c { m with poison := m.poison.filter fun k => !(a0 ≤ k % 64 && k % 64 < a0 + n) }, { count := n })

/-- Emits the group of n accumulators a0 + g on of lanes [lane, l) of core c (R155). -/
def State.emitLanes (c : Nat) (i : CoreItem) (f : Fmt) (base g n : Nat) : Nat → Nat → State → State
  | 0, _, s => s
  | m + 1, lane, s =>
    let x := s.core c
    let k := lane * 64 + bits i.w 42 6 + g
    let r := convertAll f ((upFrom k n).map fun k => val32 (x.accOf k))
    let s := s.store (firnBase + base + lane * i.emitStride + g * fmtSize f) r.1
    let s := s.rimeOf i.key i.rime r.2
    let s := s.when (bit i.w 55) fun s => s.setCore c ((upFrom k n).foldl (fun m k => m.putAcc k 0) (s.core c))
    State.emitLanes c i f base g n m (lane + 1) s

/-- The groups of a MEMIT in order, up to the first that holds a poisoned accumulator: answers whether it met one, and the
accumulators written (R155, R162). -/
def State.emitGroups (c : Nat) (i : CoreItem) (f : Fmt) (base l n : Nat) : Nat → Nat → State → State × Bool × Nat
  | 0, g, s => (s, false, g)
  | m + 1, g, s =>
    if n ≤ g then (s, false, g)
    else
      let w := min 8 (n - g)
      let a := bits i.w 42 6 + g
      if (s.core c).poison.any fun k => k / 64 < l && a ≤ k % 64 && k % 64 < a + w then (s, true, g)
      else State.emitGroups c i f base l n m (g + w) (State.emitLanes c i f base g w l 0 s)

/-- MEMIT (R155, R162). -/
def State.doMemit (s : State) (c : Nat) (i : CoreItem) : State × Completion :=
  let n := bits i.w 35 7
  let l := bits i.w 28 7
  match memitFault i.w, fmtOf (bits i.w 52 3) with
  | some d, _ => (s, malformed d)
  | none, none => (s, malformed 52)
  | none, some f =>
    if n = 0 ∨ l = 0 then (s, { status := .empty })
    else
      let a := (bits i.w 0 28 * 8 + i.ag + s.fld (Reg.cirMcEoff (c / 8) (c % 8)) Fld.cirMcEoffOff) % 2 ^ 31
      let starts := (upFrom 0 l).map fun k => a + k * i.emitStride
      if starts.any fun x => x % fmtSize f != 0 then (s, malformed 0)
      else match s.lanesFault (s.threadJob i.key) starts (n * fmtSize f) with
        | some x => (s, addressFault x)
        | none =>
          let r := State.emitGroups c i f a l n 8 0 s
          (r.1, if r.2.1 then { status := .aborted, detail := 1, count := r.2.2 } else { count := n })

/-! ## Streams and gangs (R144 to R149, R162, R163) -/

/-- The cores of the partition that holds cluster g. -/
def State.partCores (s : State) (g : Nat) : List Nat :=
  match s.partOf g with
  | none => []
  | some p => (s.partClusters p).flatMap fun h => upFrom (8 * h) 8

/-- The joined members of the gang that core c leads, c apart. -/
def State.members (s : State) (c : Nat) : List Nat :=
  (s.partCores (c / 8)).filter fun m => m != c && s.coreOn m && s.coreLeader m == c && s.gstate m == 1

/-- The units of a stream (R153). -/
def Header.total (h : Header) : Nat := match operandFmt h.fmt with | some f => h.n * unitsOf f h.k | none => 0

/-- The leader broadcasts a header to every other member (R147). -/
def State.publish (s : State) (c : Nat) (h : Header) : State :=
  let s := s.setCore c { s.core c with heldLog := false }
  s.each (s.members c) fun s m => s.setCore m { s.core m with hdrs := (s.core m).hdrs ++ [h] }

/-- Units that core m has been sent and has not consumed (R145). -/
def State.outstanding (s : State) (m : Nat) : Nat := sumBy (fun h => if h.skip then 0 else h.avail - h.used) (s.core m).hdrs

/-- The feeder of leader c sends units of the stream that it feeds to every member, as long as none has 32 units outstanding (R145);
a hold that is over may be logged again (R159). -/
def State.feed (s : State) (c : Nat) : State :=
  match (s.core c).hdrs with
  | [] => s
  | h :: _ =>
    let gang := c :: s.members c
    let room := gang.foldl (fun r m => min r (32 - s.outstanding m)) 32
    let v := min h.total (h.avail + room)
    let up : Header → Header := fun x => if x.ord = h.ord ∧ x.avail = h.avail ∧ x.total = h.total then { x with avail := v } else x
    let s := s.when (decide (h.avail < v)) fun s => s.setCore c { s.core c with heldLog := false }
    s.each gang fun s m => s.setCore m { s.core m with hdrs := (s.core m).hdrs.map up }

/-- What a member finds for its MSTREAM (R148). -/
inductive Match where
  | wait
  | void
  | bad (h : Header) (detail : Nat)
  | ok (h : Header)
  deriving DecidableEq, Repr

/-- A header whose units are discarded: it stays while units of it are still to come. -/
def Header.discard (h : Header) : List Header := if h.void ∨ h.avail = h.total then [] else [{ h with skip := true }]

/-- Matches an MSTREAM of ordinal o, FMT, N and K with the headers that have arrived (R148). -/
def matchHdr (o f n k : Nat) : List Header → Match × List Header
  | [] => (.wait, [])
  | h :: r =>
    let d := (o + 256 - h.ord) % 256
    if h.skip ∨ (1 ≤ d ∧ d ≤ 127) then
      let m := matchHdr o f n k r
      (m.1, h.discard ++ m.2)
    else if h.void then (.void, r)
    else if d ≠ 0 then (.bad h 0, h.discard ++ r)
    else if h.fmt ≠ f then (.bad h 52, h.discard ++ r)
    else if h.n ≠ n then (.bad h 35, h.discard ++ r)
    else if h.k ≠ k then (.bad h 25, h.discard ++ r)
    else (.ok h, h :: r)

/-- Applies the units of header h that have come to the bank and accumulators of an MSTREAM (R149, R153, R162): answers its completion
once every unit has come. On an invalid bank the units are consumed and do nothing; from a poisoned unit on they are discarded. A
wait that units have ended may be logged again (R159). -/
def State.consume (s : State) (c : Nat) (i : CoreItem) (f : Fmt) (h : Header) : State × Option Completion :=
  let bank := bits i.w 55 1
  let r := Reg.cirMcBank (c / 8) (c % 8) bank
  let l := s.fld r Fld.cirMcBankLanes
  let a0 := bits i.w 42 6
  let u := unitsOf f h.k
  let off := s.fld r Fld.cirMcBankValid == 0
  let stop := match h.bad with | some (x, _) => min x h.avail | none => h.avail
  let m := if off then s.core c else (s.core c).stream l bank f a0 h.n h.k h.used stop h.units
  let s := s.bumpBy (Reg.cirMcUnits (c / 8) (c % 8)) ((if off then h.avail else stop) - h.used)
  let fresh : CoreItem → CoreItem := fun x => if x.item = i.item ∧ h.used < h.avail then { x with logged := false } else x
  if h.avail < h.total then
    (s.setCore c { m with hdrs := { h with used := h.avail } :: m.hdrs.drop 1, fifo := m.fifo.map fresh }, none)
  else
    let m := { m with hdrs := m.hdrs.drop 1 }
    if off then (s.setCore c m, some { status := .aborted, detail := 1 })
    else match h.bad with
      | none => (s.setCore c m, some { count := h.n })
      | some (x, a) =>
        let j := x / u
        let keys := (upFrom 0 l).flatMap fun lane => upFrom (lane * 64 + a0 + j) (h.n - j)
        (s.setCore c { m with poison := m.poison.filter (fun k => !keys.contains k) ++ keys }, some (dataError a j))

/-- An MSTREAM of a core meets the headers that it holds (R148): no completion where it waits for its header or for units. -/
def State.follow (s : State) (c : Nat) (i : CoreItem) (f : Fmt) : State × Option Completion :=
  let r := matchHdr i.ord (bits i.w 52 3) (bits i.w 35 7) (bits i.w 25 10) (s.core c).hdrs
  let s := s.setCore c { s.core c with hdrs := r.2 }
  match r.1 with
  | .wait => (s, none)
  | .void => (s, some { status := .aborted, detail := 1 })
  | .bad h d =>
    let s := s.bumpFld (Reg.cirMcMismatch (c / 8) (c % 8)) Fld.cirMcMismatchCount 1
    (s.raise 0x0200 (s.clusterJob (c / 8)) 0x0100 c h.ord d, some (malformed d))
  | .ok h => s.consume c i f h

/-- An MSTREAM of a leader: as it starts, the feeder reads the stream and broadcasts its header; it then sends units as the members
take them, and the leader consumes its own (R145, R147, R149, R153, R162). -/
def State.lead (s : State) (c : Nat) (i : CoreItem) (f : Fmt) : State × Option Completion :=
  let n := bits i.w 35 7
  let k := bits i.w 25 10
  let u := unitsOf f k
  let a := firnBase + bits i.w 0 25 * 64 + i.ag + s.fld (Reg.cirMcSoff (c / 8) (c % 8)) Fld.cirMcSoffOff * 64
  let h : Header := { ord := i.ord, fmt := bits i.w 52 3, n, k }
  if (s.core c).hdrs ≠ [] then (s.feed c).follow c i f
  else match s.rangeFault (s.threadJob i.key) a (n * u * 16) with
  | some x => (s.publish c { h with void := true }, some (addressFault x))
  | none =>
    let b := s.badByte a (n * u * 16)
    let s := s.chargeRange a (n * u * 16)
    let h := { h with units := s.bytes a (n * u * 16), bad := b.map fun x => ((x - a) / 16, x) }
    let s := s.publish c h
    ((s.setCore c { s.core c with hdrs := [h] }).feed c).follow c i f

/-- Columns that an MSTREAM of core c has finished (R33). -/
def State.columnsDone (s : State) (c : Nat) (i : CoreItem) : Nat :=
  match (s.core c).hdrs, operandFmt (bits i.w 52 3) with
  | h :: _, some f => if i.op = 2 ∧ h.ord = i.ord ∧ !h.skip then h.used / max 1 (unitsOf f h.k) else 0
  | _, _ => 0

/-- MSTREAM (R147, R148, R153, R163): no completion where it waits for its header or for units. Its fields are checked before the bank's
validity (log entry 134). -/
def State.doMstream (s : State) (c : Nat) (i : CoreItem) : State × Option Completion :=
  let n := bits i.w 35 7
  let k := bits i.w 25 10
  let leads := s.coreLeader c == c
  let h : Header := { ord := i.ord, fmt := bits i.w 52 3, n, k }
  if s.gstate c = 2 then (s, some { status := .aborted, detail := 3, count := s.columnsDone c i })
  else match s.mstreamFault c i.w, operandFmt (bits i.w 52 3) with
    | some d, _ => (s.when leads fun s => s.publish c { h with void := true }, some (malformed d))
    | none, none => (s, some (malformed 52))
    | none, some f =>
      if n = 0 ∨ k = 0 then (s.when leads fun s => s.publish c h, some { status := .empty })
      else if leads then s.lead c i f
      else s.follow c i f

/-- An item of a core by its opcode (Table 5-5): no completion where it waits. -/
def State.doCoreItem (s : State) (c : Nat) (i : CoreItem) : State × Option Completion :=
  let all := fun (r : State × Completion) => (r.1, some r.2)
  match i.op with
  | 0 => all (s.doMcfg c i)
  | 1 => all (s.doMload c i)
  | 2 => s.doMstream c i
  | 3 => all (s.doMclr c i)
  | 4 => all (s.doMemit c i)
  | _ => (s, some (malformed 56))

/-- The engine that runs an item: load, stream or emit (R156); any other item runs as it is issued. -/
def CoreItem.engine (i : CoreItem) : Nat :=
  match i.op with
  | 1 => 1
  | 2 => 2
  | 3 => 2
  | 4 => 4
  | _ => 0

/-- Do the accumulators of two items overlap? -/
def CoreItem.meets (i j : CoreItem) : Bool := overlaps (bits i.w 42 6) (bits i.w 35 7) (bits j.w 42 6) (bits j.w 35 7)

/-- Does item i wait for the earlier item e, which has not finished: of its engine (R156), or under the hazards of R157? A MEMIT also
waits for an earlier MCLR of its accumulators (log entry 15). -/
def CoreItem.waitsFor (i e : CoreItem) : Bool :=
  let bank := bits i.w 55 1 == bits e.w 55 1
  e.result == none && (i.engine != 0 && e.engine == i.engine || match i.op, e.op with
    | 1, 2 => bank
    | 2, 1 => bank
    | 2, 4 => i.meets e
    | 3, 4 => i.meets e
    | 4, 2 => i.meets e
    | 4, 3 => i.meets e
    | _, _ => false)

/-- Sets the result of the item numbered id in the issue FIFO of core c. -/
def State.coreResult (s : State) (c id : Nat) (r : Completion) : State :=
  let f : CoreItem → CoreItem := fun x => if x.item = id then { x with result := some r } else x
  s.setCore c { s.core c with fifo := (s.core c).fifo.map f }

/-- Tries the items l of the issue FIFO of core c, of which those in e come before them: runs each that waits for none of them, and
answers whether one has finished (R156). -/
def State.tryItems (c : Nat) : List CoreItem → List CoreItem → State → State × Bool
  | _, [], s => (s, false)
  | e, i :: r, s =>
    if i.result.isSome || e.any i.waitsFor then State.tryItems c (e ++ [i]) r s
    else match s.doCoreItem c i with
      | (s, some x) => (s.coreResult c i.item x, true)
      | (s, none) => State.tryItems c (e ++ [i]) r s

/-- Reports the finished items at the front of the issue FIFO of core c: completions come in issue order (R156). -/
def State.reportCore (c : Nat) : Nat → State → State
  | 0, s => s
  | n + 1, s =>
    match (s.core c).fifo with
    | [] => s
    | i :: l =>
      match i.result with
      | none => s
      | some r =>
        let s := s.setCore c { s.core c with fifo := l }
        let s := s.setFld (Reg.cirMcStatus (c / 8) (c % 8)) Fld.cirMcStatusLast (statusCode r.status)
        State.reportCore c n (s.partDone i.item (c % 8) r)

/-- Runs the items of a core's issue FIFO, until none finishes (R156 to R158). -/
def State.runItems (c : Nat) : Nat → State → State
  | 0, s => s
  | n + 1, s =>
    match State.tryItems c [] (s.core c).fifo s with
    | (s, true) => State.runItems c n s
    | (s, false) => s

/-- Runs a core, and reports what has finished in issue order. -/
def State.runCore (s : State) (c : Nat) : State := State.reportCore c 17 (State.runItems c 17 s)

/-- Runs the gang that core c leads until its feeder sends nothing more: the leader, then the members. -/
def State.runGang (c : Nat) : Nat → State → State
  | 0, s => s
  | n + 1, s =>
    let u := (s.runCore c).each ((s.runCore c).members c) fun s m => s.runCore m
    if (u.core c).fifo = (s.core c).fifo ∧ (u.core c).hdrs = (s.core c).hdrs then u else State.runGang c n u

/-- Runs core c, and the gang that it is a member of. -/
def State.kickCore (s : State) (c : Nat) : State :=
  let l := s.coreLeader c
  if l = c ∨ s.gstate c ≠ 1 then State.runGang c 4096 s else State.runGang l 4096 (s.runCore c)

/-- A MATRIX word with opcode op for every enabled core of the cluster of thread k (R150). -/
def State.matrixWord (s : State) (k op w ag : Nat) : State :=
  let g := k / 4
  let on := (upFrom (8 * g) 8).filter s.coreOn
  if (s.thread k).prog = .handler then s.reportWord k (malformed 60)
  else if on = [] then s.reportWord k { status := .empty }
  else
    let id := s.nextId
    let s := s.accept { id := 0, unit := 0x0100, index := 8 * g, owner := s.ownerOf k, tag := (s.thread k).tag
                        parts := on.length }
    let s := s.each on fun s c =>
      let o := s.fld (Reg.cirMcStatus (c / 8) (c % 8)) Fld.cirMcStatusOrdinal
      let s := s.when (op == 2) fun s => s.setFld (Reg.cirMcStatus (c / 8) (c % 8)) Fld.cirMcStatusOrdinal (o + 1)
      let m := s.core c
      s.setCore c { m with fifo := m.fifo ++ [{ item := id, op, w, ag, key := k, ord := o, loadStride := m.loadStride
                                                emitStride := m.emitStride, rime := m.rime }] }
    s.each on State.kickCore

/-- Issues a MATRIX word (R79, R80). -/
def State.issueMatrix (s : State) (k op w ag : Nat) : State := s.issue k (progWord 0 op w) fun s => s.matrixWord k op w ag

/-- MCFG (R150). -/
def execMcfg (g : ClusterId) (t : Thr) (w : BitVec 56) (s : State) : Res :=
  .next (s.issueMatrix (threadKey g t) 0 w.toNat 0)

/-- MLOAD (R152). -/
def execMload (g : ClusterId) (t : Thr) (w : BitVec 56) (s : State) : Res :=
  .next (s.issueMatrix (threadKey g t) 1 w.toNat (s.agAdd (threadKey g t) (bits w.toNat 48 4)))

/-- MSTREAM (R153). -/
def execMstream (g : ClusterId) (t : Thr) (w : BitVec 56) (s : State) : Res :=
  .next (s.issueMatrix (threadKey g t) 2 w.toNat (s.agAdd (threadKey g t) (bits w.toNat 48 4)))

/-- MCLR (R154). -/
def execMclr (g : ClusterId) (t : Thr) (w : BitVec 56) (s : State) : Res :=
  .next (s.issueMatrix (threadKey g t) 3 w.toNat 0)

/-- MEMIT (R155). -/
def execMemit (g : ClusterId) (t : Thr) (w : BitVec 56) (s : State) : Res :=
  .next (s.issueMatrix (threadKey g t) 4 w.toNat (s.agAdd (threadKey g t) (bits w.toNat 48 4)))

/-- The member with the most units outstanding, the lowest of several. -/
def State.slowest (s : State) (l : List Nat) : Option Nat :=
  l.find? fun m => l.all fun o => s.outstanding o ≤ s.outstanding m

/-- BOW_WAIT (R159): a member whose MSTREAM waits for units, or a leader whose feeder is held under R145. -/
def execBowWait (g : ClusterId) (k : Fin 8) (us : Nat) (s : State) : Res :=
  let c := 8 * g.val + k.val
  let lim := s.fld (Reg.cirMcCtrl g k) Fld.cirMcCtrlBowLimit
  let m := s.core c
  .next (s.when (s.coreOn c && lim != 0 && decide (lim < us)) fun s =>
    if s.coreLeader c = c then
      match s.slowest (s.members c) with
      | none => s
      | some x => s.when (m.hdrs != [] && decide (32 ≤ s.outstanding x) && !m.heldLog) fun s =>
          (s.setCore c { m with heldLog := true }).raise 0x0201 (s.clusterJob g) 0x0100 c x us
    else
      match m.fifo.find? fun i => i.op == 2 && i.result == none with
      | some i => s.when (!i.logged && s.outstanding c == 0) fun s =>
          let f : CoreItem → CoreItem := fun x => if x.item = i.item then { x with logged := true } else x
          (s.setCore c { m with fifo := m.fifo.map f }).raise 0x0201 (s.clusterJob g) 0x0100 c c us
      | none => s)

/-! ## Epochs and resets of cores (R144, R163, R165) -/

/-- The check of an enabled core against the values c would have: EN and LEADER of any core (Table 5-19). -/
def State.gerr (s : State) (en : Nat → Bool) (leader : Nat → Nat) (part : Nat → Option Nat) (c : Nat) : Nat :=
  let changes := en c != s.coreOn c || (en c && leader c != s.coreLeader c)
  if en c ∧ !en (leader c) then 1
  else if en c ∧ leader (leader c) ≠ leader c then 2
  else if en c ∧ (part (c / 8) = none ∨ part (leader c / 8) ≠ part (c / 8)) then 3
  else if changes ∧ (s.core c).fifo.any fun i => i.op == 2 && i.result == none then 4
  else 0

/-- Ends the items of a core with ABORTED and the done count reached; those that have finished keep their results (R33). -/
def State.abortCore (s : State) (c detail : Nat) : State :=
  let l := (s.core c).fifo
  (s.setCore c { s.core c with fifo := [] }).each l fun u i =>
    u.partDone i.item (c % 8) (i.result.getD { status := .aborted, detail := detail, count := s.columnsDone c i })

/-- The loss of a gang's leader: every other member has GSTATE 2, and the MSTREAMs that it holds end (R163). -/
def State.loseGang (s : State) (c : Nat) : State :=
  s.each (s.members c) fun s m =>
    let s := (s.setGstate m 2).runCore m
    s.setCore m { s.core m with hdrs := [] }

/-- The reset of a core (R163, R165). -/
def State.resetCore (s : State) (c : Nat) : State :=
  let s := s.abortCore c 3
  let s := s.when (s.coreOn c && s.coreLeader c == c) fun s => s.loseGang c
  let regs := [Reg.cirMcCtrl, Reg.cirMcGang, Reg.cirMcLoff, Reg.cirMcEoff, Reg.cirMcSoff, Reg.cirMcStatus, Reg.cirMcFrzBank,
    Reg.cirMcFrzAcc, Reg.cirMcFrzBow, Reg.cirMcHold, Reg.cirMcUnits, Reg.cirMcMismatch]
  let s := s.each regs fun s r => s.resetReg (r (c / 8) (c % 8))
  let s := s.each [0, 1] fun s b => s.resetReg (Reg.cirMcBank (c / 8) (c % 8) b)
  s.setCore c {}

end Sys2Proof.Machine
end

