-- ==== Sys2Proof/Machine/Operands.lean ====
section
/-! DEFINITION. The operand forms of the vector words: contexts, streams and source selectors, their checks, their ranges and the
values that they deliver (R166 to R175). -/
namespace Sys2Proof.Machine

/-- The vector context of thread k (R167). -/
def State.vctx (s : State) (k : Nat) : VCtx := s.vctxs.get {} k

/-- Replaces it. -/
def State.setVctx (s : State) (k : Nat) (x : VCtx) : State := s.setVctxs (s.vctxs.put {} k x)

/-- Stream n of a context. -/
def VCtx.stream (c : VCtx) (n : Nat) : VStream := c.streams.get {} n

/-- Replaces it. -/
def VCtx.setStream (c : VCtx) (n : Nat) (x : VStream) : VCtx := { c with streams := c.streams.put {} n x }

/-- How an op uses a source (Table 6-8). -/
inductive Use where
  | no | one | pair
  deriving DecidableEq, Repr

/-- The sources a, b and c that a VOP uses (Table 6-8). -/
def opUse (op : Nat) : Use × Use × Use :=
  if op ∈ [0x00, 0x07, 0x08, 0x09, 0x20, 0x21, 0x23, 0x24, 0x25] then (.one, .no, .no)
  else if op ∈ [0x01, 0x02, 0x03, 0x05, 0x06, 0x0A, 0x0C, 0x22] then (.one, .one, .no)
  else if op = 0x0D then (.one, .pair, .one)
  else if op = 0x26 then (.one, .pair, .no)
  else (.one, .one, .one)

/-- Elements that a VOP writes (Table 6-8). -/
def outCount (op vl : Nat) : Nat := if op ∈ [0x20, 0x21, 0x22] then 1 else if op ∈ [0x23, 0x24, 0x25] then 2 else vl

/-- An operand: a constant, or a stream (Table 6-7). -/
inductive VSrc where
  | const (v : Val)
  | stream (n : Nat) (x : VStream)
  deriving DecidableEq, Repr

/-- The operand of a selector that the op uses; none where the selector breaks a rule (R174). -/
def VCtx.source (c : VCtx) (imm : W32) (u : Use) (code : Nat) : Option VSrc :=
  if code < 8 then
    let x := c.stream code
    if x.valid ∧ ((u = .pair ∧ x.mode = 2) ∨ (u = .one ∧ x.mode < 2)) then some (.stream code x) else none
  else if u ≠ .one then none
  else if code = 8 then some (.const (val32 imm))
  else if code = 9 then some (.const (.fin false 0 0))
  else if code = 0xA then some (.const (.fin false 1 0))
  else none

/-- Does a selector break Table 6-7 or the operand rules of Table 6-8 (R174)? -/
def VCtx.badSource (c : VCtx) (imm : W32) (u : Use) (code : Nat) : Bool :=
  if u = .no then code != 0xF else (c.source imm u code).isNone

/-- Elements of a source stream that an item of length vl reads (Table 6-2). -/
def VStream.count (x : VStream) (vl : Nat) : Nat := if x.mode = 0 then vl else x.mode

/-- The range of a stream in Firn: device address and bytes of n elements. -/
def VStream.range (x : VStream) (n : Nat) : Nat × Nat := (firnBase + x.ptr, n * fmtSize x.fmt)

/-- The source streams of an item. -/
def streamsOf (l : List (Option VSrc)) : List (Nat × VStream) :=
  l.filterMap fun o => match o with | some (.stream n x) => some (n, x) | _ => none

/-- Is a stream's pointer aligned to its elements (R171)? -/
def VStream.aligned (x : VStream) : Bool := x.ptr % fmtSize x.fmt == 0

/-- May the destination range of n elements stand beside a source's range (R171)? -/
def rangesAgree (vl n : Nat) (d x : VStream) : Bool :=
  let r := d.range n
  let q := x.range (x.count vl)
  !overlaps r.1 r.2 q.1 q.2 || (x.mode == 0 && d.ptr == x.ptr && d.fmt == x.fmt && n == vl)

/-- The values of n elements of a source; a BCAST element is given to every lane. -/
def State.srcVals (s : State) (n : Nat) (o : Option VSrc) : List Val :=
  match o with
  | none => List.replicate n (.fin false 0 0)
  | some (.const v) => List.replicate n v
  | some (.stream _ x) =>
    if x.mode = 0 then valuesOf x.fmt n (s.bytes (firnBase + x.ptr) (n * fmtSize x.fmt))
    else
      let v := valuesOf x.fmt 1 (s.bytes (firnBase + x.ptr) (fmtSize x.fmt))
      List.replicate n (v.headD (.fin false 0 0))

/-- The two values of a pair operand (Table 6-2). -/
def State.pairVals (s : State) (o : Option VSrc) : Val × Val :=
  match o with
  | some (.stream _ x) =>
    let l := valuesOf x.fmt 2 (s.bytes (firnBase + x.ptr) (2 * fmtSize x.fmt))
    (l.getD 0 (.fin false 0 0), l.getD 1 (.fin false 0 0))
  | _ => (.fin false 0 0, .fin false 0 0)

/-- The first element of an item that a source cannot deliver, with the failing byte (R182). -/
def State.srcBad (s : State) (vl : Nat) (x : VStream) : Option (Nat × Nat) :=
  let r := x.range (x.count vl)
  match s.badByte r.1 r.2 with
  | some a => some (if x.mode = 0 then (a - r.1) / fmtSize x.fmt else 0, a)
  | none => none

/-- The earlier of two failures; of two for one element the one with the lower byte. -/
def earlier (a b : Option (Nat × Nat)) : Option (Nat × Nat) :=
  match a, b with
  | none, y => y
  | x, none => x
  | some x, some y => if x.1 < y.1 ∨ (x.1 = y.1 ∧ x.2 ≤ y.2) then some x else some y

/-- The pointer of stream n of a context advances by m elements where ADV is 1 (R170). -/
def VCtx.advance (c : VCtx) (n m : Nat) : VCtx :=
  let x := c.stream n
  if x.adv then c.setStream n { x with ptr := (x.ptr + m * fmtSize x.fmt) % 2 ^ 31 } else c

end Sys2Proof.Machine
end

