-- ==== Sys2Proof/Machine/Vector.lean ====
section
/-! DEFINITION. The vector engines: VCFG, VSTR, VTBL, the VOPs, and curve tables (chapter 6; log entries 26, 27). -/
namespace Sys2Proof.Machine

/-! ## Curve tables (R183 to R187) -/

/-- A coefficient of a curve table: the FP32 code at a byte. -/
def curveCode (b : Bytes) (o : Nat) : W32 := BitVec.ofNat 32 (field b o 4)

/-- Its value. -/
def curveVal (b : Bytes) (o : Nat) : Val := val32 (curveCode b o)

/-- MODE of a table. -/
def curveMode (b : Bytes) : Nat := field b 0 1

/-- NLOG of a table. -/
def curveNlog (b : Bytes) : Nat := field b 1 1

/-- Bytes of a table (R183). -/
def curveSize (n : Nat) : Nat := 32 + 12 * 2 ^ n

/-- The first failing field of a table, as its bit offset (R184). -/
def curveFault (b : Bytes) : Option Nat :=
  let n := curveNlog b
  let lin := curveMode b = 0
  let nonfin := fun (o : Nat) => (curveVal b o).nonfinite
  if 2 < curveMode b then some 0
  else if 8 < n then some 8
  else if field b 3 1 ≠ 0 then some 24
  else match (if lin then [4, 8, 12, 16, 20].find? nonfin else none) with
    | some o => some (8 * o)
    | none =>
      if field b 24 4 ≠ 0 then some 192
      else if (crc32c (b.take 28 ++ b.drop 32)).toNat ≠ field b 28 4 then some 224
      else ((upFrom 0 (3 * 2 ^ n)).find? fun i => nonfin (32 + 4 * i)).map fun i => 8 * (32 + 4 * i)

/-- v × 2^k. -/
def Val.scale (v : Val) (k : Int) : Val :=
  match v with
  | .fin s m e => .fin s m (e + k)
  | _ => v

/-- ⌊v⌋ of a finite value. -/
def Val.floor (v : Val) : Int :=
  match v with
  | .fin s m e =>
    let x : Int := if s then -(m : Int) else m
    if 0 ≤ e then x * (2 ^ e.toNat : Nat) else x / (2 ^ (-e).toNat : Nat)
  | _ => 0

/-- An integer as a value. -/
def intVal (i : Int) : Val := .fin (decide (i < 0)) i.natAbs 0

/-- v - i. -/
def Val.less (v : Val) (i : Int) : Val := sumVals [v, (intVal i).neg]

/-- The addends of P_i(g) (R186). -/
def segment (b : Bytes) (i : Nat) (g : Val) : List Val :=
  let o := 32 + 12 * i
  [curveVal b o, (curveVal b (o + 4)).mul g, (curveVal b (o + 8)).mul (g.mul g)]

/-- T(t) of a LINEAR table for an input that is not NaN (R186, R187). -/
def curveLinear (b : Bytes) (t : Val) : Val :=
  let n := curveNlog b
  let edge := fun (c0 c1 : Val) => if c1.lt (.fin false 0 0) || (Val.fin false 0 0).lt c1 then c1.mul t else c0
  match t with
  | .inf true => edge (curveVal b 8) (curveVal b 12)
  | .inf false => edge (curveVal b 16) (curveVal b 20)
  | _ =>
    let p := (sumVals [t, (curveVal b 4).neg]).scale (n - signed 8 (field b 2 1))
    let i := p.floor
    if i < 0 then sumVals [curveVal b 8, (curveVal b 12).mul t]
    else if (2 ^ n : Nat) ≤ i then sumVals [curveVal b 16, (curveVal b 20).mul t]
    else sumVals (segment b i.toNat (p.less i))

/-- T(t) of an EXP2 table for an input that is not NaN. Beyond ±2^10 the power of two no longer changes the rounded result. -/
def curveExp2 (b : Bytes) (t : Val) : Val :=
  match t with
  | .inf s => if s then .fin false 0 0 else .inf false
  | _ =>
    let n := curveNlog b
    let k := t.floor
    let x := (t.less k).scale n
    let i := x.floor
    (sumVals (segment b i.toNat (x.less i))).scale (max (-1000) (min 2000 k))

/-- T(t) of a LOG2 table for an input that is not NaN. -/
def curveLog2 (b : Bytes) (t : Val) : Val :=
  match t with
  | .fin false m e =>
    if m = 0 then .inf true
    else
      let l := Nat.log2 m
      let x := (Val.fin false (m - 2 ^ l) (-l)).scale (curveNlog b)
      let i := x.floor
      sumVals (intVal (e + l) :: segment b i.toNat (x.less i))
  | .fin true m _ => if m = 0 then .inf true else .nan false
  | .inf false => .inf false
  | _ => .nan false

/-- T(t) of a table (R186, R187). -/
def curveEval (b : Bytes) (t : Val) : W32 :=
  if t.isNan then rne32 (.nan false)
  else match curveMode b with
    | 0 => rne32 (curveLinear b t)
    | 1 => rne32 (curveExp2 b t)
    | _ => rne32 (curveLog2 b t)

/-- Curve slot n of cluster g. -/
def State.curve (s : State) (g n : Nat) : Curve := s.curves.get {} (4 * g + n)

/-- Replaces it, with what the registers show of it (Table 6-14). -/
def State.setCurve (s : State) (g n : Nat) (b : Bytes) : State :=
  let v := b != []
  let s := s.setCurves (s.curves.put {} (4 * g + n) { bytes := b })
  let s := s.setReg (Reg.cirVeTbl g n) (if v then BitVec.ofNat 32 (curveMode b + curveNlog b * 4 + 64) else 0)
  let s := s.setReg (Reg.cirVeTchk g n) (if v then BitVec.ofNat 32 (field b 28 4) else 0)
  s.setFld (Reg.cirVeStatus g) Fld.cirVeStatusTvalid (setBits (s.fld (Reg.cirVeStatus g) Fld.cirVeStatusTvalid) n 1 (b2n v))

/-! ## Issue -/

/-- The completion of a VECTOR word of thread k: its item completes in issue order (R182). -/
def State.veDone (s : State) (k : Nat) (c : Completion) : State := s.acceptDone 0x0101 (k / 4) 0 k c

/-- Issues a VECTOR word of a KIND with the bits w below it (R79, R166, R172). -/
def State.issueVector (s : State) (k kind w : Nat) (f : State → State × Completion) : State :=
  s.issue k (2 ^ 60 + kind * 2 ^ 58 + w) fun s => (f s).1.veDone k (f s).2

/-- The checks of VCFG (Table 6-3, R266); a Rime set is checked over all of VALUE (log entry 139). -/
def vcfgFault (w : Nat) : Option Nat :=
  let sel := bits w 54 4
  let v := bits w 0 32
  if sel = 1 ∧ 63 < v then some 0
  else if sel = 4 ∧ 2 ^ 16 ≤ v then some 16
  else if sel = 0 ∧ 2 ^ 20 ≤ v then some 20
  else if sel = 2 ∧ 2 ^ 31 ≤ v then some 31
  else if bits w 32 22 ≠ 0 then some 32
  else if 5 ≤ sel then some 54
  else none

/-- VCFG (R167, Table 6-3). -/
def State.doVcfg (s : State) (k w : Nat) : State × Completion :=
  match vcfgFault w with
  | some d => (s, malformed d)
  | none =>
    let c := s.vctx k
    let v := bits w 0 32
    (s.setVctx k (match bits w 54 4 with
      | 0 => { c with vl := v }
      | 1 => { c with rime := v }
      | 2 => { c with site := v }
      | 3 => { c with epos := v }
      | _ => { c with thresh := v }), {})

/-- VCFG (R167). -/
def execVcfg (g : ClusterId) (t : Thr) (w : BitVec 58) (s : State) : Res :=
  .next (s.issueVector (threadKey g t) 0 w.toNat fun s => s.doVcfg (threadKey g t) w.toNat)

/-- The checks of VSTR (Table 6-4). -/
def vstrFault (w : Nat) : Option Nat :=
  if bits w 35 14 ≠ 0 then some 35
  else if bits w 50 2 = 3 then some 50
  else if fmtOf (bits w 52 3) = none then some 52
  else none

/-- VSTR (R173). -/
def State.doVstr (s : State) (k w : Nat) : State × Completion :=
  match vstrFault w, fmtOf (bits w 52 3) with
  | some d, _ => (s, malformed d)
  | none, none => (s, malformed 52)
  | none, some f =>
    let x : VStream := { ptr := (bits w 0 31 + s.agAdd k (bits w 31 4)) % 2 ^ 31, fmt := f, mode := bits w 50 2, adv := bit w 49
                         valid := true }
    (s.setVctx k ((s.vctx k).setStream (bits w 55 3) x), {})

/-- VSTR (R173). -/
def execVstr (g : ClusterId) (t : Thr) (w : BitVec 58) (s : State) : Res :=
  .next (s.issueVector (threadKey g t) 1 w.toNat fun s => s.doVstr (threadKey g t) w.toNat)

/-- The part of VTBL after its range checks: the table of NLOG n at device address a (R184). -/
def State.loadCurve (s : State) (g slot a : Nat) (job : Option Nat) : State × Completion :=
  let n := curveNlog (s.bytes a 32)
  let size := if 8 < n then 32 else curveSize n
  match s.rangeFault job a size with
  | some x => (s, addressFault x)
  | none =>
    match s.badByte a size with
    | some x => ((s.chargeRange a size).setCurve g slot [], dataError x 0)
    | none =>
      let b := s.bytes a size
      match curveFault b with
      | some d => (s.setCurve g slot [], malformed d)
      | none => (s.setCurve g slot b, {})

/-- VTBL (R184). -/
def State.doVtbl (s : State) (k w : Nat) : State × Completion :=
  let a := bits w 0 31 + s.agAdd k (bits w 31 4)
  let g := k / 4
  if a % 32 ≠ 0 then (s, malformed 0)
  else if bits w 35 21 ≠ 0 then (s, malformed 35)
  else match s.rangeFault (s.threadJob k) (firnBase + a) 32 with
    | some x => (s, addressFault x)
    | none =>
      match s.badByte (firnBase + a) 32 with
      | some x => ((s.chargeRange (firnBase + a) 32).setCurve g (bits w 56 2) [], dataError x 0)
      | none => s.loadCurve g (bits w 56 2) (firnBase + a) (s.threadJob k)

/-- VTBL (R184). -/
def execVtbl (g : ClusterId) (t : Thr) (w : BitVec 58) (s : State) : Res :=
  .next (s.issueVector (threadKey g t) 3 w.toNat fun s => s.doVtbl (threadKey g t) w.toNat)

/-! ## Elementwise results (R176, R188) -/

/-- The zero value. -/
def zeroVal : Val := .fin false 0 0

/-- The greater of two values; +0 above -0; NaN where one is NaN. -/
def maxVal (a b : Val) : Val :=
  if a.isNan || b.isNan then .nan false
  else if a.lt b then b
  else if b.lt a then a
  else if a.sign then b else a

/-- The lesser of two values; -0 below +0; NaN where one is NaN. -/
def minVal (a b : Val) : Val :=
  if a.isNan || b.isNan then .nan false
  else if a.lt b then a
  else if b.lt a then b
  else if a.sign then a else b

/-- An arithmetic result, rounded once to FP32 (R119, R176). -/
def arith (v : Val) : Val := val32 (rne32 v)

/-- The element result of an op without a curve or a random value (Table 6-8). -/
def elemResult (op : Nat) (a b c : Val) : Val :=
  match op with
  | 0x00 => a
  | 0x01 => arith (sumVals [a, b])
  | 0x02 => arith (sumVals [a, b.neg])
  | 0x03 => arith (a.mul b)
  | 0x04 => arith (sumVals [a.mul b, c])
  | 0x05 => arith (maxVal a b)
  | 0x06 => arith (minVal a b)
  | 0x07 => arith (if a.sign then a.neg else a)
  | 0x08 => arith a.neg
  | 0x09 => arith ((Val.fin false 1 0).div a)
  | 0x0A => arith (sumVals [a, b]).rsqrt
  | _ => if zeroVal.lt c then a else b

/-- The element result of VCRV (R186). -/
def crvResult (table : Bytes) (a b c : Val) : Val := val32 (curveEval table (arith (sumVals [a.mul b, c])))

/-- The element result of VNRM: the exact product, rounded once. -/
def nrmResult (mu rho a c : Val) : Val := arith (((sumVals [a, mu.neg]).mul rho).mul c)

/-- The random value of element e (R188, R283). -/
def State.dropRandom (s : State) (k e : Nat) : Nat :=
  let g := k / 4
  let t := (s.thread k).tag
  let key := fun (n : Nat) => s.reg (Reg.cirNuSeed g n)
  let x := serac (key 0) (key 1) (key 2) (key 3) (BitVec.ofNat 32 (s.vctx k).site) t.step (t.mb.toNat * 2 ^ 29 + e / 8)
  bits x (16 * (e % 8)) 16

/-- Is element i of a VDROP dropped? -/
def State.dropped (s : State) (k i : Nat) : Bool := decide (s.dropRandom k ((s.vctx k).epos + i) < (s.vctx k).thresh)

/-! ## Row results (R177, R178, R189, R190) -/

/-- √(a / b) of positive numbers with a sticky bit, for one rounding. -/
def sqrtRatio (a b : Nat) (e : Int) : Val :=
  let a' := if e % 2 = 0 then a else 2 * a
  let e' := if e % 2 = 0 then e else e - 1
  let h := 66 + Nat.log2 b
  let q := a' * 2 ^ (2 * h)
  let r := isqrt (q / b)
  .fin false (2 * r + b2n (r * r * b != q)) (e' / 2 - h - 1)

/-- RNE(1 ÷ √(x ÷ n)) for the exact x = n (v + ε) (R178): +∞ at zero, the canonical NaN below. -/
def rhoOf (x : Val) (n : Nat) : Val :=
  match x with
  | .nan _ => .nan false
  | .inf s => if s then .nan false else .fin false 0 0
  | .fin s m e => if m = 0 then .inf false else if s then .nan false else sqrtRatio n m (-e)

/-- A natural number as a value. -/
def natVal (n : Nat) : Val := .fin false n 0

/-- NSTAT and RSTAT: the pair (μ, ρ) of a row (R178). -/
def rowStats (mean : Bool) (l : List Val) (eps : Val) : List Val :=
  let n := l.length
  if l.any Val.nonfinite then [if mean then arith (.nan false) else zeroVal, arith (.nan false)]
  else
    let s1 := sumVals l
    let s2 := sumVals (l.map fun a => a.mul a)
    if mean then
      let x := sumVals [s2.mul (natVal n), (s1.mul s1).neg, eps.mul (natVal (n * n))]
      [arith (s1.div (natVal n)), arith (rhoOf x (n * n))]
    else [zeroVal, arith (rhoOf (sumVals [s2, eps.mul (natVal n)]) n)]

/-- The greatest element of a row (R177). -/
def rowMax (l : List Val) : Val :=
  match l with
  | [] => .inf true
  | a :: r => arith (r.foldl maxVal a)

/-- e_i of a row for its m (R189, Table 6-12). -/
def expOf (table : Bytes) (scale m a : Val) : Val :=
  match m with
  | .inf true => zeroVal
  | .inf false => if a = .inf false then .fin false 1 0 else zeroVal
  | .nan _ => .nan false
  | _ => val32 (curveEval table (arith ((arith (sumVals [a, m.neg])).mul scale)))

/-- SMXS: the pair (m, l) of a row (R189, Table 6-12). -/
def softStats (table : Bytes) (scale : Val) (l : List Val) : List Val :=
  let m := rowMax l
  if m.isNan then [.nan false, .nan false]
  else [m, arith (sumVals (l.map (expOf table scale m)))]

/-- SMXN: r_i (R190). -/
def softElem (table : Bytes) (scale m l a : Val) : Val :=
  if m = .inf true then zeroVal else arith ((expOf table scale m a).div l)

/-- The results of a row op (codes 0x20 to 0x26). -/
def rowResults (op : Nat) (imm : W32) (table : Bytes) (a b : List Val) (pair : Val × Val) : List Val :=
  let scale := val32 imm
  let zero : Val := .fin true 0 0
  match op with
  | 0x20 => [arith (scale.mul (sumVals (zero :: a)))]
  | 0x21 => [rowMax a]
  | 0x22 => [arith (scale.mul (sumVals (zero :: a.zipWith Val.mul b)))]
  | 0x23 => rowStats true a scale
  | 0x24 => rowStats false a scale
  | 0x25 => softStats table scale a
  | _ => a.map (softElem table scale pair.1 pair.2)

/-! ## VOPs -/

/-- The field checks of a VOP, the lowest offset first (R172, R174, R175, R185, R189, R283). -/
def State.vopFault (s : State) (k op w : Nat) : Option Nat :=
  let c := s.vctx k
  let imm := BitVec.ofNat 32 w
  let u := opUse op
  let d := c.stream (bits w 49 3)
  let table := (s.curve (k / 4) (bits w 32 2)).bytes
  let soft := op = 0x25 ∨ op = 0x26
  if soft ∧ !zeroVal.lt (val32 imm) ∨ soft ∧ (val32 imm).nonfinite then some 0
  else if (op = 0x0B ∨ soft) ∧ (table = [] ∨ (soft ∧ curveMode table ≠ 1)) then some 32
  else if bits w 34 3 ≠ 0 then some 34
  else if c.badSource imm u.2.2 (bits w 37 4) then some 37
  else if c.badSource imm u.2.1 (bits w 41 4) then some 41
  else if c.badSource imm u.1 (bits w 45 4) then some 45
  else if !d.valid ∨ d.mode ≠ 0 ∨ (op ∈ [0x23, 0x24, 0x25] ∧ d.fmt ≠ .fp32) then some 49
  else if op = 0x0C ∧ (s.thread k).prog = .fill then some 52
  else none

/-- The results of a VOP on its first n elements; all of them for a row op. -/
def State.vopResults (s : State) (k op w n : Nat) (a b c : Option VSrc) : List Val :=
  let imm := BitVec.ofNat 32 w
  let table := (s.curve (k / 4) (bits w 32 2)).bytes
  let va := s.srcVals n a
  if 0x20 ≤ op then rowResults op imm table va (s.srcVals n b) (s.pairVals b)
  else if op = 0x0D then
    let p := s.pairVals b
    va.zipWith (nrmResult p.1 p.2) (s.srcVals n c)
  else if op = 0x0C then
    let w := ((upFrom 0 n).zip (s.srcVals n b)).map fun x => if s.dropped k x.1 then zeroVal else x.2
    va.zipWith (fun a w => arith (a.mul w)) w
  else
    let f := if op = 0x0B then crvResult table else elemResult op
    (va.zip ((s.srcVals n b).zip (s.srcVals n c))).map fun x => f x.1 x.2.1 x.2.2

/-- What a VOP does after its checks, on its first n elements (R170, R176, R182, R188, R189). Streams of an item with done count 0 do not
advance (log entry 137). -/
def State.vopRun (s : State) (k op w n : Nat) (a b c : Option VSrc) : State :=
  let x := s.vctx k
  let g := k / 4
  let di := bits w 49 3
  let d := x.stream di
  let row := decide (0x20 ≤ op)
  let res := if row && n != x.vl then [] else s.vopResults k op w n a b c
  let out := convertAll d.fmt res
  let drops := if op = 0x0C then ((upFrom 0 n).filter fun i => s.dropped k i).length else 0
  let masked := op == 0x25 && res.head? == some (.inf true)
  let used := streamsOf [a, b, c]
  let adv := fun (c : VCtx) (q : Nat × VStream) =>
    if q.1 = di then c else c.advance q.1 (if q.2.mode = 0 then n else if n = 0 then 0 else q.2.mode)
  let y := (used.eraseDups.foldl adv x).advance di (if row && op != 0x26 then res.length else n)
  let y := if op = 0x0C then { y with epos := (y.epos + y.vl) % 2 ^ 32 } else y
  let s := s.when (!out.1.isEmpty) fun s => s.store (firnBase + d.ptr) out.1
  let s := s.rimeOf k x.rime out.2
  let s := s.bumpBy (Reg.cirVeElems g) n
  let s := s.bumpBy (Reg.cirVeDropped g) drops
  let s := s.bumpBy (Reg.cirVeMasked g) (b2n masked)
  s.setVctx k y

/-- A VOP (R168 to R190): the fields of its word are checked before VL (log entry 136), alignment and overlap before its ranges (log
entry 138). -/
def State.doVop (s : State) (k op w : Nat) : State × Completion :=
  match s.vopFault k op w with
  | some d => (s, malformed d)
  | none =>
    let x := s.vctx k
    let imm := BitVec.ofNat 32 w
    let u := opUse op
    let src := fun (u : Use) (lo : Nat) => if u = .no then none else x.source imm u (bits w lo 4)
    let a := src u.1 45
    let b := src u.2.1 41
    let c := src u.2.2 37
    let d := x.stream (bits w 49 3)
    let n := outCount op x.vl
    let used := streamsOf [a, b, c]
    if x.vl = 0 then (s, { status := .empty })
    else if !d.aligned || used.any (fun q => !q.2.aligned) || (op == 0x0C && decide (2 ^ 32 < x.epos + x.vl)) then (s, malformed 0)
    else if used.any fun q => !rangesAgree x.vl n d q.2 then (s, malformed 49)
    else
      let job := s.threadJob k
      let ranges := d.range n :: used.map fun q => q.2.range (q.2.count x.vl)
      match ranges.foldl (fun m r => optMin m (s.rangeFault job r.1 r.2)) none with
      | some f => (s, addressFault f)
      | none =>
        match used.foldl (fun m q => earlier m (s.srcBad x.vl q.2)) none with
        | none => (s.vopRun k op w x.vl a b c, { count := x.vl })
        | some (i, f) =>
          let m := if 0x20 ≤ op then 0 else i
          ((s.chargeUe f).vopRun k op w m a b c, dataError f m)

/-- Issues a VOP (R175). -/
def State.issueVop (s : State) (g : Nat) (t : Thr) (op w : Nat) : State :=
  s.issueVector (threadKey g t) 2 (op * 2 ^ 52 + w) fun s => s.doVop (threadKey g t) op w

/-- VMOV (R176, Table 6-8). -/
def execVmov (g : ClusterId) (t : Thr) (w : BitVec 52) (s : State) : Res := .next (s.issueVop g t 0x00 w.toNat)

/-- VADD (R176, Table 6-8). -/
def execVadd (g : ClusterId) (t : Thr) (w : BitVec 52) (s : State) : Res := .next (s.issueVop g t 0x01 w.toNat)

/-- VSUB (R176, Table 6-8). -/
def execVsub (g : ClusterId) (t : Thr) (w : BitVec 52) (s : State) : Res := .next (s.issueVop g t 0x02 w.toNat)

/-- VMUL (R176, Table 6-8). -/
def execVmul (g : ClusterId) (t : Thr) (w : BitVec 52) (s : State) : Res := .next (s.issueVop g t 0x03 w.toNat)

/-- VFMA (R176, Table 6-8). -/
def execVfma (g : ClusterId) (t : Thr) (w : BitVec 52) (s : State) : Res := .next (s.issueVop g t 0x04 w.toNat)

/-- VMAX (R176, Table 6-8). -/
def execVmax (g : ClusterId) (t : Thr) (w : BitVec 52) (s : State) : Res := .next (s.issueVop g t 0x05 w.toNat)

/-- VMIN (R176, Table 6-8). -/
def execVmin (g : ClusterId) (t : Thr) (w : BitVec 52) (s : State) : Res := .next (s.issueVop g t 0x06 w.toNat)

/-- VABS (R176, Table 6-8). -/
def execVabs (g : ClusterId) (t : Thr) (w : BitVec 52) (s : State) : Res := .next (s.issueVop g t 0x07 w.toNat)

/-- VNEG (R176, Table 6-8). -/
def execVneg (g : ClusterId) (t : Thr) (w : BitVec 52) (s : State) : Res := .next (s.issueVop g t 0x08 w.toNat)

/-- VRCP (R176, Table 6-8). -/
def execVrcp (g : ClusterId) (t : Thr) (w : BitVec 52) (s : State) : Res := .next (s.issueVop g t 0x09 w.toNat)

/-- VRSQ (R176, Table 6-8). -/
def execVrsq (g : ClusterId) (t : Thr) (w : BitVec 52) (s : State) : Res := .next (s.issueVop g t 0x0A w.toNat)

/-- VCRV (R186, Table 6-8). -/
def execVcrv (g : ClusterId) (t : Thr) (w : BitVec 52) (s : State) : Res := .next (s.issueVop g t 0x0B w.toNat)

/-- VDROP (R188, Table 6-8). -/
def execVdrop (g : ClusterId) (t : Thr) (w : BitVec 52) (s : State) : Res := .next (s.issueVop g t 0x0C w.toNat)

/-- VNRM (R176, Table 6-8). -/
def execVnrm (g : ClusterId) (t : Thr) (w : BitVec 52) (s : State) : Res := .next (s.issueVop g t 0x0D w.toNat)

/-- VSEL (R176, Table 6-8). -/
def execVsel (g : ClusterId) (t : Thr) (w : BitVec 52) (s : State) : Res := .next (s.issueVop g t 0x0E w.toNat)

/-- RSUM (R177, Table 6-8). -/
def execRsum (g : ClusterId) (t : Thr) (w : BitVec 52) (s : State) : Res := .next (s.issueVop g t 0x20 w.toNat)

/-- RMAX (R177, Table 6-8). -/
def execRmax (g : ClusterId) (t : Thr) (w : BitVec 52) (s : State) : Res := .next (s.issueVop g t 0x21 w.toNat)

/-- RDOT (R177, Table 6-8). -/
def execRdot (g : ClusterId) (t : Thr) (w : BitVec 52) (s : State) : Res := .next (s.issueVop g t 0x22 w.toNat)

/-- NSTAT (R178, Table 6-8). -/
def execNstat (g : ClusterId) (t : Thr) (w : BitVec 52) (s : State) : Res := .next (s.issueVop g t 0x23 w.toNat)

/-- RSTAT (R178, Table 6-8). -/
def execRstat (g : ClusterId) (t : Thr) (w : BitVec 52) (s : State) : Res := .next (s.issueVop g t 0x24 w.toNat)

/-- SMXS (R189, Table 6-8). -/
def execSmxs (g : ClusterId) (t : Thr) (w : BitVec 52) (s : State) : Res := .next (s.issueVop g t 0x25 w.toNat)

/-- SMXN (R190, Table 6-8). -/
def execSmxn (g : ClusterId) (t : Thr) (w : BitVec 52) (s : State) : Res := .next (s.issueVop g t 0x26 w.toNat)

/-- The reset of the vector engine of a cluster (R193). -/
def State.resetVector (s : State) (g : Nat) : State :=
  let s := s.each (upFrom 0 4) fun s n => s.setCurve g n []
  let s := s.each (upFrom 0 4) fun s t => s.setVctx (4 * g + t) {}
  s.each [Reg.cirVeStatus g, Reg.cirVeElems g, Reg.cirVeHaz g, Reg.cirVePort g, Reg.cirVeMasked g, Reg.cirVeDropped g] State.resetReg

end Sys2Proof.Machine
end

