-- ==== Sys2Proof/Machine/Moraine.lean ====
section
/-! DEFINITION. The Moraine engines and the Snowpack version store: GACC, OPT, VBEGIN, VEND, VREAD, VPUB, publications, failure
notices, compaction, reset and adoption (chapter 8; log entries 22, 28, 29). -/
namespace Sys2Proof.Machine

/-! ## Words and records (R233 to R237) -/

/-- The context of a MORAINE word of thread k: p × 4 + U_VST of the current row (R234). -/
def State.morCtx (s : State) (k : Nat) : Nat :=
  match s.partOf (k / 4) with
  | none => 0
  | some p => 4 * p + (match (s.part p).row with | some r => r.uVst | none => 0)

/-- A command record (Table 8-3). -/
structure MorRec where
  tensor : Nat
  count : Nat
  ix : Nat
  e0 : Nat
  rime : Nat
  sel : Nat
  init : Bool
  tagv : Bool
  version : Nat
  a0 : Nat
  a1 : Nat
  a2 : Nat
  a3 : Nat
  deriving DecidableEq, Repr

/-- Parses a command record. -/
def parseMorRec (b : Bytes) : MorRec :=
  let x := leNat b
  { tensor := bits x 0 31, count := bits x 32 32, ix := bits x 64 32, e0 := bits x 96 40, rime := bits x 136 8
    sel := bits x 144 8, init := bit x 152, tagv := bit x 153, version := bits x 160 16, a0 := bits x 192 48
    a1 := bits x 256 48, a2 := bits x 320 48, a3 := bits x 384 48 }

/-- The first reserved field of a record that is not zero (R235). -/
def morReserved (b : Bytes) : Option Nat :=
  let x := leNat b
  ([(31, 1), (154, 6), (176, 16), (240, 16), (304, 16), (368, 16), (432, 16), (496, 16)].find? fun f => bits x f.1 f.2 != 0).map
    Prod.fst

/-- The lowest of a list of failing offsets. -/
def lowest (l : List (Bool × Nat)) : Option Nat := l.foldl (fun m x => if x.1 then optMin m (some x.2) else m) none

/-- The format of a gradient source (R239). -/
def gaccFmt (sel : Nat) : Option Fmt := if sel < 4 then fmtOf sel else none

/-- The target format of a VREAD (R260). -/
def vreadFmt (sel : Nat) : Option Fmt := if 1 ≤ sel ∧ sel < 4 then fmtOf sel else none

/-- Does a record of n bytes at slice offset o leave the slice (R517)? -/
def beyondSlice (o n : Nat) : Bool := decide (sliceSize < o + n)

/-- Is a range wholly in a stack-local window of stack st (R236)? -/
def State.localTo (s : State) (st a n : Nat) : Bool :=
  decide (a + n ≤ 2 ^ 40) && s.winLocal (a / 2 ^ 37) && (n == 0 || (a / 2 ^ 34 == (a + n - 1) / 2 ^ 34)) && bits a 34 3 == st

/-- Bytes of a state set (Table 8-5). -/
def setSize (sel c : Nat) : Nat := if sel = 1 then 9 * c else 5 * c

/-- The first element that some arrays cannot deliver, as element and byte: address, element size and count of each. -/
def State.firstBad (s : State) (l : List (Nat × Nat)) (n : Nat) : Option (Nat × Nat) :=
  l.foldl (fun m x => earlier m ((s.badByte x.1 (n * x.2)).map fun b => ((b - x.1) / x.2, b))) none

/-- Reads the first n elements of some arrays: address and element size of each. -/
def State.readArrays (s : State) (l : List (Nat × Nat)) (n : Nat) : State := s.each l fun s x => s.chargeRange x.1 (n * x.2)

/-- The completion of n elements, or of the first m of them where element m could not be read. -/
def elemsDone (n : Nat) (bad : Option (Nat × Nat)) : Completion :=
  match bad with
  | none => { count := n }
  | some (m, a) => dataError a m

/-- Counts what an engine has done: elements, stack traffic, non-finite results (Tables 8-4, 8-11). -/
def State.engCount (s : State) (st n bytes nonfin : Nat) : State :=
  ((s.bumpBy (Reg.morEngElems st) n).engBytes st bytes).bumpBy (Reg.morEngNonfin st) nonfin

/-- Charges the error that ended a command: none where the byte can be read (R260). -/
def State.chargeBad (s : State) (bad : Option (Nat × Nat)) : State :=
  match bad with
  | none => s
  | some (_, a) => s.when (s.badByte a 1).isSome fun s => s.chargeUe a

/-! ## GACC (R239) -/

/-- The results of a GACC: x, or RNE(acc + x). -/
def gaccResults (f : Fmt) (init : Bool) (n : Nat) (src acc : Bytes) : List W32 :=
  let x := (valuesOf f n src).map fun v => BitVec.ofNat 32 (convert .fp32 v).1
  if init then x
  else x.zipWith (fun x a => fadd a x) ((valuesOf .fp32 n acc).map fun v => BitVec.ofNat 32 (convert .fp32 v).1)

/-- The source format of a GACC that its checks have passed. -/
def MorRec.source (r : MorRec) : Fmt := (gaccFmt r.sel).getD .fp32

/-- The checks of a GACC in the order of R236. -/
def State.gaccCheck (s : State) (x : MorCtl) (st : Nat) (b : Bytes) : Option Completion :=
  let r := parseMorRec b
  match lowest [((morReserved b).isSome, (morReserved b).getD 0), (decide (63 < r.rime), 136), ((gaccFmt r.sel).isNone, 144)] with
  | some d => some (malformed d)
  | none =>
    if r.count = 0 then some { status := .empty }
    else match optMin (s.rangeFault x.job r.a0 (r.count * fmtSize r.source)) (s.rangeFault x.job r.a1 (4 * r.count)) with
      | some a => some (addressFault a)
      | none =>
        (lowest [(r.a0 % 4 != 0, 192), (r.a1 % 4 != 0 || !s.localTo st r.a1 (4 * r.count), 256)]).map malformed

/-- A GACC that its checks have passed. -/
def State.doGacc (s : State) (x : MorCtl) (st : Nat) (b : Bytes) : State × Completion :=
  let r := parseMorRec b
  let f := r.source
  let arrays := (r.a0, fmtSize f) :: (if r.init then [] else [(r.a1, 4)])
  let bad := s.firstBad arrays r.count
  let n := match bad with | some y => y.1 | none => r.count
  let v := gaccResults f r.init n (s.bytes r.a0 (n * fmtSize f)) (s.bytes r.a1 (4 * n))
  let t : Tally := { conv := n, nonfin := (v.filter fun y => (val32 y).nonfinite).length }
  let s := s.readArrays arrays n
  let s := s.when (n != 0) fun s => s.store r.a1 (v.flatMap fun y => leBytes 4 y.toNat)
  (((s.rimeOf x.key r.rime t).engCount st n (8 * n) t.nonfin).chargeBad bad, elemsDone r.count bad)

/-! ## OPT (R241 to R244) -/

/-- The sign of R243. -/
def signOf (t : W32) : W32 :=
  match val32 t with
  | .nan _ => 0x7FC00000#32
  | .inf s => if s then 0xBF800000#32 else 0x3F800000#32
  | .fin s m _ => if m = 0 then 0 else if s then 0xBF800000#32 else 0x3F800000#32

/-- x, m1 and v1 of a kernel for parameter words p (R243, Table 8-6). -/
def optKernel (sel : Nat) (p : Nat → W32) (w g m v : W32) : W32 × W32 × W32 :=
  let lr := fneg (p 0)
  match sel with
  | 0 =>
    let m1 := ffma (p 3) m (ffma (p 1) w g)
    (ffma lr m1 w, m1, v)
  | 1 =>
    let m1 := ffma (p 3) m (fmul (p 4) g)
    let v1 := ffma (p 5) v (fmul (p 6) (fmul g g))
    let d := fadd (fsqrt (fmul v1 (p 9))) (p 7)
    let u := fdiv (fmul m1 (p 8)) d
    (ffma lr (ffma (p 1) w u) w, m1, v1)
  | _ =>
    let t := ffma (p 3) m (fmul (p 4) g)
    (ffma lr (ffma (p 1) w (signOf t)) w, ffma (p 5) m (fmul (p 6) g), v)

/-- What OPT writes for an element (R244): the master code, m1, v1, the remainder, and the tally of sr16 and of q′. -/
structure OptOut where
  code : Nat
  m : W32
  v : W32
  q : Nat
  tally : Tally
  deriving DecidableEq, Repr

/-- One element of OPT: master code, remainder code, gradient, state and random value. -/
def optElem (sel : Nat) (p : Nat → W32) (code q : Nat) (g m v : W32) (rnd : Nat) : OptOut :=
  let w := rne32 (sumVals [valueOf .w16 code, valueOf .w8 q])
  let r := optKernel sel p w (fmul g (p 2)) m v
  let c := sr16 r.1 rnd
  let t : Tally := ({} : Tally).add (sr16Events r.1 rnd)
  let cv := valueOf .w16 c
  if cv.nonfinite then { code := c, m := r.2.1, v := r.2.2, q := 0, tally := t }
  else
    let e := convert .w8 (sumVals [val32 r.1, cv.neg])
    { code := c, m := r.2.1, v := r.2.2, q := e.1, tally := t.add e.2 }

/-- The sum of two tallies. -/
def Tally.plus (a b : Tally) : Tally :=
  { conv := a.conv + b.conv, zero := a.zero + b.zero, sat := a.sat + b.sat, nonfin := a.nonfin + b.nonfin }

/-- An FP32 word of memory. -/
def State.word (s : State) (a : Nat) : W32 := BitVec.ofNat 32 (leNat (s.bytes a 4))

/-- The elements of an OPT in the order of their index (R241 to R244). -/
def State.optOuts (s : State) (x : MorCtl) (st n : Nat) (r : MorRec) : List OptOut :=
  let c := x.ctx
  let key := fun (n : Nat) => s.reg (Reg.cirNuSeed (x.key / 4) n)
  let rd := if s.headNum c % 2 = 0 then r.a1 else r.a2
  let master := s.slotAddr c st (s.fld (Reg.snpCtxHead c) Fld.snpCtxHeadSlot) + 2 * r.ix
  let qoff := setSize r.sel r.count - r.count
  let p := fun (i : Nat) => s.word (r.a3 + 4 * i)
  (upFrom 0 n).map fun i =>
    let e := r.e0 + i
    let y := serac (key 0) (key 1) (key 2) (key 3) (BitVec.ofNat 32 (2 ^ 31 + r.tensor)) x.step (e / 8)
    optElem r.sel p (leNat (s.bytes (master + 2 * i) 2)) (leNat (s.bytes (rd + qoff + i) 1)) (s.word (r.a0 + 4 * i))
      (s.word (rd + 4 * i)) (if r.sel = 1 then s.word (rd + 4 * r.count + 4 * i) else 0) (bits y (16 * (e % 8)) 16)

/-- The arrays that OPT reads, as address and element size. -/
def State.optArrays (s : State) (c st : Nat) (r : MorRec) : List (Nat × Nat) :=
  let rd := if s.headNum c % 2 = 0 then r.a1 else r.a2
  let master := s.slotAddr c st (s.fld (Reg.snpCtxHead c) Fld.snpCtxHeadSlot) + 2 * r.ix
  let q := (rd + setSize r.sel r.count - r.count, 1)
  [(master, 2), (r.a0, 4), (rd, 4), q] ++ (if r.sel = 1 then [(rd + 4 * r.count, 4)] else [])

/-- The writes of an OPT (R244). -/
def State.optWrite (s : State) (x : MorCtl) (st : Nat) (r : MorRec) (l : List OptOut) : State :=
  let c := x.ctx
  let wr := if s.headNum c % 2 = 0 then r.a2 else r.a1
  let n := l.length
  if n = 0 then s
  else
    let s := s.store wr (l.flatMap fun o => leBytes 4 o.m.toNat)
    let s := s.when (r.sel == 1) fun s => s.store (wr + 4 * r.count) (l.flatMap fun o => leBytes 4 o.v.toNat)
    let s := s.store (wr + setSize r.sel r.count - r.count) (l.flatMap fun o => leBytes 1 o.q)
    let b := s.writeBuild c st x.slot r.ix (l.map OptOut.code)
    let t := l.foldl (fun t o => t.plus o.tally) b.2
    let per := (if r.sel = 1 then 15 else 11) + (if r.sel = 1 then 11 else 7) + s.workSize c
    (b.1.rimeOf x.key r.rime t).engCount st n (per * n) t.nonfin

/-- The checks of an OPT in the order of R236. -/
def State.optCheck (s : State) (x : MorCtl) (st : Nat) (b : Bytes) : Option Completion :=
  let r := parseMorRec b
  match lowest [((morReserved b).isSome, (morReserved b).getD 0), (decide (63 < r.rime), 136), (decide (2 < r.sel), 144)] with
  | some d => some (malformed d)
  | none =>
    let sz := setSize r.sel r.count
    if r.count = 0 then some { status := .empty }
    else match optMin (optMin (s.rangeFault x.job r.a0 (4 * r.count)) (s.rangeFault x.job r.a1 sz))
        (optMin (s.rangeFault x.job r.a2 sz) (s.rangeFault x.job r.a3 64)) with
      | some a => some (addressFault a)
      | none =>
        (lowest [(decide (s.elems x.ctx < r.ix + r.count), 64), (r.a0 % 4 != 0 || !s.localTo st r.a0 (4 * r.count), 192),
          (r.a1 % 64 != 0 || !s.localTo st r.a1 sz, 256), (r.a2 % 64 != 0 || !s.localTo st r.a2 sz, 320),
          (r.a3 % 64 != 0, 384)]).map malformed

/-- An OPT that its checks have passed. -/
def State.doOpt (s : State) (x : MorCtl) (st : Nat) (b : Bytes) : State × Completion :=
  let r := parseMorRec b
  match s.badByte r.a3 64 with
  | some a => (s.chargeRange r.a3 64, dataError a 0)
  | none =>
    let bad := s.firstBad (s.optArrays x.ctx st r) r.count
    let n := match bad with | some y => y.1 | none => r.count
    let outs := s.optOuts x st n r
    ((((s.chargeRange r.a3 64).readArrays (s.optArrays x.ctx st r) n).optWrite x st r outs).chargeBad bad, elemsDone r.count bad)

/-! ## VREAD (R258 to R260) -/

/-- An exception entry of a delta slot (R245): its address, image index and code. -/
structure Exc where
  addr : Nat
  ix : Nat
  code : Nat
  deriving DecidableEq, Repr

/-- The exception entries of delta slot d in stack st. -/
def State.exceptions (s : State) (c st d : Nat) : List Exc :=
  let a := s.slotAddr c st d + pageUp (s.elems c)
  (upFrom 0 ((s.snp c).exc.get 0 (8 * d + st))).map fun i =>
    let x := leNat (s.bytes (a + 8 * i) 8)
    ⟨a + 8 * i, bits x 0 40, bits x 48 16⟩

/-- The exception entries of n elements from ix of delta slot d: of each element whose delta byte is 0x80, its entry where it has one. -/
def State.excsOf (s : State) (c st d ix n : Nat) : List (Nat × Option Exc) :=
  let exc := s.exceptions c st d
  ((upFrom 0 n).filter fun i => s.bytes (s.slotAddr c st d + ix + i) 1 == [0x80#8]).map fun i => (i, exc.find? fun e => e.ix == ix + i)

/-- The code that delta byte b gives for reference code ref (R258). -/
def deltaCode (ref b : Nat) : Nat := if b = 0 then ref else code16 (ord16 ref + signed 8 b)

/-- The masters of n elements from ix of delta slot d: none for a 0x80 byte without an exception entry. -/
def State.deltaMasters (s : State) (c st d ix n : Nat) : List (Option Nat) :=
  let ref := s.slotAddr c st (s.fld (Reg.snpSlot c d) Fld.snpSlotRef)
  let base := s.slotAddr c st d
  let exc := s.exceptions c st d
  (upFrom ix n).map fun i =>
    let b := leNat (s.bytes (base + i) 1)
    if b = 0x80 then (exc.find? fun e => e.ix == i).map Exc.code
    else some (deltaCode (leNat (s.bytes (ref + 2 * i) 2)) b)

/-- The arrays that a VREAD from ix of slot k reads, as address and element size. -/
def State.versionArrays (s : State) (c st k ix : Nat) (work : Bool) : List (Nat × Nat) :=
  let a := s.slotAddr c st k
  if s.fld (Reg.snpSlot c k) Fld.snpSlotKind = 1 then
    [(a + ix, 1), (s.slotAddr c st (s.fld (Reg.snpSlot c k) Fld.snpSlotRef) + 2 * ix, 2)]
  else if work then [(a + 2 * s.elems c + s.workSize c * ix, s.workSize c)]
  else [(a + 2 * ix, 2)]

/-- The first element of a version's range that cannot be read, with its byte (R201, R260). -/
def State.versionBad (s : State) (c st k ix n : Nat) (work : Bool) : Option (Nat × Nat) :=
  let a := s.slotAddr c st k
  if s.fld (Reg.snpSlot c k) Fld.snpSlotKind = 1 then
    let bad : Nat × Option Exc → Option (Nat × Nat) := fun x => match x.2 with
      | none => some (x.1, a + ix + x.1)
      | some e => (s.badByte e.addr 8).map fun b => (x.1, b)
    earlier (s.firstBad (s.versionArrays c st k ix work) n) ((s.excsOf c st k ix n).findSome? bad)
  else s.firstBad (s.versionArrays c st k ix work) n

/-- The bytes of n elements of a version from ix in a format, with the tally of conversions (R260). Bits [15:12] of a W12 image
are written zero (R115; log entry 109). -/
def State.versionBytes (s : State) (c st k ix n : Nat) (f : Fmt) : Bytes × Tally :=
  let a := s.slotAddr c st k
  if s.fld (Reg.snpSlot c k) Fld.snpSlotKind = 1 then
    convertAll f ((s.deltaMasters c st k ix n).map fun o => valueOf .w16 (o.getD 0))
  else if s.wfmt c = some f then
    if f = .w16 then (s.bytes (a + 2 * ix) (2 * n), {})
    else (containers f (s.bytes (a + 2 * s.elems c + s.workSize c * ix) (s.workSize c * n)), {})
  else convertAll f (valuesOf .w16 n (s.bytes (a + 2 * ix) (2 * n)))

/-- Reads the first n elements from ix of slot k, with the exception entries that they name (R222, R226). -/
def State.readVersion (s : State) (c st k ix n : Nat) (work : Bool) : State :=
  let excs := if s.fld (Reg.snpSlot c k) Fld.snpSlotKind = 1 then (s.excsOf c st k ix n).filterMap Prod.snd else []
  (s.readArrays (s.versionArrays c st k ix work) n).each excs fun s e => s.chargeRange e.addr 8

/-- Bytes of stack traffic of a VREAD of n elements (Table 8-4). -/
def State.vreadTraffic (s : State) (c st k ix n : Nat) (f : Fmt) : Nat :=
  if s.fld (Reg.snpSlot c k) Fld.snpSlotKind = 1 then
    3 * n + 8 * ((s.bytes (s.slotAddr c st k + ix) n).filter fun b => b == 0x80#8).length
  else if s.wfmt c = some f ∧ f ≠ .w16 then s.workSize c * n
  else 2 * n

/-- The target format of a VREAD that its checks have passed. -/
def MorRec.target (r : MorRec) : Fmt := (vreadFmt r.sel).getD .w16

/-- The version that a VREAD names (R260). -/
def MorRec.ver (r : MorRec) (x : MorCtl) : Nat := if r.tagv then x.ver.toNat else r.version

/-- The checks of a VREAD in the order of R236. -/
def State.vreadCheck (s : State) (x : MorCtl) (b : Bytes) : Option Completion :=
  let r := parseMorRec b
  match lowest [((morReserved b).isSome, (morReserved b).getD 0), (decide (63 < r.rime), 136), ((vreadFmt r.sel).isNone, 144),
      ((s.snpFind x.ctx (r.ver x)).isNone, 160)] with
  | some d => some (malformed d)
  | none =>
    if r.count = 0 then some { status := .empty }
    else match s.rangeFault x.job r.a0 (r.count * fmtSize r.target) with
      | some a => some (addressFault a)
      | none => if s.elems x.ctx < r.ix + r.count then some (malformed 64) else none

/-- A VREAD that its checks have passed. -/
def State.doVread (s : State) (x : MorCtl) (st : Nat) (b : Bytes) : State × Completion :=
  let r := parseMorRec b
  let c := x.ctx
  let f := r.target
  let slot := (s.snpFind c (r.ver x)).getD 0
  let work := s.wfmt c == some f && f != .w16
  let bad := s.versionBad c st slot r.ix r.count work
  let n := match bad with | some y => y.1 | none => r.count
  let v := s.versionBytes c st slot r.ix n f
  let bytes := s.vreadTraffic c st slot r.ix n f
  let s := s.readVersion c st slot r.ix n work
  let s := s.when (n != 0) fun s => s.store r.a0 v.1
  (((s.rimeOf x.key r.rime v.2).engCount st n bytes v.2.nonfin).chargeBad bad, elemsDone r.count bad)

/-! ## VPUB (R250) -/

/-- Sends the masters of a range of the build to every D peer, as transfers of an item. -/
def State.publishRange (s : State) (x : MorCtl) (st id ix : Nat) (body : Bytes) : State :=
  let tail := snpTail (s.fld (Reg.snpCtxPeers x.ctx) Fld.snpCtxPeersPeerCtx) false x.num x.bstep st ix
  let s := s.each (s.dPeers x.ctx) fun s d => (s.submit { dest := d, typ := 4, vc := 5, tail, body, why := .item id }).1
  s.joinItem id

/-- The address of the masters that a VPUB sends. -/
def State.vpubAddr (s : State) (x : MorCtl) (st : Nat) (r : MorRec) : Nat := s.slotAddr x.ctx st x.slot + 2 * r.ix

/-- The checks of a VPUB in the order of R236. -/
def State.vpubCheck (s : State) (x : MorCtl) (b : Bytes) : Option Completion :=
  let r := parseMorRec b
  match lowest [((morReserved b).isSome, (morReserved b).getD 0), (r.version != x.num, 160)] with
  | some d => some (malformed d)
  | none =>
    if r.count = 0 then some { status := .empty }
    else if s.elems x.ctx < r.ix + r.count then some (malformed 64)
    else none

/-- A VPUB that its checks have passed, as item id. -/
def State.doVpub (s : State) (x : MorCtl) (st id : Nat) (b : Bytes) : State :=
  let r := parseMorRec b
  let a := s.vpubAddr x st r
  match s.badByte a (2 * r.count) with
  | some e => (s.chargeUe e).finish id (dataError e 0)
  | none => ((s.chargeRange a (2 * r.count)).publishRange x st id r.ix (s.bytes a (2 * r.count))).engCount st r.count (2 * r.count) 0

/-! ## Issue -/

/-- The checks of a MORAINE word itself (R234, R249): [47:16], STACK, a reserved OP, and an OPT, VPUB or VEND without the build or the
head that it needs. -/
def State.morWordFault (s : State) (op w c : Nat) : Option Nat :=
  let noBuild := (op == 1 || op == 3 || op == 5) && !s.buildOpen c
  let noHead := op == 1 && !s.hasHead c
  lowest [(bits w 16 32 != 0, 16), (decide (8 ≤ bits w 52 4) || ((op == 2 || op == 3) && bits w 52 4 != 0), 52),
    (noBuild || noHead || decide (6 ≤ op), 56)]

/-- The completion of a command of engine st: its item (R237). -/
def State.morDone (s : State) (k st info : Nat) (c : Completion) : State :=
  s.accept { id := 0, unit := 0x0201, index := st, chan := k, owner := s.ownerOf k, tag := (s.thread k).tag
             comp := some c, info := info }

/-- What a command of thread k takes with it as it is accepted. -/
def State.morCtl (s : State) (k : Nat) : MorCtl :=
  let c := s.morCtx k
  { key := k, ctx := c, job := s.threadJob k, ver := (s.thread k).tag.ver, step := (s.thread k).tag.step
    num := s.buildNum c, slot := s.buildSlot c, bstep := s.reg (Reg.snpCtxBstep c) }

/-- The checks of a command of engine st in the order of R236: none where it passes. -/
def State.morCheck (s : State) (st : Nat) (m : MorCmd) : Option Completion :=
  match m.op with
  | 0 => s.gaccCheck m.ctl st m.rcd
  | 1 => s.optCheck m.ctl st m.rcd
  | 4 => s.vreadCheck m.ctl m.rcd
  | _ => s.vpubCheck m.ctl m.rcd

/-- A command of engine st runs: its item is complete with what its checks or its work give. -/
def State.morRun (s : State) (st : Nat) (m : MorCmd) : State :=
  let fin : State × Completion → State := fun r => r.1.finish m.item r.2
  match s.morCheck st m with
  | some e => s.finish m.item e
  | none =>
    match m.op with
    | 0 => fin (s.doGacc m.ctl st m.rcd)
    | 1 => fin (s.doOpt m.ctl st m.rcd)
    | 4 => fin (s.doVread m.ctl st m.rcd)
    | _ => s.doVpub m.ctl st m.item m.rcd

/-- The range of a command that may lie in a host window, and whether the command reads it (R236, R239, R243, R260). -/
def MorCmd.range (m : MorCmd) : Nat × Nat × Bool :=
  let r := parseMorRec m.rcd
  match m.op with
  | 0 => (r.a0, r.count * fmtSize r.source, true)
  | 1 => (r.a3, 64, true)
  | 4 => (r.a0, r.count * fmtSize r.target, false)
  | _ => (0, 0, false)

/-- Does a command that passes its checks use the window of a host port? -/
def State.morHost (s : State) (st : Nat) (m : MorCmd) : Bool := (hostPortOf m.range.1).isSome && (s.morCheck st m).isNone

/-- Must a command wait: for its port to leave GRACE, or for READ_DATA that its READ_REQs ask for (R393, R416)? -/
def State.morWaits (s : State) (st : Nat) (m : MorCmd) : Bool :=
  let a := m.range
  s.morHost st m && (s.hostHeld a.1 || (a.2.2 && (!m.asked || s.hostBusy a.1 a.2.1)))

/-- Goes on with the commands of engine st that wait, in their order, n at most: one that has ended otherwise leaves; the first sends its
READ_REQs as soon as its port is UP, and runs once it need not wait (R237, R393, R416). -/
def State.pumpMor (st : Nat) : Nat → State → State
  | 0, s => s
  | n + 1, s =>
    let x := s.stack st
    match x.cmds with
    | [] => s
    | m :: rest =>
      let live := s.items.live.any fun i => i.id == m.item && i.comp == none
      let a := m.range
      if !live then State.pumpMor st n (s.setStack st { x with cmds := rest })
      else if !s.morWaits st m then State.pumpMor st n ((s.setStack st { x with cmds := rest }).morRun st m)
      else if a.2.2 && !m.asked && !s.hostHeld a.1 then
        (s.setStack st { x with cmds := { m with asked := true } :: rest }).hostRead a.1 a.2.1
      else s

/-- Goes on with the commands of every engine that wait. -/
def State.pumpMors (s : State) : State :=
  s.each ((upFrom 0 8).filter fun st => !(s.stack st).cmds.isEmpty) fun s st => State.pumpMor st (s.stack st).cmds.length s

/-- The first command of each engine whose access to the window of port p is in flight, or waits in GRACE, ends LINK_LOST (R416). -/
def State.loseMor (s : State) (p : Nat) (held : Bool) : State :=
  s.each (upFrom 0 8) fun s st =>
    match (s.stack st).cmds with
    | [] => s
    | m :: _ =>
      let a := m.range
      let mine := hostPortOf a.1 == some p && s.morHost st m
      s.when (mine && (if m.asked then s.hostBusy a.1 a.2.1 else held)) fun s => s.finish m.item { status := .linkLost }

/-- A command with a record, once the word's checks have passed: it runs at once, but where an earlier command of its engine or a host
window lets it wait (R237, R393, R416). -/
def State.morCommand (s : State) (k op w : Nat) : State :=
  let st := bits w 52 4
  let o := bits w 0 16 * 64 + s.agAdd k (bits w 48 4)
  let a := firnAddr (k / 4) o
  match s.recordFault k o 64 with
  | some e => s.morDone k st 0 e
  | none => match s.badByte a 64 with
    | some x => (s.chargeRange a 64).morDone k st 0 (dataError x 0)
    | none =>
      let m : MorCmd := { item := s.nextId, op, ctl := s.morCtl k, rcd := s.bytes a 64 }
      let info := if op = 1 ∨ op = 5 then 1 + m.ctl.ctx else 0
      let whole := if op = 5 then (parseMorRec m.rcd).count else 0
      let s := s.accept { id := 0, unit := 0x0201, index := st, chan := k, owner := s.ownerOf k, tag := (s.thread k).tag
                          parts := 1, whole, info }
      let x := s.stack st
      if x.cmds.isEmpty && !s.morWaits st m then s.morRun st m
      else State.pumpMor st 1 (s.setStack st { x with cmds := x.cmds ++ [m] })

/-- Issues a MORAINE word to the queue of its engine (R79, R233): VBEGIN and VEND, whose STACK is zero, to that of engine 0 (log entry
28). It completes ABORTED where the stack is isolated (Table 12-5), and with DATA_ERROR where the die takes no MSG traffic (Table
12-4); else f gives its effect. -/
def State.issueEngine (s : State) (k op w : Nat) (f : State → State) : State :=
  let st := bits w 52 4
  s.issue k (progWord 5 op w) fun s =>
    if (s.thread k).prog = .fill then s.reportWord k (malformed 60)
    else match s.morWordFault op w (s.morCtx k) with
      | some d => if 8 ≤ st then s.reportWord k (malformed d) else s.morDone k st 0 (malformed d)
      | none =>
        if s.stackCut st then s.morDone k st 0 { status := .aborted, detail := 4 }
        else if s.fld (Reg.twiLstatus st) Fld.twiLstatusState = 3 ∧ !bit (s.fld (Reg.twiLneg st) Fld.twiLnegFeatures) 4 then
          s.morDone k st 0 { status := .dataError }
        else f s

/-- Issues a GACC, OPT, VREAD or VPUB. -/
def State.issueMor (s : State) (k op w : Nat) : State := s.issueEngine k op w fun s => s.morCommand k op w

/-- GACC (R239). -/
def execGacc (g : ClusterId) (t : Thr) (w : BitVec 56) (s : State) : Res := .next (s.issueMor (threadKey g t) 0 w.toNat)

/-- OPT (R243). -/
def execOpt (g : ClusterId) (t : Thr) (w : BitVec 56) (s : State) : Res := .next (s.issueMor (threadKey g t) 1 w.toNat)

/-- VREAD (R260). -/
def execVread (g : ClusterId) (t : Thr) (w : BitVec 56) (s : State) : Res := .next (s.issueMor (threadKey g t) 4 w.toNat)

/-- VPUB (R250). -/
def execVpub (g : ClusterId) (t : Thr) (w : BitVec 56) (s : State) : Res := .next (s.issueMor (threadKey g t) 5 w.toNat)

/-! ## Builds and heads (R248, R252 to R254) -/

/-- Accepts a VBEGIN or a VEND into the queue of engine 0. -/
def State.snpItem (s : State) (k : Nat) (r : Option Completion) : State :=
  s.accept { id := 0, unit := 0x0201, index := 0, chan := k, owner := s.ownerOf k, tag := (s.thread k).tag, comp := r }

/-- VBEGIN after its word's checks (R248, R483). -/
def State.doVbegin (s : State) (k c : Nat) : State :=
  let held := s.mirrorHold c (s.thread k).tag.step
  if s.buildOpen c && !held then s.snpItem k (some {})
  else match (if held then none else s.buildRoom c) with
    | some slot => (s.beginBuild c slot (s.thread k).tag.step).snpItem k (some {})
    | none =>
      let id := s.nextId
      let s := s.snpItem k none
      let x := s.snp c
      let s := s.setSnp c { x with begins := x.begins ++ [{ item := id, key := k, step := (s.thread k).tag.step }] }
      s.setThread k { s.thread k with wait := .item id }

/-- VEND after its word's checks (R252). -/
def State.doVend (s : State) (k c : Nat) : State :=
  let id := s.nextId
  let s := s.snpItem k none
  let x := s.snp c
  (s.setSnp c { x with vends := x.vends ++ [id] }).setFld (Reg.snpCtxBuild c) Fld.snpCtxBuildState 2

/-- VBEGIN (R248). -/
def execVbegin (g : ClusterId) (t : Thr) (w : BitVec 56) (s : State) : Res :=
  .next (s.issueEngine (threadKey g t) 2 w.toNat fun s => s.doVbegin (threadKey g t) (s.morCtx (threadKey g t)))

/-- VEND (R252). -/
def execVend (g : ClusterId) (t : Thr) (w : BitVec 56) (s : State) : Res :=
  .next (s.issueEngine (threadKey g t) 3 w.toNat fun s => s.doVend (threadKey g t) (s.morCtx (threadKey g t)))

/-- VBEGIN_OPEN (R248, R251, R483): the oldest VBEGIN that waits and no mirror point holds back, or else the oldest arrival, opens
a build; where one is open, the VBEGINs that nothing holds back any more complete. -/
def execVbeginOpen (c : CtxId) (s : State) : Res :=
  .next (if s.buildOpen c then s.endBegins c
    else match s.buildRoom c, (s.snp c).begins.filter (fun b => !s.mirrorHold c b.step), (s.snp c).waits with
      | some k, b :: _, _ => s.beginBuild c k b.step
      | some k, [], w :: _ => s.beginBuild c k w.pub.step
      | _, _, _ => s)

/-- The µs for which a VBEGIN has waited. -/
def State.beginWait (s : State) (b : BeginWait) : Nat :=
  match s.item b.item with
  | some i => (s.now.toNat - i.time.toNat) / 1000
  | none => 0

/-- Has the wait of a VBEGIN passed the limit of its context without an event (R248)? -/
def State.beginLate (s : State) (c : Nat) (b : BeginWait) : Bool :=
  let lim := s.fld (Reg.snpCtxTmo c) Fld.snpCtxTmoSlotLimit
  lim != 0 && decide (lim < s.beginWait b) && !b.logged

/-- SNOWPACK_SLOT_WAIT (R248): a VBEGIN whose wait has passed the limit logs its event once. -/
def execSnowpackSlotWait (c : CtxId) (n : Nat) (s : State) : Res :=
  let l := (s.snp c).begins
  .next (match l[n]? with
    | none => s
    | some b => s.when (s.beginLate c b) fun s =>
      (s.setSnp c { s.snp c with begins := l.set n { b with logged := true } }).raise 0x0305 (some (s.partJob (c / 4))) 0x0040 c c
        (s.beginWait b))

/-- A FREE delta slot. -/
def State.freeDelta (s : State) (c : Nat) : Option Nat :=
  (s.snpSlots c).find? fun k => decide (s.snpFull c ≤ k) && s.slotState c k == 0 && !s.compacting c k

/-- Starts the compaction of the full slot of a version that has become LIVE (R258). -/
def State.startCompact (s : State) (c k head : Nat) : State :=
  match s.freeDelta c with
  | none => s
  | some d =>
    s.when (s.fld (Reg.snpCtxCfg c) Fld.snpCtxCfgMode == 1 && s.slotState c k == 3 && s.refsTo c k == []) fun s =>
      (s.setFld (Reg.snpSlot c k) Fld.snpSlotCompact 1).setReg (Reg.snpSlot c d)
        (BitVec.ofNat 32 (8 + s.slotVer c k * 16 + head * 2 ^ 28 + 2 ^ 31))

/-- The build becomes HEAD, the former head LIVE, and every VEND that waits completes (R252, R257, R258, R479). -/
def State.newHead (s : State) (c : Nat) : State :=
  let old := s.snpFind c (s.headNum c)
  let k := s.buildSlot c
  let v := s.buildNum c
  let s := match s.hasHead c, old with
    | true, some o => s.setFld (Reg.snpSlot c o) Fld.snpSlotState 3
    | _, _ => s
  let s := s.setFld (Reg.snpSlot c k) Fld.snpSlotState 2
  let s := (s.setReg (Reg.snpCtxHead c) (BitVec.ofNat 32 (v + k * 2 ^ 16 + 2 ^ 19))).closeBuild c
  let l := (s.snp c).vends
  let s := (s.setSnp c { s.snp c with vends := [] }).each l fun s id => s.finish id {}
  let s := (s.freeVersions c).mirrorMade c (s.reg (Reg.snpCtxBstep c)).toNat
  let s := match old with | some o => s.startCompact c o k | none => s
  s.flushPubs c

/-- BUILD_BECOMES_HEAD (R252). -/
def execBuildBecomesHead (c : CtxId) (s : State) : Res :=
  .next (s.when (s.fld (Reg.snpCtxBuild c) Fld.snpCtxBuildState == 2 &&
      (upFrom 0 8).all fun st => decide (s.elems c ≤ (s.snp c).counts.get 0 st)) fun s => s.newHead c)

/-- VEND_TIMEOUT (R252): the oldest VEND that waits; the build stays open. -/
def execVendTimeout (c : CtxId) (s : State) : Res :=
  .next (s.when (s.fld (Reg.snpCtxTmo c) Fld.snpCtxTmoVend != 0) fun s =>
    match (s.snp c).vends with
    | [] => s
    | id :: r =>
      let s := (s.finish id { status := .timeout }).setSnp c { s.snp c with vends := r }
      let s := s.when (r == []) fun s => s.setFld (Reg.snpCtxBuild c) Fld.snpCtxBuildState 1
      s.raise 0x0308 (some (s.partJob (c / 4))) 0x0040 c c (s.buildNum c))

/-- A publication arrives (R251). -/
def State.pubArrive (s : State) (c : Nat) (a : SnpPub) (xid : W32) : State :=
  match s.pubFate c a with
  | .wait =>
    let s := s.setSnp c { s.snp c with waits := (s.snp c).waits ++ [⟨a, xid⟩] }
    match s.buildRoom c with
    | some k => s.beginBuild c k a.step
    | none => s
  | f => s.endPub c a xid f

/-- SNP_ARRIVAL (R251). -/
def execSnpArrival (c : CtxId) (a : SnpPub) (xid : W32) (s : State) : Res := .next (s.pubArrive c a xid)

/-- A failure notice arrives (R254). -/
def State.noticeArrive (s : State) (c : Nat) (ver : BitVec 16) (step : W32) : State :=
  let mine := s.buildOpen c && s.buildNum c == ver.toNat && s.reg (Reg.snpCtxBstep c) == step
  let next := !s.buildOpen c && s.hasHead c && (s.headNum c + 1) % 0x10000 == ver.toNat
  s.when (mine || next) fun s => s.markFailed (c / 4) step

/-- FAILURE_NOTICE_RECEIVE (R254). -/
def execFailureNoticeReceive (c : CtxId) (ver : BitVec 16) (step : W32) (s : State) : Res := .next (s.noticeArrive c ver step)

/-! ## Compaction (R258, R259) -/

/-- The delta byte of code h against reference code r: 0x80 where an exception is needed (R258). -/
def deltaByte (h r : Nat) : Nat :=
  let d := ord16 h - ord16 r
  if d < -127 ∨ 127 < d then 0x80
  else
    let b := wrapInt 8 d
    if deltaCode r b = h then b else 0x80

/-- The delta bytes of full slot k against full slot ref in stack st. -/
def State.deltaBytes (s : State) (c st k ref : Nat) : List Nat :=
  let a := s.slotAddr c st k
  let b := s.slotAddr c st ref
  (upFrom 0 (s.elems c)).map fun i => deltaByte (leNat (s.bytes (a + 2 * i) 2)) (leNat (s.bytes (b + 2 * i) 2))

/-- The tally of the conversions to INT8 of a delta image: its bytes but those of exceptions (R125, R266; log entry 110). -/
def deltaTally (l : List Nat) : Tally :=
  (l.filter fun b => b != 0x80).foldl (fun t b => t.add (convert .int8 (intVal (signed 8 b))).2) {}

/-- Writes the delta image of slot k in stack st into delta slot d. -/
def State.writeDelta (s : State) (c st k d ref : Nat) : State :=
  let l := s.deltaBytes c st k ref
  let a := s.slotAddr c st d
  let ex := (upFrom 0 l.length).filter fun i => l.getD i 0 == 0x80
  let m := s.slotAddr c st k
  let entries := ex.flatMap fun i => leBytes 6 i ++ s.bytes (m + 2 * i) 2
  let s := s.when (!l.isEmpty) fun s => s.store a (l.flatMap (leBytes 1))
  let s := s.when (!entries.isEmpty) fun s => s.store (a + pageUp (s.elems c)) entries
  let s := s.rime (s.leadCluster (c / 4)) (s.fld (Reg.snpCtxCfg c) Fld.snpCtxCfgRime) (deltaTally l)
  s.setSnp c { s.snp c with exc := (s.snp c).exc.put 0 (8 * d + st) ex.length }

/-- Can the compaction of slot k against ref be completed: every element is readable and the exceptions fit (R259)? -/
def State.compactFits (s : State) (c k ref : Nat) : Bool :=
  (upFrom 0 8).all fun st =>
    (s.badByte (s.slotAddr c st k) (2 * s.elems c)).isNone && (s.badByte (s.slotAddr c st ref) (2 * s.elems c)).isNone &&
      decide (((s.deltaBytes c st k ref).filter fun b => b == 0x80).length ≤ s.fld (Reg.snpCtxExc c) Fld.snpCtxExcEntries)

/-- COMPACTION_COMPLETE (R259): both images are read, in every stack. -/
def State.endCompact (s : State) (c k : Nat) : State :=
  let v := s.slotVer c k
  match (upFrom 0 8).find? fun d =>
      s.compacting c d && s.fld (Reg.snpSlot c d) Fld.snpSlotKind == 1 && s.slotVer c d == v with
  | none => s
  | some d =>
    let ref := s.fld (Reg.snpSlot c d) Fld.snpSlotRef
    let fits := s.compactFits c k ref
    let s := s.each (upFrom 0 8) fun s st => s.readArrays [(s.slotAddr c st k, 2), (s.slotAddr c st ref, 2)] (s.elems c)
    if fits then
      let s := s.each (upFrom 0 8) fun s st => s.writeDelta c st k d ref
      let n := s.pinsOf c k
      let s := s.setReg (Reg.snpSlot c d) (BitVec.ofNat 32 (3 + 8 + v * 16 + ref * 2 ^ 28))
      let s := (s.setPins c d n).setPins c k 0
      (s.setReg (Reg.snpSlot c k) 0).freeVersions c
    else
      let s := (s.setReg (Reg.snpSlot c d) 0).setFld (Reg.snpSlot c k) Fld.snpSlotCompact 0
      (s.bump (Reg.snpCtxOver c)).freeVersions c

/-- COMPACTION_COMPLETE (R259). -/
def execCompactionComplete (c : CtxId) (k : Fin 8) (s : State) : Res :=
  .next (s.when (s.compacting c k && s.fld (Reg.snpSlot c k) Fld.snpSlotKind == 0) fun s => s.endCompact c k)

/-! ## Reset and adoption (R262) -/

/-- Frees every slot of a context and clears its head; what waits for its builds ends (R33, R262). -/
def State.snpClear (s : State) (c : Nat) : State :=
  let x := s.snp c
  let gone : Completion := { status := .aborted, detail := 3 }
  let s := s.each x.vends fun s id => s.finish id gone
  let s := s.each x.begins fun s b => (s.finish b.item gone).setThread b.key { s.thread b.key with wait := .none }
  let s := s.each (upFrom 0 8) fun s k => s.setReg (Reg.snpSlot c k) 0
  let s := (s.setReg (Reg.snpCtxHead c) 0).closeBuild c
  let s := s.setSnp c {}
  s.each x.waits fun s w => s.endPub c w.pub w.xid (if s.pubFate c w.pub == .discard then .discard else .stray)

/-- RESET is honoured only while the stage context is IDLE or RESET (R262). -/
def State.snpResetOk (s : State) (c : Nat) : Bool := s.ctxState c == 0 || s.ctxState c == 5

/-- SNP_RESET (R262). -/
def State.snpReset (s : State) (c : Nat) : State :=
  if s.snpResetOk c then s.snpClear c
  else s.writeIgnored (some (s.partJob (c / 4))) 0x0040 c (Reg.snpCtxCtrl c) 1

/-- SNP_RESET (R262). -/
def execSnpReset (c : CtxId) (s : State) : Res := .next (s.snpReset c)

/-- The lowest check of Table 8-10 that fails, 0 for none. -/
def State.adoptErr (s : State) (c slot : Nat) : Nat :=
  let delta := s.fld (Reg.snpCtxCfg c) Fld.snpCtxCfgMode = 1
  let size := sumBy (s.slotBytes c) (s.snpSlots c)
  let f := s.wfmt c
  if s.elems c = 0 then 1
  else if delta ∧ 8 < s.snpFull c + s.fld (Reg.snpCtxCfg c) Fld.snpCtxCfgDelta then 2
  else if f ≠ some .w16 ∧ f ≠ some .w12 ∧ f ≠ some .w8 then 3
  else if !s.winLocal (s.fld (Reg.snpCtxStore c) Fld.snpCtxStoreWindow) ∨
      2 ^ 34 < s.fld (Reg.snpCtxStore c) Fld.snpCtxStoreOffset * 4096 + size then 4
  else if (upFrom 0 8).any fun st => (s.rangeFault (some (s.partJob (c / 4))) (s.storeAddr c st) size).isSome then 5
  else if s.snpFull c ≤ slot ∨ s.slotState c slot ≠ 0 ∨ s.compacting c slot ∨ s.hasHead c ∨ s.buildOpen c then 6
  else 0

/-- SNP_ADOPT (R262). -/
def State.snpAdopt (s : State) (c slot ver : Nat) : State :=
  let e := s.adoptErr c slot
  let s := s.setFld (Reg.snpCtxStatus c) Fld.snpCtxStatusErr e
  s.when (e == 0) fun s =>
    let s := s.setSnp c { s.snp c with drain := (s.snp c).drain.filter fun d => d.1 != slot }
    let s := s.setReg (Reg.snpSlot c slot) (BitVec.ofNat 32 (2 + ver * 16))
    (s.setReg (Reg.snpCtxHead c) (BitVec.ofNat 32 (ver + slot * 2 ^ 16 + 2 ^ 19))).flushPubs c

/-- SNP_ADOPT (R262). -/
def execSnpAdopt (c : CtxId) (slot : Fin 8) (ver : BitVec 16) (s : State) : Res := .next (s.snpAdopt c slot ver.toNat)

/-- VBEGINs and VENDs whose items have ended wait no more. -/
def State.dropBegins (s : State) : State :=
  let ended : State → Nat → Bool := fun s id => match s.item id with | some i => i.comp != none | none => true
  s.each (s.snps.map Prod.fst) fun s c =>
    let x := s.snp c
    let gone := x.begins.filter fun b => ended s b.item
    s.when (!gone.isEmpty || x.vends.any fun id => ended s id) fun s =>
      let s := s.setSnp c { x with begins := x.begins.filter fun b => !ended s b.item, vends := x.vends.filter fun id => !ended s id }
      s.each gone fun s b => s.setThread b.key { s.thread b.key with wait := .none }

end Sys2Proof.Machine
end

