-- ==== Sys2Proof/Machine/Drift.lean ====
section
/-! DEFINITION. The Drift store: collectives with their windows, grants, rank-ordered sums and digests, active messages and
handlers, and combining queues (chapter 11; log entries 30 to 33). -/
namespace Sys2Proof.Machine

/-! ## MESSAGE words (R339) -/

/-- What a MESSAGE word reads: its record, or the completion that it ends with (R103, R339, R517); fill: its own rule says what a
fill program's word does. -/
def State.msgRecord (s : State) (k w : Nat) (fill : Bool) : State × (Completion ⊕ Bytes) :=
  let o := bits w 0 16 * 64 + s.agAdd k (bits w 48 4)
  let a := firnAddr (k / 4) o
  if bits w 16 32 ≠ 0 then (s, .inl (malformed 16))
  else if bits w 52 4 ≠ 0 then (s, .inl (malformed 52))
  else if (s.thread k).prog = .fill ∧ !fill then (s, .inl (malformed 60))
  else match s.recordFault k o 64 with
    | some c => (s, .inl c)
    | none => match s.badByte a 64 with
      | some x => (s.chargeRange a 64, .inl (dataError x 0))
      | none => (s, .inr (s.bytes a 64))

/-- Accepts an item of the message unit of thread k's cluster, of a number of parts; n is its done count when all are done. -/
def State.msgItem (s : State) (k parts n : Nat) (r : Option Completion) : State :=
  s.accept { id := 0, unit := 0x0103, index := k / 4, chan := k, ordered := false, owner := s.ownerOf k
             tag := (s.thread k).tag, parts, whole := n, comp := r }

/-- Accepts an item of the message unit that ends at once. -/
def State.msgDone (s : State) (k : Nat) (c : Completion) : State := s.msgItem k 0 0 (some c)

/-- Issues a MESSAGE word of an opcode with operand bits w: f takes the record. -/
def State.issueMsg (s : State) (k op w : Nat) (fill : Bool) (f : State → Bytes → State) : State :=
  s.issue k (progWord 6 op w) fun s =>
    let r := s.msgRecord k w fill
    match r.2 with
    | .inl c => r.1.msgDone k c
    | .inr b => f r.1 b

/-! ## Active messages (R354 to R356, R362) -/

/-- The ring of cluster g. -/
def State.ring (s : State) (g : Nat) : AmRing := s.drift.rings.get {} g

/-- Replaces it. -/
def State.setRing (s : State) (g : Nat) (x : AmRing) : State :=
  s.setDrift { s.drift with rings := s.drift.rings.put {} g x }

/-- The 32 header bytes of a message (Table 11-6). -/
def amHdr (m : AmMsg) : Bytes :=
  leBytes 4 m.dest.toNat ++ leBytes 2 m.dcl ++ leBytes 2 (m.handler + m.job.val * 2 ^ 10) ++ leBytes 2 m.payload.length ++
    leBytes 2 m.scl ++ leBytes 4 m.src.toNat ++ leBytes 4 m.mb.toNat ++ leBytes 4 m.step.toNat ++ leBytes 2 m.ver.toNat ++
    leBytes 6 m.arg.toNat

/-- Parses a header of Table 11-6 with its payload. -/
def parseAm (h payload : Bytes) : AmMsg :=
  let x := leNat h
  { dest := BitVec.ofNat 32 x, dcl := bits x 32 9, handler := bits x 48 10, job := ⟨bits x 58 2 % 4, by omega⟩
    scl := bits x 80 9, src := BitVec.ofNat 32 (bits x 96 32), mb := BitVec.ofNat 32 (bits x 128 32)
    step := BitVec.ofNat 32 (bits x 160 32), ver := BitVec.ofNat 16 (bits x 192 16), arg := BitVec.ofNat 48 (bits x 208 48)
    payload := payload }

/-- Slice offset and size of the AM ring of job j; it ends at the end of the slice (R355, R517). -/
def State.ringSpace (s : State) (j : Nat) : Nat × Nat :=
  let o := s.fld (Reg.drfAmring j) Fld.drfAmringBase * 65536
  (o, min (s.fld (Reg.drfAmring j) Fld.drfAmringSize * 65536) (sliceSize - o))

/-- Bytes of a message's record. -/
def recSize (len : Nat) : Nat := 32 + ceilDiv len 32 * 32

/-- Where a record of n bytes goes in a ring of size z: its offset, and the bytes it takes with the unused end before it. -/
def ringRoom (x : AmRing) (z n : Nat) : Option (Nat × Nat) :=
  let used := sumBy AmRec.size x.recs
  let off := if x.recs = [] then 0 else x.tail
  let skip := if z < off + n then z - off else 0
  let off := if z < off + n then 0 else off
  if n ≤ z ∧ used + skip + n ≤ z then some (off, skip + n) else none

/-- Is a message for cluster g dead (R362)? -/
def State.amDead (s : State) (m : AmMsg) : Bool :=
  s.clusterJob m.dcl != some m.job.val || s.fld (Reg.drfHtab m.job) Fld.drfHtabEn == 0 ||
    s.fld (Reg.drfAmring m.job) Fld.drfAmringSize == 0

/-- Does the die of cluster g take no MSG traffic: its link to the hub runs without that feature (Table 12-4)? -/
def State.msgOff (s : State) (g : Nat) : Bool :=
  let l := 14 + g / 128
  s.fld (Reg.twiLstatus l) Fld.twiLstatusState == 3 && !bit (s.fld (Reg.twiLneg l) Fld.twiLnegFeatures) 4

/-- The check of the handler table entry at placement: the failure, or the handler's slice offset (R355, R356, R517). -/
def State.amEntry (s : State) (m : AmMsg) : Completion ⊕ Nat :=
  let o := s.fld (Reg.drfHtab m.job) Fld.drfHtabBase * 8192 + m.handler * 8
  let a := firnAddr m.dcl o
  if beyondSlice o 8 then .inl (malformed 48)
  else match s.badByte a 8 with
    | some x => .inl (dataError x 0)
    | none =>
      let e := leNat (s.bytes a 8)
      if !bit e 19 ∨ bits e 35 29 ≠ 0 then .inl (malformed 48)
      else if bits e 20 15 < m.payload.length then .inl (malformed 64)
      else .inr (bits e 0 19 * 8)

/-- Writes a message into its ring (R355). -/
def State.amWrite (s : State) (m : AmMsg) (pc off size : Nat) : State :=
  let a := firnAddr m.dcl ((s.ringSpace m.job).1 + off)
  let s := s.store a (amHdr m)
  let s := s.when (!m.payload.isEmpty) fun s => s.store (a + 32) m.payload
  let x := s.ring m.dcl
  (s.setRing m.dcl { x with tail := off + recSize m.payload.length, recs := x.recs ++ [⟨off, size, m, pc⟩] }).bump Reg.drfAmRx

/-- A message waits for the ring of its cluster (R355). -/
def State.amQueue (s : State) (m : AmMsg) (t : Teller) : State :=
  let x := s.ring m.dcl
  s.setRing m.dcl { x with waits := x.waits ++ [{ msg := m, teller := t, time := s.now }] }

/-- HANDLER_START (R356). -/
def execHandlerStart (g : ClusterId) (s : State) : Res :=
  let k := 4 * g.val + 3
  .next (s.when ((s.thread k).prog == .idle) fun s =>
    match (s.ring g).recs with
    | [] => s
    | r :: _ =>
      let s := s.startProg k .handler r.pc
      let m := r.msg
      let pay := g.val * sliceSize + (s.ringSpace m.job).1 + r.off + 32
      let ag := (upFrom 0 6).foldl (fun (t : Tbl W32) i => t.put 0 i (BitVec.ofNat 32 ([pay, m.payload.length, m.src.toNat,
        m.scl, m.arg.toNat % 2 ^ 32, m.arg.toNat / 2 ^ 32].getD i 0))) []
      s.setThread k { s.thread k with ag := ag, tag := { mb := m.mb, step := m.step, ver := m.ver } })

/-- Has a waiting message waited longer than its job's AM_LIMIT without an event (R366)? -/
def State.amStalled (s : State) (w : AmWait) : Bool :=
  let lim := s.fld (Reg.drfTmo w.msg.job) Fld.drfTmoAmLimit
  lim != 0 && !w.logged && decide (lim * 1000 < s.now.toNat - w.time.toNat)

/-- AMSG_STALL (R366): a message that has waited for the ring of cluster g too long logs the event once. -/
def execAmsgStall (g : ClusterId) (n : Nat) (s : State) : Res :=
  let l := (s.ring g).waits
  .next (match l[n]? with
    | none => s
    | some w => s.when (s.amStalled w) fun s =>
      (s.setRing g { s.ring g with waits := l.set n { w with logged := true } }).raise 0x0413 (some w.msg.job.val) 0x0051 g g
        ((s.now.toNat - w.time.toNat) / 1000))

/-! ## Combining queues (R357 to R362) -/

/-- Combining queue q. -/
def State.dq (s : State) (q : Nat) : DriftQueue := s.drift.queues.get {} q

/-- Replaces it. -/
def State.setDq (s : State) (q : Nat) (x : DriftQueue) : State :=
  s.setDrift { s.drift with queues := s.drift.queues.put {} q x }

/-- A field of the configuration of queue q. -/
def State.dqCfg (s : State) (q : Nat) (f : Fld) : Nat := s.fld (Reg.drfDqCfg q) f

/-- Is queue q dead or off (R362; log entry 33)? -/
def State.dqDead (s : State) (q : Nat) : Bool :=
  s.dqCfg q Fld.drfDqCfgEn == 0 || (s.dq q).reset ||
    s.clusterJob (s.fld (Reg.drfDqReader q) Fld.drfDqReaderCluster) != some (s.dqCfg q Fld.drfDqCfgJob)

/-- The checks of a contribution at the queue, the lowest detail first (R358). -/
def State.dqFault (s : State) (m : DqMsg) : Option Nat :=
  let q := m.queue.val
  lowest [(decide (s.fld (Reg.drfDqSize q) Fld.drfDqSizeEntries ≤ m.entry), 64), (decide (s.dqCfg q Fld.drfDqCfgKm1 < m.contrib), 40),
    (m.count != s.fld (Reg.drfDqSize q) Fld.drfDqSizeElems, 96), (s.dqCfg q Fld.drfDqCfgJob != m.job.val, 58)]

/-- The elements of a contribution in FP32. -/
def dqValues (m : DqMsg) : List W32 :=
  match fmtOf m.fmt with
  | some f => (valuesOf f m.count m.body).map fun v => BitVec.ofNat 32 (convert .fp32 v).1
  | none => []

/-- May a contribution be summed into an entry now (R359)? -/
def dqTurn (ranked : Bool) (e : DqEntry) (c : Nat) : Bool :=
  !e.delivering && (if ranked then c == e.by_.length else !e.by_.contains c)

/-- Sums a contribution into an entry (R359). -/
def dqSum (e : DqEntry) (m : DqMsg) : DqEntry :=
  let v := dqValues m
  { e with sum := if e.by_ = [] then v else e.sum.zipWith fadd v, by_ := e.by_ ++ [m.contrib]
           tag := if m.contrib = 0 then { mb := m.mb, step := m.step, ver := m.ver } else e.tag }

/-- An entry that has summed its K contributions is delivered to the reader as an active message (R360). The source cluster of
such a message is a free value. -/
def State.dqDeliver (s : State) (q entry : Nat) : State :=
  let x := s.dq q
  let e := x.entries.get {} entry
  if e.delivering ∨ e.by_.length ≠ s.dqCfg q Fld.drfDqCfgKm1 + 1 then s
  else
    let body := match fmtOf (s.dqCfg q Fld.drfDqCfgOfmt) with
      | some f => (convertAll f (e.sum.map val32)).1
      | none => []
    let m : AmMsg := { dest := s.ownAddr, dcl := s.fld (Reg.drfDqReader q) Fld.drfDqReaderCluster
                       handler := s.fld (Reg.drfDqReader q) Fld.drfDqReaderHandler
                       job := ⟨s.dqCfg q Fld.drfDqCfgJob % 4, by omega⟩, scl := (Config.freeWord s.free entry).toNat % 512
                       src := s.ownAddr, mb := e.tag.mb, step := e.tag.step, ver := e.tag.ver, arg := BitVec.ofNat 48 entry
                       payload := body }
    ((s.setDq q { x with entries := x.entries.put {} entry { e with delivering := true } }).tick).amQueue m (.queue q entry x.gen)

/-- Sums held contributions whose turn has come, n at most, and delivers a full entry (R359, R360). -/
def State.dqDrain (q entry : Nat) : Nat → State → State
  | 0, s => s
  | n + 1, s =>
    let s := s.dqDeliver q entry
    let x := s.dq q
    let e := x.entries.get {} entry
    match x.held.find? fun m => m.entry == entry && dqTurn (s.dqCfg q Fld.drfDqCfgMode == 0) e m.contrib with
    | none => s
    | some m =>
      State.dqDrain q entry n
        (s.setDq q { x with entries := x.entries.put {} entry (dqSum e m), held := x.held.erase m })

/-- Bytes of hold space in use: each held contribution takes ELEMS × 4 bytes (log entry 33). -/
def State.dqHeld (s : State) (q : Nat) : Nat := (s.dq q).held.length * (s.fld (Reg.drfDqSize q) Fld.drfDqSizeElems * 4)

/-- Is there hold space for one more contribution? -/
def State.dqRoom (s : State) (q : Nat) : Bool :=
  decide (s.dqHeld q + s.fld (Reg.drfDqSize q) Fld.drfDqSizeElems * 4 ≤ s.fld (Reg.drfDqBase q) Fld.drfDqBaseHold * 4096)

/-- A queue discards its open rounds and its hold space (R362). -/
def State.dropRounds (s : State) (q : Nat) : State :=
  let x := s.dq q
  s.when (!x.entries.isEmpty || !x.held.isEmpty) fun s => s.setDq q { x with entries := [], held := [], gen := x.gen + 1 }

/-- The delivery of an entry has ended: the entry returns to +0 and opens its next round (R360); the delivery of a round that has been
discarded since says nothing of the open one. -/
def State.dqDelivered (s : State) (q entry gen : Nat) (ok : Bool) : State :=
  let x := s.dq q
  if x.gen ≠ gen then s else
  let s := (s.setDq q { x with entries := x.entries.put {} entry {} }).when ok fun s => s.bump (Reg.drfDqDone q)
  State.dqDrain q entry (x.held.length + 1) s

/-- Tells who sent a message or a contribution how its placement ended (R312, R354, R360). -/
def State.tell (s : State) (t : Teller) (c : Completion) : State :=
  match t with
  | .item id n =>
    let all := match s.item id with | some i => i.whole | none => 0
    s.partDone id n { c with count := if c.status = .done then all else n }
  | .remote src xid => s.sendReceipt src xid c
  | .queue q e n => s.dqDelivered q e n (c.status == .done)
  | .nobody => s

/-- Places the oldest message that waits for the ring of cluster g, where it can be placed or fails (R355, R356, R362). -/
def State.amPlaceFront (s : State) (g : Nat) : State :=
  match (s.ring g).waits with
  | [] => s
  | w :: r =>
    let pop := s.setRing g { s.ring g with waits := r }
    if s.amDead w.msg then (pop.bump Reg.drfAmDead).tell w.teller { status := .queueDead }
    else if s.msgOff w.msg.dcl then pop.tell w.teller { status := .dataError }
    else match s.amEntry w.msg with
      | .inl c => pop.tell w.teller c
      | .inr pc =>
        match ringRoom (s.ring g) (s.ringSpace w.msg.job).2 (recSize w.msg.payload.length) with
        | none => s
        | some (off, size) => (pop.amWrite w.msg pc off size).tell w.teller { count := w.msg.payload.length }

/-- A message arrives for a cluster: it waits behind those that wait there, or is placed (R355). -/
def State.amArrive (s : State) (m : AmMsg) (t : Teller) : State :=
  let first := (s.ring m.dcl).waits == []
  (s.amQueue m t).when first fun s => s.amPlaceFront m.dcl

/-- AM_PLACE (R355). -/
def execAmPlace (a : AmSrc) (s : State) : Res :=
  .next (match a with
    | .waiting g => s.amPlaceFront g
    | .fabric xid m => s.amArrive m (.remote m.src xid))

/-- A contribution at its queue: none where it waits for hold space (R358, R359, R362). -/
def State.dqPlace (s : State) (m : DqMsg) : Option (State × Completion) :=
  let q := m.queue.val
  let ok : Completion := { count := m.count }
  if s.dqDead q then some (s.dropRounds q, { status := .queueDead })
  else match s.dqFault m with
    | some d => some (s, malformed d)
    | none =>
      let x := s.dq q
      let e := x.entries.get {} m.entry
      if dqTurn (s.dqCfg q Fld.drfDqCfgMode == 0) e m.contrib then
        let s := (s.setDq q { x with entries := x.entries.put {} m.entry (dqSum e m) }).bump (Reg.drfDqAdds q)
        some (State.dqDrain q m.entry (x.held.length + 2) s, ok)
      else if s.dqRoom q then some ((s.setDq q { x with held := x.held ++ [m] }).bump (Reg.drfDqAdds q), ok)
      else none

/-- Takes the contributions that wait on queue q, each time the oldest that need not go on waiting (R359). -/
def State.dqTake (q : Nat) : Nat → State → State
  | 0, s => s
  | n + 1, s =>
    match (s.dq q).waits.findSome? fun w => (s.dqPlace w.msg).map fun r => (w, r) with
    | none => s
    | some (w, t, c) =>
      State.dqTake q n ((t.setDq q { t.dq q with waits := (t.dq q).waits.erase w }).tell w.teller c)

/-- A combining queue that is dead discards its rounds and its hold space, and what waits for it ends QUEUE_DEAD (R362). -/
def State.dropDead (s : State) : State :=
  s.each ((s.drift.queues.map Prod.fst).filter s.dqDead) fun s q =>
    let l := (s.dq q).waits
    let s := s.dropRounds q
    (s.setDq q { s.dq q with waits := [] }).each l fun s w => s.tell w.teller { status := .queueDead }

/-- A contribution arrives at its queue. -/
def State.dqArrive (s : State) (m : DqMsg) (t : Teller) : State :=
  let x := s.dq m.queue
  State.dqTake m.queue (x.waits.length + 1) (s.setDq m.queue { x with waits := x.waits ++ [{ msg := m, teller := t }] })

/-- DQADD_ARRIVAL (R359). -/
def execDqaddArrival (a : DqSrc) (s : State) : Res :=
  .next (match a with
    | .waiting q => State.dqTake q ((s.dq q).waits.length) s
    | .fabric xid m => s.dqArrive m (.remote m.src xid))

/-- Sends a message: to an own cluster it waits there, to another device it goes as an AMSG transfer (R354, R355). -/
def State.amSend (s : State) (id n : Nat) (m : AmMsg) : State :=
  if m.dest = s.ownAddr then s.amQueue m (.item id n)
  else (s.submit { dest := m.dest, typ := 7, vc := 4, tail := amHdr m ++ leBytes 1 0, body := m.payload, why := .item id }).1

/-- The checks of an AMSEND record (R354, Table 11-7). -/
def amsendFault (b : Bytes) : Option Nat :=
  let x := leNat b
  lowest [(bits x 41 7 != 0, 41), (bits x 58 6 != 0, 58), (decide (16384 < bits x 64 16), 64),
    (decide (512 < bits x 80 16 ∨ 512 < bits x 32 9 + bits x 80 16), 80), (bits x 96 32 != 0, 96), (bits x 176 16 != 0, 176),
    (bits x 240 272 != 0, 240)]

/-- AMSEND after its word's checks (R354). -/
def State.doAmsend (s : State) (k : Nat) (b : Bytes) : State :=
  let x := leNat b
  let n := bits x 80 16
  let len := bits x 64 16
  let pay := bits x 128 48
  let job := s.threadJob k
  match amsendFault b with
  | some d => s.msgDone k (malformed d)
  | none =>
    if n = 0 then s.msgDone k { status := .empty }
    else match s.rangeFault job pay len with
      | some a => s.msgDone k (addressFault a)
      | none =>
        match s.badByte pay len with
        | some a => (s.chargeRange pay len).msgDone k (dataError a 0)
        | none =>
          let s := s.chargeRange pay len
          let t := (s.thread k).tag
          let id := s.nextId
          let dest : W32 := BitVec.ofNat 32 x
          let m : AmMsg := { dest, dcl := 0, handler := bits x 48 10, job := ⟨job.getD 0 % 4, by omega⟩, scl := k / 4, src := s.ownAddr
                             mb := t.mb, step := t.step, ver := t.ver, arg := BitVec.ofNat 48 (bits x 192 48)
                             payload := s.bytes pay len }
          let s := s.msgItem k n n none
          let s := s.each (upFrom 0 n) fun s i => s.amSend id i { m with dcl := bits x 32 9 + i }
          if dest = s.ownAddr then s else s.joinItem id

/-- AMSEND (R354). -/
def execAmsend (g : ClusterId) (t : Thr) (w : BitVec 56) (s : State) : Res :=
  .next (s.issueMsg (threadKey g t) 1 w.toNat false fun s b => s.doAmsend (threadKey g t) b)

/-- The checks of a DQADD record (R358, Table 11-7). -/
def dqaddFault (b : Bytes) : Option Nat :=
  let x := leNat b
  lowest [(bits x 38 2 != 0, 38), (decide (3 < bits x 48 8), 48), (bits x 56 8 != 0, 56), (bits x 112 16 != 0, 112),
    (bits x 176 336 != 0, 176)]

/-- The bytes of an AMSG header that carry a DQADD (Table 11-8; log entry 34). -/
def dqTail (m : DqMsg) (dest : W32) (scl : Nat) : Bytes :=
  amHdr { dest, dcl := 0, handler := 0, job := m.job, scl, src := m.src, mb := m.mb, step := m.step, ver := m.ver, arg := 0
          payload := m.body } ++
    leBytes 1 1 ++ leBytes 1 m.queue ++ leBytes 1 m.contrib ++ leBytes 1 m.fmt ++ leBytes 4 m.entry

/-- DQADD after its word's checks (R358). -/
def State.doDqadd (s : State) (k : Nat) (b : Bytes) : State :=
  let x := leNat b
  let n := bits x 96 16
  let src := bits x 128 48
  let job := s.threadJob k
  match dqaddFault b, fmtOf (bits x 48 8) with
  | some d, _ => s.msgDone k (malformed d)
  | none, none => s.msgDone k (malformed 48)
  | none, some f =>
    let size := n * fmtSize f
    if n = 0 then s.msgDone k { status := .empty }
    else match s.rangeFault job src size with
      | some a => s.msgDone k (addressFault a)
      | none =>
        match s.badByte src size with
        | some a => (s.chargeRange src size).msgDone k (dataError a 0)
        | none =>
          let s := s.chargeRange src size
          let t := (s.thread k).tag
          let id := s.nextId
          let dest : W32 := BitVec.ofNat 32 x
          let m : DqMsg := { queue := ⟨bits x 32 6 % 64, by omega⟩, contrib := bits x 40 8, fmt := bits x 48 8
                             entry := bits x 64 32, job := ⟨job.getD 0 % 4, by omega⟩, src := s.ownAddr, mb := t.mb, step := t.step
                             ver := t.ver, count := n, body := s.bytes src size }
          if dest = s.ownAddr then (s.msgItem k 1 n none).dqArrive m (.item id 0)
          else
            let s := s.msgItem k 1 n none
            (s.submit { dest, typ := 7, vc := 4, tail := dqTail m dest (k / 4), body := m.body, why := .item id }).1.joinItem id

/-- DQADD (R358). -/
def execDqadd (g : ClusterId) (t : Thr) (w : BitVec 56) (s : State) : Res :=
  .next (s.issueMsg (threadKey g t) 2 w.toNat false fun s b => s.doDqadd (threadKey g t) b)

/-! ## Collectives: records and shards (R338 to R343) -/

/-- A COLL record (Table 11-3). -/
structure CollRec where
  cid : Nat
  op : Nat
  axis : Nat
  comp : Bool
  dx : Bool
  stepend : Bool
  ifmt : Nat
  ofmt : Nat
  rime : Nat
  win : Nat
  count : Nat
  src : Nat
  dst : Nat
  emem : Nat
  cnts : Nat
  rcnt : Nat
  deriving DecidableEq, Repr

/-- Parses a COLL record. -/
def parseColl (b : Bytes) : CollRec :=
  let x := leNat b
  { cid := bits x 0 16, op := bits x 16 8, axis := bits x 24 2, comp := bit x 26, dx := bit x 27, stepend := bit x 28
    ifmt := bits x 32 8, ofmt := bits x 40 8, rime := bits x 48 8, win := bits x 56 8, count := bits x 64 32
    src := bits x 128 48, dst := bits x 192 48, emem := bits x 256 48, cnts := bits x 320 48, rcnt := bits x 384 48 }

/-- Elements of a block (R343). -/
def blkElems : Nat := 8192

/-- Check 1 of R341. -/
def collFault (b : Bytes) : Option Nat :=
  let r := parseColl b
  let x := leNat b
  let sums := r.op == 0 || r.op == 2
  lowest [(decide (3 < r.op), 16), (r.comp && !sums, 26), (bits x 29 3 != 0, 29), (decide (3 < r.ifmt), 32), (decide (3 < r.ofmt), 40),
    (decide (63 < r.rime), 48), (sums && (r.win == 0 || decide (16 < r.win)), 56), (bits x 96 32 != 0, 96), (bits x 176 16 != 0, 176),
    (bits x 240 16 != 0, 240), (bits x 304 16 != 0, 304), (bits x 368 16 != 0, 368), (bits x 432 80 != 0, 432)]

/-- Contribution format. -/
def CollRec.iF (r : CollRec) : Fmt := (fmtOf r.ifmt).getD .fp32
/-- Output format. -/
def CollRec.oF (r : CollRec) : Fmt := (fmtOf r.ofmt).getD .fp32

/-- The default split of n elements over l ranks (R342). -/
def defaultSplit (n l : Nat) : List Nat := (upFrom 0 l).map fun r => n / l + (if r < n % l then 1 else 0)

/-- The n entries of 4 bytes of a list in memory. -/
def State.list4 (s : State) (a n : Nat) : List Nat := (upFrom 0 n).map fun i => leNat (s.bytes (a + 4 * i) 4)

/-- The shard sizes of a collective along an axis of length l. -/
def State.shardsOf (s : State) (r : CollRec) (l : Nat) : List Nat :=
  if r.op = 3 then [] else if r.cnts = 0 then defaultSplit r.count l else s.list4 r.cnts l

/-- The ranges of a COLL as address and bytes: the lists first (R341). -/
def CollRec.lists (r : CollRec) (l : Nat) : List (Nat × Nat) :=
  if r.op = 3 then [(r.cnts, 4 * l), (r.rcnt, 4 * l)] else if r.cnts = 0 then [] else [(r.cnts, 4 * l)]

/-- The ranges of a COLL's data for own shard size n. -/
def CollRec.ranges (r : CollRec) (l n : Nat) : List (Nat × Nat) :=
  let i := fmtSize r.iF
  let o := fmtSize r.oF
  (match r.op with
    | 0 => [(r.src, r.count * i), (r.dst, n * o)]
    | 1 => [(r.src, n * i), (r.dst, r.count * o)]
    | 2 => [(r.src, r.count * i), (r.dst, r.count * o)]
    | _ => [(r.src, l * r.count * i), (r.dst, l * r.count * o)]) ++ (if r.comp then [(r.emem, 4 * r.count)] else [])

/-- Pages of the window of a collective (R344). -/
def CollRec.pages (r : CollRec) (l : Nat) : Nat :=
  if r.op = 0 ∨ r.op = 2 then
    ceilDiv (r.win * (l * (if r.comp then 1024 else blkElems * fmtSize r.iF) + 32768)) 4096
  else 0

/-- Pages of job j's pool that queues and open windows take. -/
def State.poolUsed (s : State) (j : Nat) : Nat :=
  sumBy (fun q =>
    if s.dqCfg q Fld.drfDqCfgEn = 1 ∧ s.dqCfg q Fld.drfDqCfgJob = j then
      ceilDiv (s.fld (Reg.drfDqSize q) Fld.drfDqSizeEntries * s.fld (Reg.drfDqSize q) Fld.drfDqSizeElems * 4) 4096 +
        s.fld (Reg.drfDqBase q) Fld.drfDqBaseHold
    else 0) (upFrom 0 64) +
  sumBy (fun e => if e.2.key.job.val = j ∧ 2 ≤ e.2.state then e.2.pages else 0) s.drift.colls

/-- The lowest faulting address of several ranges. -/
def State.rangesFault (s : State) (job : Option Nat) (l : List (Nat × Nat)) : Option Nat :=
  l.foldl (fun m r => optMin m (s.rangeFault job r.1 r.2)) none

/-- The first bad byte of several ranges. -/
def State.rangesBad (s : State) (l : List (Nat × Nat)) : Option Nat :=
  l.foldl (fun m r => match m with | some a => some a | none => s.badByte r.1 r.2) none

/-- The lists that a COLL reads as it is checked: the sizes or the send counts (R341, R342). -/
def CollRec.reads (r : CollRec) (l : Nat) : List (Nat × Nat) := (r.lists l).take 1

/-- May the lists of a COLL be read: they lie in readable ranges and hold no error? -/
def State.listsGood (s : State) (job : Option Nat) (r : CollRec) (l : Nat) : Bool :=
  (s.rangesFault job (r.reads l)).isNone && (s.rangesBad (r.reads l)).isNone

/-- The lowest faulting address of all ranges of a COLL (R17); a range whose size a list gives counts only where that can be read. -/
def State.collRanges (s : State) (job : Option Nat) (r : CollRec) (l own : Nat) : Option Nat :=
  let n := if s.listsGood job r l then (s.shardsOf r l).getD own 0 else 0
  s.rangesFault job (r.lists l ++ r.ranges l n)

/-- The checks of R341 and R344 after the zero count. -/
def State.collCheck (s : State) (k : Nat) (b : Bytes) (key : CollKey) : Option Completion :=
  let r := parseColl b
  let l := s.axisLen r.axis
  let job := s.threadJob k
  match s.collRanges job r l (axisIx s.ownAddr r.axis), s.rangesBad (r.reads l) with
  | some a, _ => some (addressFault a)
  | none, some a => some (dataError a 0)
  | none, none =>
    if r.op ≠ 3 ∧ r.cnts ≠ 0 ∧ sumBy id (s.shardsOf r l) ≠ r.count then some (malformed 320)
    else if r.op = 3 ∧ (s.list4 r.cnts l).any (fun n => decide (r.count < n)) then some (malformed 320)
    else if r.stepend ∧ k % 4 ≠ 1 then some (malformed 28)
    else if (s.thread k).prog = .fill ∨ (s.thread k).prog = .handler then some (malformed 56)
    else if (s.drift.colls.any fun e => e.2.key == key) ∨ (s.drift.collWait.any fun c => c.key == key) then some (malformed 0)
    else if s.fld (Reg.drfPool (job.getD 0)) Fld.drfPoolPages < r.pages l then some (malformed 56)
    else none

/-- The reads of a COLL's lists are charged where its ranges are good (R200, R222). -/
def State.chargeLists (s : State) (k : Nat) (b : Bytes) : State :=
  let r := parseColl b
  let l := s.axisLen r.axis
  if (s.collRanges (s.threadJob k) r l (axisIx s.ownAddr r.axis)).isSome then s
  else s.each (r.reads l) fun s x => s.chargeRange x.1 x.2

/-! ## Open collectives -/

/-- The open collective of entry i. -/
def State.coll (s : State) (i : Nat) : Option Coll := (s.drift.colls.find? fun e => e.1 == i).map Prod.snd

/-- Replaces it. -/
def State.setColl (s : State) (i : Nat) (c : Coll) : State :=
  s.setDrift { s.drift with colls := s.drift.colls.map fun e => if e.1 = i then (i, c) else e }

/-- The entry of a collective with an identity. -/
def State.collFind (s : State) (k : CollKey) : Option (Nat × Coll) := s.drift.colls.find? fun e => e.2.key == k

/-- Gives a collective a free entry, or lets it wait for one (R344). -/
def State.openColl (s : State) (c : Coll) : State :=
  match (upFrom 0 16).find? fun i => !(s.drift.colls.any fun e => e.1 == i) with
  | some i => s.setDrift { s.drift with colls := s.drift.colls ++ [(i, { c with state := 1 })] }
  | none => s.setDrift { s.drift with collWait := s.drift.collWait ++ [c] }

/-- COLL after its word's checks (R341, R344). -/
def State.doColl (s : State) (k : Nat) (b : Bytes) : State :=
  let r := parseColl b
  let key : CollKey := { job := ⟨(s.threadJob k).getD 0 % 4, by omega⟩, cid := BitVec.ofNat 16 r.cid, step := (s.thread k).tag.step }
  match collFault b with
  | some d => s.msgDone k (malformed d)
  | none =>
    if r.count = 0 then s.msgDone k { status := .empty }
    else match s.collCheck k b key with
      | some c => (s.chargeLists k b).msgDone k c
      | none =>
        let s := s.chargeLists k b
        let l := s.axisLen r.axis
        let id := s.nextId
        let c : Coll := { key, thread := k, item := id, rcd := b, shards := s.shardsOf r l, pages := r.pages l
                          a2a := if r.op = 3 then s.list4 r.cnts l else [] }
        (s.msgItem k 1 0 none).openColl c

/-- A COLL word in a fill program ends MALFORMED, whatever its record says else (R103), with the detail of the first of the checks of
R341 that gives one. -/
def State.fillColl (s : State) (k w : Nat) : State :=
  s.issue k (progWord 6 0 w) fun s =>
    let r := s.msgRecord k w true
    match r.2 with
    | .inl c => if c.status = .malformed then r.1.msgDone k c else r.1.msgDone k (malformed 56)
    | .inr b =>
      let key : CollKey := { job := ⟨(s.threadJob k).getD 0 % 4, by omega⟩, cid := BitVec.ofNat 16 (parseColl b).cid, step := (s.thread k).tag.step }
      match collFault b, if (parseColl b).count = 0 then none else r.1.collCheck k b key with
      | some d, _ => r.1.msgDone k (malformed d)
      | none, some c => (r.1.chargeLists k b).msgDone k (if c.status = .malformed then c else malformed 56)
      | none, none => r.1.msgDone k (malformed 56)

/-- COLL (R103, R341). -/
def execColl (g : ClusterId) (t : Thr) (w : BitVec 56) (s : State) : Res :=
  .next (if (s.thread (threadKey g t)).prog = .fill then s.fillColl (threadKey g t) w.toNat
    else s.issueMsg (threadKey g t) 0 w.toNat true fun s b => s.doColl (threadKey g t) b)

/-- The own rank in a collective. -/
def State.collRank (s : State) (c : Coll) : Nat := axisIx s.ownAddr (parseColl c.rcd).axis

/-- The group size of a collective. -/
def State.collLen (s : State) (c : Coll) : Nat := s.axisLen (parseColl c.rcd).axis

/-- The other ranks in the order in which they are served (R345). -/
def State.collPeers (s : State) (c : Coll) : List Nat :=
  let l := s.collLen c
  (upFrom 1 (l - 1)).map fun d => (s.collRank c + d) % l

/-- The device address of rank r of a collective. -/
def State.collAddr (s : State) (c : Coll) (r : Nat) : W32 := withIx s.ownAddr (parseColl c.rcd).axis r

/-- First element of shard r. -/
def Coll.first (c : Coll) (r : Nat) : Nat := sumBy id (c.shards.take r)

/-- Size of shard r. -/
def Coll.size (c : Coll) (r : Nat) : Nat := c.shards.getD r 0

/-- Blocks of n elements. -/
def blocksOf (n : Nat) : Nat := ceilDiv n blkElems

/-- Elements of block b of n elements. -/
def blkLen (n b : Nat) : Nat := min blkElems (n - b * blkElems)

/-- Blocks that this device sends to rank r: of the owner's shard, of its own shard, or of its slot (R343). -/
def State.collTxBlocks (s : State) (c : Coll) (r : Nat) : Nat :=
  match (parseColl c.rcd).op with
  | 1 => blocksOf (c.size (s.collRank c))
  | 3 => max 1 (blocksOf (c.a2a.getD r 0))
  | _ => blocksOf (c.size r)

/-- Bytes 40 on of a COLL segment (Table 11-8). -/
def collTail (c : Coll) (kind rank block count nr : Nat) (nonfin : Bool) (alpha : W32) : Bytes :=
  let r := parseColl c.rcd
  leBytes 2 c.key.cid.toNat ++ leBytes 1 kind ++ leBytes 1 r.op ++ leBytes 4 c.key.step.toNat ++
    leBytes 1 (c.key.job.val + 4 * b2n c.failed + 8 * b2n r.comp + 16 * b2n nonfin) ++ leBytes 1 rank ++ leBytes 1 r.ifmt ++
    leBytes 1 0 ++ leBytes 4 block ++ leBytes 4 alpha.toNat ++ leBytes 4 count ++ leBytes 4 nr

/-- The digest of a DATA segment (R352). -/
def segDigest (src dest : W32) (k : CollKey) (off : Nat) (body : Bytes) : W64 :=
  BitVec.ofNat 64 (crc64 (leBytes 4 src.toNat ++ leBytes 4 dest.toNat ++ leBytes 2 k.cid.toNat ++ leBytes 4 k.step.toNat ++
    leBytes 5 off ++ body))

/-- A GRANT to every other rank (R345). -/
def State.sendGrants (s : State) (c : Coll) (g : Nat) : State :=
  s.each (s.collPeers c) fun s r =>
    s.sendSingle (s.collAddr c r) 5 2 none false none
      (collTail c 1 (s.collRank c) g (parseColl c.rcd).count (c.size r) false 0)

/-- Sends one DATA segment to rank r, with its digest (R343, R352); a refused one counts as a RECEIPT. -/
def State.sendColl (s : State) (i : Nat) (c : Coll) (r block : Nat) (nonfin : Bool) (alpha : W32) (body : Bytes) : State × Coll :=
  let p := parseColl c.rcd
  let dest := s.collAddr c r
  let nr := if p.op = 3 then c.a2a.getD r 0 else c.size r
  let q := s.submit { dest, typ := 5, vc := 2, tail := collTail c 0 (s.collRank c) block p.count nr nonfin alpha, body
                      why := .coll i r }
  let d := segDigest s.ownAddr dest c.key 0 body
  match (q.1.fab.xfers.find? fun t => t.xid == q.2.1).bind Xfer.ended with
  | some e => (q.1.dropXfer q.2.1, { c with receipts := c.receipts ++ [(r, e)] })
  | none => (q.1, { c with txd := c.txd ^^^ d, txPeer := c.txPeer.put 0 r (c.txPeer.get 0 r ^^^ d) })

/-- n elements in FP32 codes. -/
def State.elems32 (s : State) (f : Fmt) (a n : Nat) : List W32 :=
  (valuesOf f n (s.bytes a (n * fmtSize f))).map fun v => BitVec.ofNat 32 (convert .fp32 v).1

/-! ## One-bit compression (R350, R351) -/

/-- |v|. -/
def Val.abs (v : Val) : Val := if v.sign then v.neg else v

/-- The bits of a compressed block: bit i is 1 where the sign of v_i is 0. -/
def signBits (l : List W32) : Bytes :=
  leBytes (ceilDiv l.length 8) (sumBy (fun x => if x.2.msb then 0 else 2 ^ x.1) ((upFrom 0 l.length).zip l))

/-- The compression of a block: NONFIN, α, body and the new error values. -/
def compressBlock (v : List W32) : Bool × W32 × Bytes × List W32 :=
  if v.any fun x => (val32 x).nonfinite then (true, 0x7FC00000#32, signBits v, v.map fun _ => 0)
  else
    let a := rne32 ((sumVals (v.map fun x => (val32 x).abs)).div (.fin false v.length 0))
    (false, a, signBits v, v.map fun x => fsub x (if x.msb then fneg a else a))

/-- The values of a compressed block of n elements (R351). -/
def expandBlock (n : Nat) (nonfin : Bool) (alpha : W32) (body : Bytes) : List W32 :=
  let x := leNat body
  (upFrom 0 n).map fun i => if nonfin then 0x7FC00000#32 else if bit x i then alpha else fneg alpha

/-! ## Sending (R345, R350) -/

/-- The source range of block b for rank r: address and elements. -/
def State.collSrc (s : State) (c : Coll) (r b : Nat) : Nat × Nat :=
  let p := parseColl c.rcd
  let i := fmtSize p.iF
  match p.op with
  | 1 => (p.src + b * blkElems * i, blkLen (c.size (s.collRank c)) b)
  | 3 => (p.src + (r * p.count + b * blkElems) * i, blkLen (c.a2a.getD r 0) b)
  | _ => (p.src + (c.first r + b * blkElems) * i, blkLen (c.size r) b)

/-- Sends block b to rank r: an unreadable source ends the collective's sending (R28). -/
def State.sendBlock (s : State) (i : Nat) (c : Coll) (r b : Nat) : State :=
  let p := parseColl c.rcd
  let a := s.collSrc c r b
  let bad := s.badByte a.1 (a.2 * fmtSize p.iF)
  let s := s.chargeRange a.1 (a.2 * fmtSize p.iF)
  match bad with
  | some x => s.setColl i { c with result := some (dataError x c.elems) }
  | none =>
    let c := { c with sent := c.sent.put 0 r (b + 1) }
    if p.comp then
      let e := p.emem + 4 * (c.first r + b * blkElems)
      let bad := s.badByte e (4 * a.2)
      let s := s.chargeRange e (4 * a.2)
      match bad with
      | some x => s.setColl i { c with result := some (dataError x c.elems) }
      | none =>
        let v := (s.elems32 p.iF a.1 a.2).zipWith fadd (s.elems32 .fp32 e a.2)
        let q := compressBlock v
        let s := s.store e (q.2.2.2.flatMap fun x => leBytes 4 x.toNat)
        let t := s.sendColl i c r b q.1 q.2.1 q.2.2.1
        t.1.setColl i t.2
    else
      let t := s.sendColl i c r b false 0 (s.bytes a.1 (a.2 * fmtSize p.iF))
      t.1.setColl i t.2

/-- The block that a collective sends next, and to which rank: in ascending block index, and within one index in the order of R345;
none once all are sent. -/
def State.collNext (s : State) (c : Coll) : Option (Nat × Nat) :=
  let open_ := (s.collPeers c).filter fun r => decide (c.sent.get 0 r < s.collTxBlocks c r)
  match open_ with
  | [] => none
  | r :: l =>
    let b := l.foldl (fun m r => min m (c.sent.get 0 r)) (c.sent.get 0 r)
    (open_.find? fun r => c.sent.get 0 r == b).map fun r => (b, r)

/-- Sends up to n blocks in their order, while the next one lies below its owner's grant (R345). -/
def State.pumpBlocks (i : Nat) : Nat → State → State
  | 0, s => s
  | n + 1, s =>
    match s.coll i with
    | none => s
    | some c =>
      match s.collNext c with
      | none => s
      | some (b, r) =>
        if c.state = 2 ∧ c.result = none ∧ b < c.gIn.get 0 r then State.pumpBlocks i n (s.sendBlock i c r b) else s

/-- Sends every block that the grants allow (R345). -/
def State.pumpColl (s : State) (i : Nat) : State :=
  match s.coll i with
  | none => s
  | some c => State.pumpBlocks i (sumBy (s.collTxBlocks c) (s.collPeers c)) s

/-! ## The own output (R346) -/

/-- Writes elements of the own output at element e, converted to OFMT, and counts them. -/
def State.collWrite (s : State) (i : Nat) (c : Coll) (e : Nat) (v : List Val) : State :=
  let p := parseColl c.rcd
  let o := convertAll p.oF v
  let s := s.when (!o.1.isEmpty) fun s => s.store (p.dst + e * fmtSize p.oF) o.1
  (s.rimeOf c.thread p.rime o.2).setColl i { c with elems := c.elems + v.length }

/-- The contribution of rank r to block b of the own shard, in FP32: none where it has not come. -/
def State.contribution (s : State) (c : Coll) (r b : Nat) : Option (List W32) :=
  let p := parseColl c.rcd
  let own := s.collRank c
  let n := blkLen (c.size own) b
  if r = own then some (s.elems32 p.iF (p.src + (c.first own + b * blkElems) * fmtSize p.iF) n)
  else (c.held.find? fun h => h.rank == r && h.block == b).map fun h =>
    if h.comp then expandBlock n h.nonfin h.alpha h.body
    else (valuesOf p.iF n h.body).map fun v => BitVec.ofNat 32 (convert .fp32 v).1

/-- The rank-ordered sum of block b of the own shard: none while a contribution lacks (R346). -/
def State.blockSum (s : State) (c : Coll) (b : Nat) : Option (List W32) :=
  let l := (upFrom 0 (s.collLen c)).map fun r => s.contribution c r b
  if l.any Option.isNone then none
  else match l.filterMap id with
    | [] => none
    | x :: r => some (r.foldl (fun t c => t.zipWith fadd c) x)

/-- The mark that a second-phase DATA of AR carries in its block index (log entry 31). -/
def phaseTwo : Nat := 2 ^ 31

/-- Sends summed block b of the own shard to every other rank: the second phase of AR (R343). -/
def State.sendSum (s : State) (i b : Nat) : State :=
  match s.coll i with
  | none => s
  | some c =>
    let p := parseColl c.rcd
    let own := s.collRank c
    let n := blkLen (c.size own) b
    let a := p.dst + (c.first own + b * blkElems) * fmtSize p.oF
    s.each (s.collPeers c) fun s r =>
      match s.coll i with
      | none => s
      | some c =>
        let c := { c with sentAg := c.sentAg.put 0 r (b + 1) }
        let t := s.sendColl i c r (phaseTwo + b) false 0 (s.bytes a (n * fmtSize p.oF))
        t.1.setColl i t.2

/-- Writes the blocks of the own shard that are complete, in ascending order, with their GRANTs (R345, R346). -/
def State.sumBlocks (i : Nat) : Nat → State → State
  | 0, s => s
  | n + 1, s =>
    match s.coll i with
    | none => s
    | some c =>
      let p := parseColl c.rcd
      let own := s.collRank c
      let b := c.written
      if blocksOf (c.size own) ≤ b ∨ c.result ≠ none then s
      else
        let a := s.collSrc c own b
        match s.badByte a.1 (a.2 * fmtSize p.iF), s.blockSum c b with
        | some x, _ => (s.chargeRange a.1 (a.2 * fmtSize p.iF)).setColl i { c with result := some (dataError x c.elems) }
        | none, none => s
        | none, some v =>
          let s := s.chargeRange a.1 (a.2 * fmtSize p.iF)
          let e := (if p.op = 2 then c.first own else 0) + b * blkElems
          let g := b + 1 + p.win
          let c := { c with written := b + 1, held := c.held.filter (fun h => h.block != b), gOut := g }
          let s := (s.sendGrants c g).collWrite i c e (v.map val32)
          State.sumBlocks i n (s.when (p.op == 2) fun s => s.sendSum i b)

/-- Converts the own part of an AG, of an A2A, or of a group of one (R342, R343). -/
def State.ownPart (s : State) (i : Nat) : State :=
  match s.coll i with
  | none => s
  | some c =>
    let p := parseColl c.rcd
    let own := s.collRank c
    let r : Option (Nat × Nat × Nat) := match p.op with
      | 1 => some (p.src, c.first own, c.size own)
      | 3 => some (p.src + own * p.count * fmtSize p.iF, own * p.count, c.a2a.getD own 0)
      | _ => none
    match r with
    | none => State.sumBlocks i (blocksOf (c.size own)) s
    | some (a, e, n) =>
      let bad := s.badByte a (n * fmtSize p.iF)
      let s := s.chargeRange a (n * fmtSize p.iF)
      match bad with
      | some x => s.setColl i { c with result := some (dataError x c.elems) }
      | none =>
        let s := s.collWrite i c e (valuesOf p.iF n (s.bytes a (n * fmtSize p.iF)))
        s.when (p.op == 3) fun s => s.store (p.rcnt + 4 * own) (leBytes 4 n)

/-- A violation of Table 11-9: counted and logged. -/
def State.driftViolation (s : State) (job typ kind : Nat) (src : W32) : State :=
  (s.bump Reg.drfViol).raise 0x0414 (some job) 0x0050 0 (typ * 256 + kind) src.toNat

/-- A GRANT of rank r, from device src, reaches open collective i (R345, R364): one whose rank is not its sender's, or that moves G
backwards, has no effect but its event. -/
def State.takeGrant (s : State) (i : Nat) (src : W32) (r lim : Nat) : State :=
  match s.coll i with
  | none => s
  | some c =>
    if axisIx src (parseColl c.rcd).axis ≠ r ∨ lim < c.gIn.get 0 r then s.driftViolation c.key.job 5 1 src
    else s.setColl i { c with gIn := c.gIn.put 0 r lim }

/-- COLL_START (R344, R345, R349): entry i takes its window, samples the failure mark and sends its first GRANTs. -/
def State.startColl (s : State) (i : Nat) : State :=
  match s.coll i with
  | none => s
  | some c =>
    let p := parseColl c.rcd
    let j := c.key.job.val
    let free := s.fld (Reg.drfPool j) Fld.drfPoolPages - s.poolUsed j
    s.when (c.state == 1 && decide (c.pages ≤ free)) fun s =>
      let failed := match s.partOf (c.thread / 4) with | some q => s.isFailed q c.key.step | none => false
      let g := if p.op = 0 ∨ p.op = 2 then p.win else 2 ^ 32 - 1
      let c := { c with state := 2, failed, start := s.now, gOut := g }
      let mine := s.drift.early.filter fun e => e.1 == c.key
      let s := (s.setColl i c).setDrift
        { (s.setColl i c).drift with early := s.drift.early.filter fun e => e.1 != c.key }
      (((s.each mine fun s e => s.takeGrant i e.2.1 e.2.2.1 e.2.2.2).sendGrants c g).ownPart i).pumpColl i

/-- COLL_START (R344). -/
def execCollStart (i : Fin 16) (s : State) : Res := .next (s.startColl i)

/-! ## Completion (R347 to R349, R353) -/

/-- Blocks that rank r sends into the own output: contributions, or its own shard. -/
def Coll.rxBlocks (c : Coll) (r : Nat) : Nat :=
  match (parseColl c.rcd).op with
  | 0 => 0
  | 3 => match c.got.find? fun x => x.1 == r with | some x => max 1 (blocksOf x.2.2) | none => 1
  | _ => blocksOf (c.size r)

/-- Has every block that rank r sends into the own output come? -/
def Coll.rankDone (c : Coll) (r : Nat) : Bool :=
  let f := fun (x : Nat × Nat × Nat) => x.1 == r && ((parseColl c.rcd).op != 2 || decide (phaseTwo ≤ x.2.1))
  (c.got.filter f).length == c.rxBlocks r

/-- Has the own output been written? -/
def State.outputDone (s : State) (c : Coll) : Bool :=
  let p := parseColl c.rcd
  (p.op == 1 || p.op == 3 || c.written == blocksOf (c.size (s.collRank c))) &&
    (p.op == 0 || (s.collPeers c).all c.rankDone)

/-- Is every segment sent, and has every one its RECEIPT? -/
def State.sendsDone (s : State) (i : Nat) (c : Coll) : Bool :=
  (s.collPeers c).all (fun r => c.sent.get 0 r == s.collTxBlocks c r) &&
    !(s.fab.xfers.any fun t => match t.why with | .coll j _ => j == i | _ => false)

/-- The lowest rank that is missing for the oldest open block (R347, Table 11-10): a contribution to the own shard, or a rank of
which the own output still lacks blocks. -/
def State.missingBlock (s : State) (c : Coll) : Option Nat :=
  let own := s.collRank c
  let op := (parseColl c.rcd).op
  let sums := (op == 0 || op == 2) && decide (c.written < blocksOf (c.size own))
  (upFrom 0 (s.collLen c)).find? fun r => r != own &&
    (if sums then (s.contribution c r c.written).isNone else op != 0 && !c.rankDone r)

/-- The lowest missing rank (R347): of the oldest open block, else of a segment without its RECEIPT or of a digest. -/
def State.missingRank (s : State) (i : Nat) (c : Coll) : Option Nat :=
  (s.missingBlock c).or ((upFrom 0 (s.collLen c)).find? fun r => r != s.collRank c &&
    (c.sent.get 0 r != s.collTxBlocks c r || s.fab.xfers.any (fun t => t.why == .coll i r) ||
      (c.state == 3 && !(c.digests.any fun d => d.1 == r))))

/-- Has a digest of a peer differed (R353)? -/
def Coll.digestBad (c : Coll) : Bool := c.digests.any fun d => c.rxPeer.get 0 d.1 != d.2

/-- Writes the digest record of a COLL item that completes at time t (R353). -/
def State.digestLog (s : State) (id : Nat) (t : W64) : State :=
  match s.drift.dlog.find? fun d => d.item == id with
  | none => s
  | some d =>
    let n := s.fld (Reg.drfDloglen d.job) Fld.drfDloglenEntries
    let s := s.setDrift { s.drift with dlog := s.drift.dlog.filter fun d => d.item != id }
    if n = 0 then s
    else
      let pos := s.drift.dlogPos.get 0 d.job
      let a := s.fld (Reg.drfDlog d.job) Fld.drfDlogPage * 4096 + pos % n * 32
      let s := (s.store a (d.head ++ leBytes 8 t.toNat)).setDrift { s.drift with dlogPos := s.drift.dlogPos.put 0 d.job (pos + 1) }
      s.setFld (Reg.drfDloglen d.job) Fld.drfDloglenPos (pos + 1)

/-- The digest record of a collective that closes waits for its item's completion (R18, R353): its bytes before the timestamp. -/
def State.digestNote (s : State) (c : Coll) : State :=
  let j := c.key.job.val
  let head := leBytes 2 c.key.cid.toNat ++ leBytes 1 j ++ leBytes 1 (b2n c.digestBad) ++ leBytes 4 c.key.step.toNat ++
    leBytes 8 c.txd.toNat ++ leBytes 8 c.rxd.toNat
  s.setDrift { s.drift with dlog := s.drift.dlog ++ [{ item := c.item, job := j, head }] }

/-- The completion of a collective (R348, R349). -/
def State.collStatus (s : State) (c : Coll) : Completion :=
  let p := parseColl c.rcd
  let n := c.elems
  let bad := (upFrom 0 (s.collLen c)).findSome? fun r =>
    (c.receipts.find? fun x => x.1 == r && x.2.status != .done).map Prod.snd
  match c.result, bad with
  | some r, _ => r
  | none, some r => { r with count := n }
  | none, none => if p.stepend ∧ (c.failed ∨ c.marks ≠ []) then { status := .stepFailed, count := n } else { count := n }

/-- Closes entry i: digest record, completion, failed step, and the next COLL that waits for an entry. -/
def State.closeColl (s : State) (i : Nat) (c : Coll) : State :=
  let p := parseColl c.rcd
  let r := s.collStatus c
  let s := (s.digestNote c).finish c.item r
  let s := s.when (p.stepend && (r.status == .stepFailed || r.status == .timeout)) fun s =>
    match s.partOf (c.thread / 4) with
    | some q => s.markFailed q c.key.step
    | none => s
  let gone : Closed := { key := c.key, timeout := r.status == .timeout, time := s.now, gIn := c.gIn }
  let late : Xfer → Xfer := fun t => match t.why with
    | .coll j _ => if j = i then { t with why := .notice } else t
    | _ => t
  let s := (s.setFab { s.fab with xfers := s.fab.xfers.map late }).setDrift
    { s.drift with colls := s.drift.colls.filter (fun e => e.1 != i), closed := s.drift.closed.filter (fun k => k.key != c.key) ++ [gone] }
  match s.drift.collWait with
  | [] => s
  | w :: l => (s.setDrift { s.drift with collWait := l }).openColl w

/-- Sends the digests of a collective with DX to its peers (R353). -/
def State.sendDigests (s : State) (c : Coll) : State :=
  s.each (s.collPeers c) fun s r =>
    s.sendSingle (s.collAddr c r) 6 2 none true none
      (leBytes 2 c.key.cid.toNat ++ leBytes 1 c.key.job.val ++ leBytes 1 0 ++ leBytes 4 c.key.step.toNat ++
        leBytes 8 (c.txPeer.get 0 r).toNat)

/-- COLL_COMPLETE (R348): the output is written, every segment has its RECEIPT, and with DX the digests are exchanged; an early
result ends the collective at once. -/
def State.completeColl (s : State) (i : Nat) : State :=
  match s.coll i with
  | none => s
  | some c =>
    if c.state < 2 then s
    else if c.result ≠ none then s.closeColl i c
    else if c.state = 2 then
      s.when (s.outputDone c && s.sendsDone i c) fun s =>
        if (parseColl c.rcd).dx ∧ s.collPeers c ≠ [] then
          let c := { c with state := 3 }
          let s := (s.setColl i c).sendDigests c
          s.when ((s.collPeers c).all fun r => c.digests.any fun d => d.1 == r) fun s => s.closeColl i c
        else s.closeColl i c
    else s.when ((s.collPeers c).all fun r => c.digests.any fun d => d.1 == r) fun s => s.closeColl i c

/-- COLL_COMPLETE (R348). -/
def execCollComplete (i : Fin 16) (s : State) : Res := .next (s.completeColl i)

/-- COLL_TIMEOUT (R347). -/
def execCollTimeout (i : Fin 16) (s : State) : Res :=
  .next (match s.coll i with
    | none => s
    | some c =>
      s.when (decide (2 ≤ c.state) && s.fld (Reg.drfTmo c.key.job) Fld.drfTmoColl != 0) fun s =>
        let m := (s.missingRank i c).getD (s.collRank c)
        let s := (s.bump Reg.drfCollTmo).raise 0x0410 (some c.key.job.val) 0x0050 i c.key.cid.toNat m
        s.closeColl i { c with result := some { status := .timeout, count := c.elems } })

/-! ## Reception (R345, R346, R353, R364) -/

/-- A violation that is answered with a RECEIPT. -/
def State.rejectData (s : State) (d : CollData) (detail : Nat) : State :=
  (s.driftViolation d.key.job 5 d.kind d.src).sendReceipt d.src d.xid (malformed detail)

/-- A GRANT (R345, R364): one for a collective that is not open here yet is kept. After a collective of the same identity has
closed, a limit above the sender's last is a late GRANT of that one, and any other begins the identity's next use (log entry 121). -/
def State.grant (s : State) (k : CollKey) (src : W32) (r lim : Nat) : State :=
  match s.collFind k with
  | none =>
    match s.drift.closed.find? fun c => c.key == k with
    | some c =>
      if c.gIn.get 0 r < lim then
        let up : Closed → Closed := fun x => if x.key = k then { x with gIn := x.gIn.put 0 r lim } else x
        s.setDrift { s.drift with closed := s.drift.closed.map up }
      else s.setDrift { s.drift with early := s.drift.early ++ [(k, src, r, lim)] }
    | none => s.setDrift { s.drift with early := s.drift.early ++ [(k, src, r, lim)] }
  | some (i, _) => (s.takeGrant i src r lim).pumpColl i

/-- COLL_GRANT_RECEIVE (R345). -/
def execCollGrantReceive (k : CollKey) (src : W32) (m : GrantMsg) (s : State) : Res := .next (s.grant k src m.rank m.limit)

/-- The first header field that differs from the owner's own (R364). -/
def State.dataDiffers (s : State) (c : Coll) (d : CollData) : Option Nat :=
  let p := parseColl c.rcd
  lowest [(d.op != p.op, 344), (d.comp != p.comp, 387), (d.ifmt != p.ifmt, 400), (d.count != p.count, 480),
    (p.op != 3 && d.nr != c.size (s.collRank c), 512)]

/-- The blocks of the own output, or of the own shard, that a DATA segment may name. -/
def State.blockOk (s : State) (c : Coll) (d : CollData) : Bool :=
  match (parseColl c.rcd).op with
  | 0 => decide (d.block < c.gOut) && decide (d.block < blocksOf (c.size (s.collRank c)))
  | 1 => decide (d.block < blocksOf (c.size d.rank))
  | 2 => if phaseTwo ≤ d.block then decide (d.block - phaseTwo < blocksOf (c.size d.rank))
         else decide (d.block < c.gOut) && decide (d.block < blocksOf (c.size (s.collRank c)))
  | _ => decide (d.nr ≤ (parseColl c.rcd).count) && decide (d.block < max 1 (blocksOf d.nr))

/-- Accepts a DATA segment: digests and marks, then a contribution is held and complete blocks are summed, or elements are
written (R346, R349, R352). The body of a second-phase segment is stored as it came, bits [15:12] of W12 zero (R115; log entry 109). -/
def State.acceptData (s : State) (i : Nat) (c : Coll) (d : CollData) : State :=
  let p := parseColl c.rcd
  let g := segDigest d.src s.ownAddr d.key d.offset d.body
  let c := { c with rxd := c.rxd ^^^ g, rxPeer := c.rxPeer.put 0 d.rank (c.rxPeer.get 0 d.rank ^^^ g)
                    marks := if d.failed && !c.marks.contains d.rank then c.marks ++ [d.rank] else c.marks
                    got := c.got ++ [(d.rank, d.block, d.nr)] }
  let s := (s.setColl i c).sendReceipt d.src d.xid { count := d.body.length }
  if p.op = 0 ∨ (p.op = 2 ∧ d.block < phaseTwo) then
    let h : CollBlk := { rank := d.rank, block := d.block, body := d.body, comp := d.comp, alpha := d.alpha, nonfin := d.nonfin }
    State.sumBlocks i (blocksOf (c.size (s.collRank c))) (s.setColl i { c with held := c.held ++ [h] })
  else if p.op = 1 then
    s.collWrite i c (c.first d.rank + d.block * blkElems) (valuesOf p.iF (blkLen (c.size d.rank) d.block) d.body)
  else if p.op = 2 then
    let b := d.block - phaseTwo
    let n := blkLen (c.size d.rank) b
    let s := s.store (p.dst + (c.first d.rank + b * blkElems) * fmtSize p.oF) (containers p.oF ((d.body ++ List.replicate (4 * n) 0).take (n * fmtSize p.oF)))
    s.setColl i { c with elems := c.elems + n }
  else
    let s := s.store (p.rcnt + 4 * d.rank) (leBytes 4 d.nr)
    s.collWrite i c (d.rank * p.count + d.block * blkElems) (valuesOf p.iF (blkLen d.nr d.block) d.body)

/-- A COLL DATA segment (R346, R364). A COLL that one ends MALFORMED reports the elements written so far (log entry 111). -/
def State.collData (s : State) (d : CollData) : State :=
  if d.kind ≠ 0 then s.rejectData d 336
  else match s.collFind d.key with
    | none =>
      match s.drift.closed.find? fun c => c.key == d.key with
      | none => s.rejectData d 320
      | some c =>
        if c.timeout then (s.bump Reg.drfCollLate).sendReceipt d.src d.xid { status := .timeout }
        else if s.now.toNat - c.time.toNat ≤ s.fld (Reg.drfTmo d.key.job) Fld.drfTmoColl * 1000000 then s.rejectData d 416
        else s.rejectData d 320
    | some (i, c) =>
      if axisIx d.src (parseColl c.rcd).axis ≠ d.rank then s.rejectData d 392
      else match s.dataDiffers c d with
        | some f => (s.rejectData d f).closeColl i { c with result := some { (malformed f) with count := c.elems } }
        | none =>
          if c.state < 2 || !s.blockOk c d || c.got.any (fun x => x.1 == d.rank && x.2.1 == d.block) then s.rejectData d 416
          else s.acceptData i c d

/-- COLL_DATA_RECEIVE (R346). -/
def execCollDataReceive (d : CollData) (s : State) : Res := .next (s.collData d)

/-- A DIGEST of device src (R353); one for an unknown collective is ignored, and logged (R364). -/
def State.digestArrive (s : State) (k : CollKey) (src : W32) (d : W64) : State :=
  match s.collFind k with
  | none => s.driftViolation k.job 6 0 src
  | some (i, c) =>
    let r := axisIx src (parseColl c.rcd).axis
    let s := s.setColl i { c with digests := c.digests ++ [(r, d)] }
    s.when (c.rxPeer.get 0 r != d) fun s =>
      (s.bump Reg.drfDigmis).raise 0x0411 (some k.job.val) 0x0050 i k.cid.toNat r

/-- DIGEST_RECEIVE (R353). -/
def execDigestReceive (k : CollKey) (src : W32) (d : W64) (s : State) : Res := .next (s.digestArrive k src d)

/-! ## Resets of clusters (R362, R368) -/

/-- Takes back an own transfer: where nothing of it is sent it is dropped; else the rest is not sent, and a CANCEL has the receiver abandon
what has come (R33, R320; log entry 126). -/
def State.withdrawXfer (s : State) (t : Xfer) : State :=
  let here := ((upFrom 0 32).flatMap fun l => (s.layer l).txq) ++ s.fab.unplaced.map Prod.snd
  let whole := (here.filter fun g => g.xid == some t.xid && g.pos == 0).length == max 1 (ceilDiv t.total 65520)
  let s := s.dropSegs t.xid
  if whole ∨ s.upLinks t.port = [] then s.dropXfer t.xid
  else
    let up : Xfer → Xfer := fun u => if u.xid = t.xid then { u with cancelled := some { status := .aborted, detail := 3 } } else u
    (s.setFab { s.fab with xfers := s.fab.xfers.map up }).sendCancel t

/-- Takes back the messages and contributions of items that have not been placed, where they wait, and those under way to other devices
(R28, R33; log entry 126). -/
def State.withdraw (s : State) (ids : List Nat) : State :=
  let s := s.each (s.fab.xfers.filter fun t => t.ended == none && t.cancelled == none && ids.any fun id => t.why == .item id)
    State.withdrawXfer
  let mine : Teller → Bool := fun t => match t with | .item id _ => ids.contains id | _ => false
  let s := s.each (s.drift.rings.map Prod.fst) fun s g =>
    s.setRing g { s.ring g with waits := (s.ring g).waits.filter fun w => !mine w.teller }
  s.each (s.drift.queues.map Prod.fst) fun s q =>
    s.setDq q { s.dq q with waits := (s.dq q).waits.filter fun w => !mine w.teller }

/-- The COLL, AMSEND and DQADD items that cluster g issued end under R33 (R368): its COLLs that wait for an entry first, so that none
takes one. -/
def State.abortMessages (s : State) (g : Nat) : State :=
  let s := s.each (s.drift.collWait.filter fun c => c.thread / 4 == g) fun s c => s.finish c.item { status := .aborted, detail := 3 }
  let s := s.setDrift { s.drift with collWait := s.drift.collWait.filter fun c => c.thread / 4 != g }
  let s := s.each (s.drift.colls.filter fun e => e.2.thread / 4 == g) fun s e =>
    s.closeColl e.1 { e.2 with result := some { status := .aborted, detail := 3, count := e.2.elems } }
  let mine : Item → Bool := fun i => i.unit == 0x0103 && i.index == g
  (s.abortItems 3 mine).withdraw ((s.items.live.filter fun i => mine i && i.comp == none).map Item.id)

/-- A reset of cluster g: messages that wait for it end, its ring is empty, the combining queues that it reads are dead, and the
COLL, AMSEND and DQADD items that it issued end under R33 (R362, R368). -/
def State.resetMessages (s : State) (g : Nat) : State :=
  let qs := (upFrom 0 64).filter fun q => s.fld (Reg.drfDqReader q) Fld.drfDqReaderCluster == g && s.dqCfg q Fld.drfDqCfgEn == 1
  let ws := qs.flatMap fun q => (s.dq q).waits
  let l := (s.ring g).waits
  let s := s.each qs fun s q =>
    let s := s.dropRounds q
    s.setDq q { s.dq q with waits := [], reset := true }
  let s := s.setRing g {}
  let s := s.each l fun s w => (s.bump Reg.drfAmDead).tell w.teller { status := .queueDead }
  let s := s.each ws fun s x => s.tell x.teller { status := .queueDead }
  s.abortMessages g

end Sys2Proof.Machine
end

