-- ==== Sys2Proof/Machine/Ethernet.lean ====
section
/-! DEFINITION. Frames of a link in Ethernet mode: their layers, read and built (R334, R335; log entries 117, 118). -/
namespace Sys2Proof.Machine

/-- A string of bytes as a number, highest byte first: the order of Ethernet, IP and UDP. -/
def beNat (b : Bytes) : Nat := leNat b.reverse

/-- The n bytes of x, highest first. -/
def beBytes (n x : Nat) : Bytes := (leBytes n x).reverse

/-- Bytes [o, o + n) of a frame as a number, highest byte first. -/
def beField (b : Bytes) (o n : Nat) : Nat := beNat ((b.drop o).take n)

/-- The sum of the 16-bit words of a string. -/
def wordSum : Bytes → Nat
  | [] => 0
  | [a] => a.toNat * 256
  | a :: b :: r => a.toNat * 256 + b.toNat + wordSum r

/-- The ones' complement sum of a string (the Internet checksum, not inverted). -/
def onesSum (b : Bytes) : Nat :=
  let x := wordSum b
  let y := x % 65536 + x / 65536
  let z := y % 65536 + y / 65536
  z % 65536 + z / 65536

/-- The checksum field of a string in which it is 0. -/
def checksum (b : Bytes) : Nat := 65535 - onesSum b

/-- The own or the next-hop MAC address of a pair of registers, low 32 bits first (Table 10-10). -/
def State.macOf (s : State) (r : Nat → Nat) : Nat := (s.reg (r 0)).toNat + (s.reg (r 1)).toNat % 65536 * 2 ^ 32

/-- An IP address of four registers, each highest byte first: 4 bytes in IPv4, else 16 (log entry 117). -/
def State.ipOf (s : State) (r : Nat → Nat) (v6 : Bool) : Bytes :=
  if v6 then (upFrom 0 4).flatMap fun i => beBytes 4 (s.reg (r i)).toNat else beBytes 4 (s.reg (r 0)).toNat

/-- Does link l use IPv6? -/
def State.ethV6 (s : State) (l : Nat) : Bool := s.fld (Reg.lnkEthCfg l) Fld.lnkEthCfgIpv6 == 1

/-- The pseudo header over which a UDP checksum is formed, for addresses of either length. -/
def pseudoHdr (src dst : Bytes) (len : Nat) : Bytes :=
  src ++ dst ++ (if src.length = 4 then [0, 17] ++ beBytes 2 len else beBytes 4 len ++ [0, 0, 0, 17])

/-! ## Receiving (R334) -/

/-- The IP source, destination and UDP datagram of an IP packet for the own address with good checksums. -/
def State.ipTake (s : State) (l typ : Nat) (b : Bytes) : Option (Bytes × Bytes × Bytes) :=
  let v6 := s.ethV6 l
  if v6 then
    let n := beField b 4 2
    if typ = 0x86DD ∧ beField b 0 1 / 16 = 6 ∧ beField b 6 1 = 17 ∧ 40 + n ≤ b.length ∧
        (b.drop 24).take 16 = s.ipOf (Reg.lnkEthIp l) true then
      some ((b.drop 8).take 16, (b.drop 24).take 16, (b.drop 40).take n)
    else none
  else
    let h := beField b 0 1 % 16 * 4
    let n := beField b 2 2
    if typ = 0x0800 ∧ beField b 0 1 / 16 = 4 ∧ 20 ≤ h ∧ h ≤ n ∧ n ≤ b.length ∧ beField b 6 2 % 2 ^ 14 = 0 ∧ beField b 9 1 = 17 ∧
        onesSum (b.take h) = 65535 ∧ (b.drop 16).take 4 = s.ipOf (Reg.lnkEthIp l) false then
      some ((b.drop 12).take 4, (b.drop 16).take 4, (b.drop h).take (n - h))
    else none

/-- The destination port and the payload of a UDP datagram with a good checksum. -/
def udpTake (p : Bytes × Bytes × Bytes) : Option (Nat × Bytes) :=
  let n := beField p.2.2 4 2
  let u := p.2.2.take n
  if 8 ≤ n ∧ n ≤ p.2.2.length ∧ beField u 6 2 ≠ 0 ∧ onesSum (pseudoHdr p.1 p.2.1 n ++ u) = 65535 then some (beField u 2 2, u.drop 8)
  else none

/-- The UDP payload of a frame that passes the filter of R334, with whether it came to a PTP port: none where it is dropped. -/
def State.frameTake (s : State) (l : Nat) (f : Bytes) : Option (Bool × Bytes) :=
  let tagged := beField f 12 2 = 0x8100
  let want := s.fld (Reg.lnkEthCfg l) Fld.lnkEthCfgVlan == 1
  let o := if tagged then 16 else 12
  if 9216 < f.length ∨ beField f 0 6 ≠ s.macOf (Reg.lnkEthMac l) ∨ decide tagged ≠ want ∨
      (tagged ∧ beField f 14 2 % 4096 ≠ s.fld (Reg.lnkEthCfg l) Fld.lnkEthCfgVid) then none
  else
    match (s.ipTake l (beField f o 2) (f.drop (o + 2))).bind udpTake with
    | none => none
    | some (port, pay) =>
      if port = 319 ∨ port = 320 then some (true, pay)
      else if port = s.fld (Reg.lnkEthUdp l) Fld.lnkEthUdpDport then some (false, pay)
      else none

/-- SEQ and the units of a transport datagram (R335): none where its header is not as the rule has it. A session is compared once the
partner's is known. -/
def datagramTake (session : Option Nat) (b : Bytes) : Option (Nat × List Bytes) :=
  let n := field b 4 1
  if field b 0 1 = 1 ∧ field b 1 1 = 0 ∧ 1 ≤ n ∧ n ≤ 16 ∧ field b 5 1 = 0 ∧ field b 8 8 = 0 ∧ b.length = 16 + 256 * n ∧
      (session = none ∨ session = some (field b 6 2)) then
    some (field b 2 2, (upFrom 0 n).map fun i => (b.drop (16 + 256 * i)).take 256)
  else none

/-! ## Sending (R334, R335) -/

/-- A transport datagram of units (R335). -/
def datagram (seq session : Nat) (units : List Bytes) : Bytes :=
  [1, 0] ++ leBytes 2 seq ++ leBytes 1 units.length ++ [0] ++ leBytes 2 session ++ List.replicate 8 0 ++ units.flatten

/-- A UDP datagram between two addresses, its checksum formed. -/
def udpMake (sport dport : Nat) (src dst pay : Bytes) : Bytes :=
  let h := beBytes 2 sport ++ beBytes 2 dport ++ beBytes 2 (8 + pay.length)
  let c := checksum (pseudoHdr src dst (8 + pay.length) ++ h ++ pay)
  h ++ beBytes 2 (if c = 0 then 65535 else c) ++ pay

/-- An IP packet between two addresses (log entry 117: the fields that the spec leaves open are free values). -/
def ipMake (v6 : Bool) (src dst u : Bytes) : Bytes :=
  let x := fun i => (Config.ipOpen i).toNat
  if v6 then
    beBytes 4 (6 * 2 ^ 28 + x 0 * 2 ^ 20 + x 4 % 16 * 2 ^ 16 + x 5 * 256 + x 6) ++ beBytes 2 u.length ++ [17] ++ beBytes 1 (x 3) ++ src ++ dst ++ u
  else
    let a := [0x45] ++ beBytes 1 (x 0) ++ beBytes 2 (20 + u.length) ++ beBytes 1 (x 1) ++ beBytes 1 (x 2) ++
      beBytes 2 (x 7 % 2 * 2 ^ 14) ++ beBytes 1 (x 3) ++ [17]
    a ++ beBytes 2 (checksum (a ++ src ++ dst)) ++ src ++ dst ++ u

/-- The frame of link l that carries a transport datagram (R334). -/
def State.frameMake (s : State) (l : Nat) (pay : Bytes) : Bytes :=
  let v6 := s.ethV6 l
  let src := s.ipOf (Reg.lnkEthIp l) v6
  let dst := s.ipOf (Reg.lnkEthPip l) v6
  let u := udpMake (s.fld (Reg.lnkEthUdp l) Fld.lnkEthUdpSport) (s.fld (Reg.lnkEthUdp l) Fld.lnkEthUdpDport) src dst pay
  beBytes 6 (s.macOf (Reg.lnkEthNh l)) ++ beBytes 6 (s.macOf (Reg.lnkEthMac l)) ++
    (if s.fld (Reg.lnkEthCfg l) Fld.lnkEthCfgVlan = 1 then
      [0x81, 0x00] ++ beBytes 2 (s.fld (Reg.lnkEthCfg l) Fld.lnkEthCfgPcp * 2 ^ 13 + s.fld (Reg.lnkEthCfg l) Fld.lnkEthCfgVid)
    else []) ++
    (if v6 then [0x86, 0xDD] else [0x08, 0x00]) ++ ipMake v6 src dst u

/-- The flow unit of link l that a message is. -/
def unitOf (l : Nat) (m : Out) : Option Bytes :=
  match m with
  | .unit k u => if k = l then some u else none
  | _ => none

/-- The units that f sends on a link in Ethernet mode leave in one datagram (R335): SEQ is that of the first DATA unit, or of the next
one. -/
def State.inFrame (s : State) (l : Nat) (f : State → State) : State :=
  let t := f s
  let sent := t.out.drop s.out.length
  let us := sent.filterMap (unitOf l)
  if (decide (l < 32) && s.ethPort (l / 4)) = false ∨ us = [] then t
  else t.setOut (s.out ++ sent.filter (fun m => (unitOf l m).isNone) ++ [.frame l (s.frameMake l (datagram (s.layer l).next (s.layer l).session.toNat us))])

end Sys2Proof.Machine
end

