-- ==== Sys2Proof/Machine/Links.lean ====
section
/-! DEFINITION. Fabric links: flow units, replay and credits, segments, the states of a link, cancelled transfers, global time on
the fabric and Ethernet mode (chapter 10; log entries 35 to 42). -/
namespace Sys2Proof.Machine

/-! ## The state of a link (R306, R307, R314) -/

/-- A change of state, which is logged (Table 10-6). -/
def State.goLink (s : State) (l v : Nat) : State :=
  (s.setLinkState l v).raise 0x0404 none 0x0020 l l (v * 2 ^ 48 + s.fld (Reg.lnkStatus l) Fld.lnkStatusSession)

/-- The units allocated to each VC and to the bypass channel (8) of a layer (R306, R390). -/
def State.allocOf (s : State) (l v : Nat) : Nat :=
  if l < 32 then
    (if v = 8 then max 8 (s.fld (Reg.lnkAllocb l) Fld.lnkAllocbUnits) else s.fld (Reg.lnkAlloc l v) Fld.lnkAllocUnits)
  else if v = 0 ∨ 7 ≤ v then (Config.portAlloc (l - 32) v).toNat
  else 0

/-- The units of the 17 counters, from those of the VCs and of the bypass channel (R306). -/
def counterUnits (f : Nat → Nat) : Tbl Nat :=
  (upFrom 0 17).foldl (fun (t : Tbl Nat) c =>
    t.put 0 c (if c = 16 then f 8 else if c % 2 = 0 then (f (c / 2) + 1) / 2 else f (c / 2) / 2)) []

/-- A link layer as it is at INIT (R300 to R308, R314). Segments that wait stay. -/
def State.freshLayer (s : State) (l : Nat) (session : BitVec 16) : State :=
  let a := counterUnits (s.allocOf l)
  s.setLayer l { alloc := a, limit := a, reported := a, session := session, txq := (s.layer l).txq }

/-- Do units other than LCTL cross the layer: a link in UP or DRAIN, a port in UP (Tables 10-6, 13-1)? -/
def State.layerUp (s : State) (l : Nat) : Bool :=
  if l < 32 then s.linkState l == 3 || s.linkState l == 4 else s.fld (Reg.plhStatus (l - 32)) Fld.plhStatusState == 2

/-- Adds to a counter of a fabric link; a Pliand port has no such counters. -/
def State.lnkBump (s : State) (l reg : Nat) : State := if l < 32 then s.bump reg else s

/-- A protocol violation of the partner (Table 10-9). -/
def State.lnkProto (s : State) (l : Nat) : State :=
  if l < 32 then (s.bump (Reg.lnkProto l)).raise 0x0400 none 0x0020 l l (Reg.lnkProto l) else s

/-- Changes every segment to send, on links and waiting. -/
def State.mapSegs (s : State) (f : List SegTx → List SegTx) : State :=
  let s := s.each ((upFrom 0 32).filter fun l => (s.layer l).txq != []) fun s l =>
    s.setLayer l { s.layer l with txq := f (s.layer l).txq }
  let g : Nat × SegTx → List (Nat × SegTx) := fun x => (f [x.2]).map fun y => (x.1, y)
  if s.fab.unplaced = [] then s else s.setFab { s.fab with unplaced := s.fab.unplaced.flatMap g }

/-- The segments that wait for a link of port p are placed (R311). -/
def State.flushPort (s : State) (p : Nat) : State :=
  if s.upLinks p = [] then s
  else
    let go := s.fab.unplaced.filter fun x => x.1 == p
    let s := s.setFab { s.fab with unplaced := s.fab.unplaced.filter fun x => x.1 != p }
    s.each go fun s x => s.replaceSeg p x.2

/-! ## Sending a unit (R298 to R300, R304, R307, R308, R310, R311, R323) -/

/-- The receive counter that a segment's units use (Table 10-2). -/
def SegTx.ctr (g : SegTx) : Nat := if g.vc = 8 then 16 else 2 * g.vc + g.half

/-- May the layer send a new DATA unit of counter c (R307)? -/
def LinkLayer.credit (x : LinkLayer) (c : Nat) : Bool :=
  let d := (x.seen.get 0 c + 0x10000 - x.sent.get 0 c) % 0x10000
  decide (1 ≤ d ∧ d < 2 ^ 15)

/-- The segments of which a unit may be sent now: the first of its counter, with a unit at hand and with credit. -/
def LinkLayer.ready (x : LinkLayer) : List SegTx :=
  (((upFrom 0 x.txq.length).zip x.txq).filter fun g =>
    decide (g.2.pos < g.2.units.length) && x.credit g.2.ctr && !((x.txq.take g.1).any fun y => y.ctr == g.2.ctr)).map Prod.snd

/-- Must segment g wait on link l for its turn: an earlier admitted transfer of its port and VC, not cancelled, has a unit to send on
another link of the port, in whatever state, or waits for one (R326; log entry 21)? -/
def State.heldBack (s : State) (l : Nat) (g : SegTx) : Bool :=
  match s.fab.xfers.find? fun t => g.xid == some t.xid && t.admitted && t.ended == none && t.cancelled == none with
  | none => false
  | some t =>
    let before := (s.admittedOn t.port t.vc).takeWhile fun y => y.xid != t.xid
    let ids := (before.filter fun y => y.cancelled == none).map fun y => some y.xid
    ids != [] && ((s.fab.unplaced.any fun y => y.1 == t.port && ids.contains y.2.xid) ||
      (portLinks t.port).any fun k => k != l && (s.layer k).txq.any fun y => ids.contains y.xid)

/-- The segment whose unit is sent next: in a reserved opportunity the body unit of its VC; otherwise header units and
single-unit segments first, then the oldest; admitted transfers in their order (R311, R323, R326; log entry 35). -/
def State.pickSeg (s : State) (l : Nat) : Option SegTx :=
  let r := (s.layer l).ready.filter fun g => !s.heldBack l g
  let code := if l < 32 then resCode s.areg (l / 4) (s.now.toNat % resLen s.areg (l / 4)) else 15
  match r.find? fun g => g.vc == code && g.pos != 0 with
  | some g => some g
  | none =>
    match r.find? fun g => g.pos == 0 with
    | some g => some g
    | none => r.head?

/-- The counter that the next unit reports, and the layer after it (R308). -/
def LinkLayer.report (x : LinkLayer) : Nat × LinkLayer :=
  let ch := ((upFrom 0 17).map fun i => (x.change + i) % 17).find? fun c => x.limit.get 0 c != x.reported.get 0 c
  let c := if x.unitNo % 4 = 0 then none else ch
  let x := { x with unitNo := x.unitNo + 1 }
  match c with
  | some c => (c, { x with change := (c + 1) % 17, reported := x.reported.put 0 c (x.limit.get 0 c) })
  | none =>
    let c := x.refresh
    (c, { x with refresh := (c + 1) % 17, reported := x.reported.put 0 c (x.limit.get 0 c) })

/-- Sends a unit with control bits [16:0], payload and sequence number (R298, R299, R302, R308). -/
def State.emitUnit (s : State) (l ctl : Nat) (payload : Bytes) (seq : Nat) : State :=
  let (c, x) := (s.layer l).report
  let w := ctl + (match x.nakDue with | some r => 2 ^ 17 + r * 2 ^ 18 | none => 0) + x.e * 2 ^ 21 + c * 2 ^ 37 +
    x.limit.get 0 c % 0x10000 * 2 ^ 42
  let body := leBytes 8 w ++ (payload ++ List.replicate 240 0).take 240
  (s.setLayer l { x with nakDue := none, told := x.e }).send (.unit l (body ++ leBytes 8 (crc64 (leBytes 2 seq ++ body))))

/-- Bits [16:0] of the control word of a segment's next unit (Table 10-2). -/
def SegTx.ctl (g : SegTx) : Nat :=
  let vc := if g.vc = 8 then 2 ^ 5 else g.vc * 4 + g.half * 2 ^ 6
  vc + b2n (g.pos == 0) * 2 ^ 7 + b2n (g.closed && g.pos + 1 == g.units.length) * 2 ^ 8 +
    (g.units.getD g.pos []).length * 2 ^ 9

/-- Is a segment of a privileged class (R318)? -/
def SegTx.privileged (g : SegTx) : Bool := g.priv || g.vc == 8

/-- Sends the next unit of segment g for the first time (R300, R303, R307, R310). -/
def State.sendData (s : State) (l : Nat) (g : SegTx) : State :=
  let x := s.layer l
  let raw := g.units.getD g.pos []
  let pay := if g.pos = 0 ∧ g.fwd = false then putField raw 16 8 s.now.toNat else raw
  let g' := { g with pos := g.pos + 1, freed := max g.freed (g.pos + 1) }
  let last := g.closed && g'.pos == g.units.length
  let seq := x.next
  let q := if last then x.txq.erase g else x.txq.map fun y => if y == g then g' else y
  let x := { x with
    next := (x.next + 1) % 0x10000, held := x.held ++ [⟨g.ctl, pay, if last then g.tell else none⟩], txq := q
    sent := x.sent.put 0 g.ctr ((x.sent.get 0 g.ctr + 1) % 0x10000)
    priv := if last && g.privileged then x.priv ++ [(seq, { g' with pos := 0 })] else x.priv }
  let s := (s.setLayer l x).lnkBump l (Reg.lnkTxu l)
  let s := match g.src with
    | some (a, c) => s.when (decide (g.freed ≤ g.pos)) fun s => s.freeUnits a c 1
    | none => s
  let f : Xfer → Xfer := fun t =>
    if g.xid = some t.xid ∧ g.pos ≠ 0 then { t with unsent := t.unsent - raw.length } else t
  let s := if g.xid = none then s else s.setFab { s.fab with xfers := s.fab.xfers.map f }
  s.emitUnit l g.ctl pay seq

/-- The STATUS of link l (Table 10-7). -/
def State.statusBytes (s : State) (l : Nat) : Bytes :=
  leBytes 1 1 ++ leBytes 4 s.ownAddr.toNat ++ leBytes 1 (l / 4) ++ leBytes 1 (l % 4) ++ leBytes 2 (s.layer l).session.toNat ++
    leBytes 1 (min 2 (s.fld (Reg.lnkCtrl l) Fld.lnkCtrlWmax)) ++ leBytes 1 (min 2 (s.fld (Reg.lnkCtrl l) Fld.lnkCtrlSmax)) ++
    (upFrom 0 17).flatMap (fun c => leBytes 2 ((s.layer l).alloc.get 0 c)) ++ leBytes 1 (b2n (s.ethPort (l / 4)))

/-- A link-control payload as it leaves: a TIME message takes its time of sending, t1 or t3, as its unit leaves (R331). -/
def State.stampLctl (s : State) (p : Bytes) : Bytes :=
  if field p 0 1 = 2 then putField p 1 9 (s.now.toNat * 256)
  else if field p 0 1 = 3 then putField p 19 9 (s.now.toNat * 256)
  else p

/-- The segment of which the layer may send a new unit now: none in DRAIN, or with 1,024 units unacknowledged (R303, Table 10-6). -/
def State.nextSeg (s : State) (l : Nat) : Option SegTx :=
  if (s.layer l).held.length < 1024 ∧ (l ≥ 32 ∨ s.linkState l = 3) then s.pickSeg l else none

/-- The unacknowledged unit that the layer sends again next (R304). -/
def LinkLayer.again (x : LinkLayer) : Option HeldUnit := x.held[(x.next + 0x10000 - x.acked) % 0x10000]?

/-- Sends one unit (R300, R315): a replay, a link-control unit, a DATA unit, or else an IDLE unit, which in Ethernet mode leaves only
as ETH_ACK_IDLE (R335); a link in INIT goes on to send STATUS. -/
def State.unitSend (s : State) (l : Nat) : State :=
  let x := s.layer l
  let lctl := fun (s : State) (p : Bytes) (r : List Bytes) =>
    (s.setLayer l { x with lctl := r }).emitUnit l (2 + p.length * 2 ^ 9) (s.stampLctl p) x.next
  if s.layerUp l then
    match x.again with
    | some u =>
      ((s.setLayer l { x with next := (x.next + 1) % 0x10000 }).lnkBump l (Reg.lnkTxu l)).emitUnit l u.ctl u.payload x.next
    | none =>
      match x.lctl with
      | p :: r => lctl s p r
      | [] =>
        match s.nextSeg l with
        | some g => s.sendData l g
        | none => if l < 32 ∧ s.ethPort (l / 4) then s else s.emitUnit l 1 [] x.next
  else if l < 32 ∧ s.linkState l = 2 then
    match x.lctl with
    | p :: r => lctl s p r
    | [] => lctl s (s.statusBytes l) []
  else s

/-- The units that go out at once: one, or in Ethernet mode up to NMAX in one datagram (R300, R335). -/
def State.unitsOut (s : State) (l : Nat) : State :=
  if l < 32 ∧ s.ethPort (l / 4) then
    s.inFrame l fun s => s.each (upFrom 0 (if s.linkState l = 2 then 1 else s.ethNmax l)) fun s _ => s.unitSend l
  else s.unitSend l

/-- FLOW_UNIT_SEND (R300). -/
def execFlowUnitSend (l : LayerId) (s : State) : Res := .next (s.unitsOut l)

/-- A link-control message waits to be sent; its fields follow its type in the order of Table 10-7 (log entry 36). -/
def State.pushLctl (s : State) (l : Nat) (p : Bytes) : State := s.setLayer l { s.layer l with lctl := (s.layer l).lctl ++ [p] }

/-! ## The end of an own transfer (R312, R320, R321, R327) -/

/-- An own transfer ends with a completion, which reaches the unit that it serves. -/
def State.endXfer (s : State) (x : W32) (c : Completion) : State :=
  match s.xfer x with
  | none => s
  | some t =>
    let s := s.dropSegs x
    let up : Xfer → Xfer := fun u => if u.xid = x then { u with ended := some c } else u
    match t.why with
    | .slot cx q =>
      let f : Flight → Flight := fun y => if y.xid = some x ∧ y.result = none then { y with result := some c } else y
      (s.setQueue cx q { s.queue cx q with flights := (s.queue cx q).flights.map f }).dropXfer x
    | .item id => (s.setFab { s.fab with xfers := s.fab.xfers.map up }).joinItem id
    | .coll i r =>
      let s := s.dropXfer x
      (match s.coll i with
        | some k => s.setColl i { k with receipts := k.receipts ++ [(r, c)] }
        | none => s)
    | .mirror j => (s.dropXfer x).mirrorReceipt j x c
    | .mgmt _ => s.dropXfer x
    | .notice => s.dropXfer x

/-- The status of a code of Table 1-6. -/
def statusOf (n : Nat) : Status :=
  match n with
  | 0 => .done | 1 => .empty | 2 => .malformed | 3 => .addressFault | 4 => .refused | 5 => .linkLost
  | 6 => .queueDead | 7 => .dataError | 8 => .aborted | 9 => .timeout | _ => .stepFailed

/-- The job that an own transfer concerns (R440). -/
def State.xferJob (s : State) (t : Xfer) : Option Nat :=
  match t.why with
  | .slot c _ => some (s.partJob (c / 4))
  | .item id => match (s.item id).map Item.owner with
    | some (.thread k _) => s.clusterJob (k / 4)
    | some (.entry p _ _ _ _) => some (s.portJob p)
    | _ => none
  | .coll i _ => (s.coll i).map fun c => c.key.job.val
  | .mirror j => some j
  | .mgmt j => some j
  | .notice => none

/-- A RECEIPT arrives on link l (R312, R320, R327): one that names no outstanding own transfer is discarded (Table 10-9). A
transfer was placed by the time t at which its RECEIPT was sent (log entry 119). -/
def State.receiptArrive (s : State) (l : Nat) (t : W64) (xid : W32) (c : Completion) : State :=
  let sent := t.toNat
  match s.xfer xid with
  | none => s.lnkProto l
  | some t =>
    let c := match t.cancelled with
      | some r => if c.status = .linkLost then r else c
      | none => c
    let late := t.admitted && c.status == .done && decide (t.deadline < sent)
    let s := s.when late fun s =>
      (s.bump (Reg.lnkLate t.port)).raise 0x0403 (s.xferJob t) 0x0021 t.port t.port (xid.toNat * 2 ^ 32 + (sent - t.deadline) % 2 ^ 32)
    s.endXfer xid (if late then { c with detail := 1 } else c)

/-- A reception on link l that may not be stamped before t; a later stamp than the own time is counted (R21). -/
def State.receiveAt (s : State) (l : Nat) (t : W64) (f : State → State) : State :=
  (s.when (decide (s.now < t)) fun s => s.bump (Reg.lnkClamp l)).stamped t f

/-- RECEIPT_RECEIVE (R312). -/
def execReceiptReceive (l : LinkId) (t : W64) (xid : W32) (m : ReceiptMsg) (s : State) : Res :=
  .next (s.receiveAt l (t + 1) fun s =>
    s.receiptArrive l t xid { status := statusOf m.status, detail := m.detail.toNat, count := m.count })

/-- What has arrived of a transfer and waits to be placed is abandoned (R320). -/
def State.dropWaits (s : State) (src xid : W32) : State :=
  let who : Teller := .remote src xid
  let s := s.each (s.drift.rings.map Prod.fst) fun s g =>
    s.setRing g { s.ring g with waits := (s.ring g).waits.filter fun w => w.teller != who }
  let s := s.each (s.drift.queues.map Prod.fst) fun s q =>
    s.setDq q { s.dq q with waits := (s.dq q).waits.filter fun w => w.teller != who }
  s.each (s.snps.map Prod.fst) fun s c =>
    s.setSnp c { s.snp c with waits := (s.snp c).waits.filter fun w => !(w.pub.sender == src && w.xid == xid) }

/-- A CANCEL arrives on link l (R320): DONE where the transfer was placed; otherwise it is abandoned and answered LINK_LOST; one that names
an unknown XID is discarded (Table 10-9; log entry 37). -/
def State.cancelArrive (s : State) (l : Nat) (src xid : W32) : State :=
  match s.fab.placed.find? fun p => p.1 == src && p.2.1 == xid with
  | some (_, _, c) => s.sendReceipt src xid (if c.status = .done then c else { status := .linkLost })
  | none =>
    match s.fab.rx.find? fun t => t.src == src && t.xid == xid with
    | none => s.lnkProto l
    | some t =>
      let s := if t.typ = 9 then s.smear (field t.hdr 0 6) t.total else s
      (s.dropWaits src xid).sendReceipt src xid { status := .linkLost }

/-- CANCEL_RECEIVE (R320). -/
def execCancelReceive (l : LinkId) (x : XferRef) (s : State) : Res := .next (s.cancelArrive l x.src x.xid)

/-- The receive units of forwarded segments that are dropped are free (R309). -/
def State.freeForwarded (s : State) (gs : List SegTx) : State :=
  s.each gs fun s g => match g.src with
    | some (a, c) => s.freeUnits a c (g.units.length - max g.pos g.freed)
    | none => s

/-- A link has ended: its layer is cleared with the receive units in it, what came in by it and is not whole is abandoned, and every
own transfer with a segment on it that is not complete is cancelled, to end with c where it was not placed, or as an earlier loss has
it (R320 to R322). -/
def State.endLink (s : State) (l : Nat) (c : Completion) : State :=
  let ts := s.fab.xfers.filter fun t => t.links.contains l && t.ended == none
  let s := s.freeForwarded (s.layer l).txq
  let s := s.setLayers (s.layers.put {} l {})
  let keep : RxXfer → RxXfer := fun r => { r with hold := r.hold.filter fun h => h.1 != l }
  let s := s.setFab { s.fab with rx := s.fab.rx.map keep }
  let own : SegTx → Bool := fun g => match g.src with | some (a, _) => a == l | none => false
  let f : List SegTx → List SegTx := fun q => (q.filter fun g => !(own g && !g.closed)).map fun g =>
    if own g then { g with src := none } else g
  let s := s.mapSegs f
  s.each ts fun s t =>
    let s := s.dropSegs t.xid
    let c := t.cancelled.getD c
    if s.upLinks t.port = [] then s.endXfer t.xid c
    else
      let up : Xfer → Xfer := fun u => if u.xid = t.xid then { u with cancelled := some c } else u
      (s.setFab { s.fab with xfers := s.fab.xfers.map up }).sendCancel t

/-- The link enters FAILED (R320). -/
def State.failLink (s : State) (l : Nat) : State :=
  ((s.goLink l 7).bump (Reg.lnkDowns l)).endLink l { status := .linkLost }

/-- The link ends at once (R322): DISABLED where EN is 0, else TRAINING. -/
def State.downLink (s : State) (l : Nat) : State :=
  (s.goLink l (if s.afld (Reg.lnkCtrl l) Fld.lnkCtrlEn = 0 then 0 else 1)).endLink l { status := .aborted, detail := 3 }

/-- DOWN_RECEIVE (R322). -/
def execDownReceive (l : LinkId) (s : State) : Res := .next (s.when (decide (2 ≤ s.linkState l)) fun s => s.downLink l)

/-- Sends DOWN on a link that trained (R322). -/
def State.sendDown (s : State) (l : Nat) : State :=
  s.when (decide (2 ≤ s.linkState l)) fun s => s.inFrame l fun s => s.emitUnit l (2 + 2 ^ 9) [5] (s.layer l).next

/-- Sends DOWN and ends the link (R322). -/
def State.closeLink (s : State) (l : Nat) : State := (s.sendDown l).downLink l

/-- The registers of link l (Table 10-10). -/
def linkRegs (l : Nat) : List Nat :=
  [Reg.lnkCtrl l, Reg.lnkStatus l, Reg.lnkTmr l, Reg.lnkGrace l, Reg.lnkPeer l, Reg.lnkPeerid l, Reg.lnkAllocb l, Reg.lnkEthCfg l,
    Reg.lnkEthUdp l, Reg.lnkEthPeeraddr l, Reg.lnkCrcerr l, Reg.lnkReplays l, Reg.lnkNocredit l, Reg.lnkProto l, Reg.lnkRetrains l,
    Reg.lnkDowns l, Reg.lnkClamp l, Reg.lnkDup l, Reg.lnkEthDrop l, Reg.lnkTxu l, Reg.lnkRxu l] ++
  (upFrom 0 8).map (Reg.lnkAlloc l) ++ [0, 1].flatMap (fun h => [Reg.lnkEthMac l h, Reg.lnkEthNh l h, Reg.lnkPtpTx l h, Reg.lnkPtpRx l h]) ++
  (upFrom 0 4).flatMap fun i => [Reg.lnkEthIp l i, Reg.lnkEthPip l i]

/-- A link reset (R322, R337): DOWN is sent, its registers return to their reset values, and the link ends in DISABLED. -/
def State.resetLink (s : State) (l : Nat) : State :=
  (((s.sendDown l).each (linkRegs l) fun s r => s.resetReg r).downLink l).setStale 4

/-- A link reset as a reset of Table 15-9 (R470). -/
def State.linkReset (s : State) (l : Nat) : State := (s.resetLink l).resetEvent 5 l

/-- LINK_RESET (R322). -/
def execLinkReset (l : LinkId) (s : State) : Res := .next (s.linkReset l)

/-! ## Receiving a unit (R301 to R304, R307 to R309, R330) -/

/-- Requests a replay where no NAK is outstanding (R302, R335). -/
def State.nak (s : State) (l reason : Nat) : State :=
  if (s.layer l).nakOut then s else s.setLayer l { s.layer l with nakOut := true, nakDue := some reason }

/-- The ACK of a unit (R303, R304); the SENDs whose last WRITE it acknowledges are delivered (R408). -/
def State.takeAck (s : State) (l w : Nat) : State :=
  let x := s.layer l
  let a := bits w 21 16
  let n := (a + 0x10000 - x.acked) % 0x10000
  if (x.next + 0x10000 - x.acked) % 0x10000 < n then s.lnkProto l
  else
    let gone := (upFrom 0 n).map fun i => (x.acked + i) % 0x10000
    let x := { x with acked := a, held := x.held.drop n, replays := if n = 0 then x.replays else 0
                      priv := x.priv.filter fun g => !gone.contains g.1 }
    let told := ((s.layer l).held.take n).filterMap HeldUnit.tell
    let s := if bit w 17 then (s.setLayer l { x with next := a, replays := x.replays + 1 }).lnkBump l (Reg.lnkReplays l)
      else s.setLayer l x
    s.each told State.hostAcked

/-- The credit report of a unit (R308). -/
def State.takeCredit (s : State) (l w : Nat) : State :=
  let x := s.layer l
  let c := bits w 37 5
  let v := bits w 42 16
  if (v + 0x10000 - x.seen.get 0 c) % 0x10000 < 2 ^ 15 then s.setLayer l { x with seen := x.seen.put 0 c v } else s.lnkProto l

/-- The VC that a segment type travels on, where counter c is its VC, or its own bypass (Tables 10-2, 10-5, R313)? -/
def typeOnVc (typ c : Nat) : Bool :=
  let v := c / 2
  match typ with
  | 1 => v == 0 || v == 1
  | 2 => v == 0 || v == 1 || c == 16
  | 3 => c == 16 | 11 => c == 16
  | 4 => v == 5 | 5 => v == 2
  | 6 => v == 2 || c == 16
  | 7 => v == 4 | 8 => v == 3 | 9 => v == 6
  | 10 => v == 7 || c == 16
  | _ => false

/-- The fields from byte 40 on of the types of R363 and R486 that fail: reserved ones that are not zero, and of MIRROR and MGMT
reserved codes (Tables 16-3, 16-4): their bits. -/
def tailFaults (typ : Nat) (t : Bytes) : List (Bool × Nat) :=
  let z := fun o n => field t o n != 0
  match typ with
  | 5 => [(bits (field t 8 1) 5 3 != 0, 389), (z 11 1, 408), (z 28 172, 544)]
  | 7 => [(bits (leNat t) 41 7 != 0, 361), (bits (leNat t) 60 4 != 0, 380), (bits (leNat t) 89 7 != 0, 409),
      (field t 32 1 == 0 && z 33 7, 584), (z 40 160, 640)]
  | 6 => [(bits (field t 2 1) 2 6 != 0, 338), (z 3 1, 344), (z 16 184, 448)]
  | 8 => [(bits (field t 0 1) 3 5 != 0, 323), (decide (2 < field t 1 1), 328), (decide (7 < field t 2 1), 336), (z 16 144, 448)]
  | 10 => [(field t 0 1 == 0 || decide (7 < field t 0 1), 320), (decide (3 < field t 1 1), 328), (z 13 3, 424),
      (field t 0 1 != 7 && z 24 32, 512), (z 56 144, 768)]
  | _ => []

/-- The lowest header field that fails (Tables 10-9 and 11-8); a MGMT segment is privileged and a single unit (R486). -/
def State.hdrFault (s : State) (b : Bytes) (c : Nat) : Option Nat :=
  let h := parseSegHdr b
  lowest ([(!s.inTorus h.dest, 0), (!typeOnVc h.typ c, 64), (bits (field b 10 1) 2 6 != 0, 82), (field b 11 1 != 0, 88),
    (decide (h.total < h.off + h.len), 192), (decide (65520 < h.len), 272), (field b 36 4 != 0, 288)] ++
    (if h.typ = 10 then [(!h.priv, 80), (h.total != 0, 232), (h.len != 0, 272)] else []) ++ tailFaults h.typ h.tail)

/-- Has a type a RECEIPT (R312)? A GRANT, which is a COLL segment of KIND 1, has none. -/
def hasReceipt (h : SegHdr) : Bool :=
  !(h.typ == 2 || h.typ == 3 || h.typ == 6 || h.typ == 11) && !(h.typ == 5 && field h.tail 2 1 == 1)

/-- The half in which a segment that came in by link l leaves by port p (R296). -/
def State.nextHalf (s : State) (l half p : Nat) : Nat :=
  let ip := l / 4
  let ix := axisIx s.ownAddr (ip / 2)
  let crossed := if ip % 2 = 1 then ix == 0 else ix + 1 == s.axisLen (ip / 2)
  if p / 2 = ip / 2 then (if half = 1 ∨ crossed then 1 else 0) else 0

/-- The earliest time with which the reception of a segment may be stamped (R21). -/
def SegHdr.since (h : SegHdr) : W64 := h.time + 1

/-- The transfer in reception to which a segment belongs, entered if it is new. -/
def State.openRx (s : State) (h : SegHdr) : State :=
  if s.fab.rx.any fun t => t.src == h.src && t.xid == h.xid then
    let f : RxXfer → RxXfer := fun t =>
      if t.src == h.src && t.xid == h.xid then { t with time := laterOf t.time h.since } else t
    s.setFab { s.fab with rx := s.fab.rx.map f }
  else
    let t : RxXfer := { src := h.src, xid := h.xid, typ := h.typ, hdr := h.tail, total := h.total, time := h.since }
    (s.setFab { s.fab with rx := s.fab.rx ++ [t]
                           placed := s.fab.placed.filter fun p => !(p.1 == h.src && p.2.1 == h.xid) })

/-- A body joins its transfer. -/
def State.addBody (s : State) (h : SegHdr) (body : Bytes) : State :=
  let f : RxXfer → RxXfer := fun r =>
    if r.src == h.src && r.xid == h.xid && !(r.got.any fun g => g.1 == h.off) then { r with got := r.got ++ [(h.off, body)] } else r
  s.setFab { s.fab with rx := s.fab.rx.map f }

/-- A whole segment for this device, from link l (R312, R313, R353): what its header carries acts at once, a body joins its
transfer. -/
def State.takeSegment (s : State) (l : Nat) (h : SegHdr) (body : Bytes) : State :=
  let t := h.tail
  match h.typ with
  | 2 => s.creditReceive (field t 0 1) (field t 1 1 % 4) (BitVec.ofNat 16 (field t 2 2))
  | 3 => s.receiptArrive l h.time (BitVec.ofNat 32 (field t 0 4)) { status := statusOf (field t 4 1), detail := field t 6 2, count := field t 8 5 }
  | 6 =>
    let k : CollKey := { cid := BitVec.ofNat 16 (field t 0 2), job := ⟨field t 2 1 % 4, by omega⟩, step := BitVec.ofNat 32 (field t 4 4) }
    s.digestArrive k h.src (BitVec.ofNat 64 (field t 8 8))
  | 11 => s.cancelArrive l h.src h.xid
  | 5 =>
    if field t 2 1 = 1 then
      s.grant { cid := BitVec.ofNat 16 (field t 0 2), job := ⟨field t 8 1 % 4, by omega⟩, step := BitVec.ofNat 32 (field t 4 4) }
        h.src (field t 9 1) (field t 12 4)
    else s.addBody h body
  | 9 =>
    let a := field t 0 6
    match s.rangeFault (some (field t 6 1)) a h.total with
    | some x => (s.lnkProto l).sendReceipt h.src h.xid (addressFault x)
    | none => (s.store (a + h.off) body).addBody h body
  | _ => s.addBody h body

/-- Abandons the open segment of counter c of a link: what is left of a forwarded one is not sent on (Table 10-9). -/
def State.abandon (s : State) (l c : Nat) : State :=
  let x := s.layer l
  let s := s.freeUnits l c (sumBy SegRx.held (x.rx.filter fun g => g.ctr == c))
  let x := s.layer l
  let s := s.setLayer l { x with rx := x.rx.filter fun g => g.ctr != c }
  let mine : SegTx → Bool := fun g => g.src == some (l, c) && !g.closed
  let left := ((upFrom 0 32).flatMap fun k => (s.layer k).txq.filter mine) ++ (s.fab.unplaced.map Prod.snd).filter mine
  let s := s.mapSegs fun q => q.filter fun g => !mine g
  s.freeForwarded left

/-- Was a privileged segment accepted before on port p (R318)? -/
def State.isDup (s : State) (p : Nat) (h : SegHdr) : Bool := (s.fab.dups.get [] p).contains (h.src, h.xid)

/-- Remembers a privileged segment: the last 64 of a port (R318). -/
def State.noteDup (s : State) (p : Nat) (h : SegHdr) : State :=
  let l := s.fab.dups.get [] p ++ [(h.src, h.xid)]
  s.setFab { s.fab with dups := s.fab.dups.put [] p (l.drop (l.length - 64)) }

/-- Does a transfer of a type hold its receive units until it is placed (R251, R355, R359)? -/
def holdsUnits (typ : Nat) : Bool := typ == 4 || typ == 7

/-- Adds n units of counter c of link l to those that a transfer in reception holds. -/
def State.holdMore (s : State) (h : SegHdr) (l c n : Nat) : State :=
  let f : RxXfer → RxXfer := fun r => if r.src == h.src && r.xid == h.xid then { r with hold := r.hold ++ [(l, c, n)] } else r
  s.setFab { s.fab with rx := s.fab.rx.map f }

/-- Where counter c of link l has no free unit left and the transfer of the open segment g is not whole, the units that the transfer
holds there are freed where nothing else would go on: it needs more units than there are, or no transfer that is whole holds any (log
entry 116). -/
def State.makeRoom (s : State) (l : Nat) (g : SegRx) : State × SegRx :=
  let x := s.layer l
  let h := parseSegHdr g.hdr
  let here : Nat × Nat × Nat → Bool := fun y => y.1 == l && y.2.1 == g.ctr
  let large := decide (x.alloc.get 0 g.ctr < max 1 (ceilDiv h.total 65520) + ceilDiv h.total 240)
  let others := s.fab.rx.any fun r => r.typ == 0 && r.hold.any here
  if g.held ≠ 0 ∧ x.alloc.get 0 g.ctr ≤ x.used.get 0 g.ctr ∧ (large ∨ !others) then
    let own : RxXfer → Bool := fun r => r.src == h.src && r.xid == h.xid
    let n := sumBy (fun r => if own r then sumBy (fun y => if here y then y.2.2 else 0) r.hold else 0) s.fab.rx
    let f : RxXfer → RxXfer := fun r => if own r then { r with hold := r.hold.filter fun y => !here y } else r
    ((s.setFab { s.fab with rx := s.fab.rx.map f }).freeUnits l g.ctr (g.held + n), { g with held := 0 })
  else (s, g)

/-- A segment is whole (R21, R310, R318): one whose body is not SEGLEN bytes is discarded. -/
def State.finishSeg (s : State) (l : Nat) (g : SegRx) : State :=
  let h := parseSegHdr g.hdr
  let s := s.setLayer l { s.layer l with rx := (s.layer l).rx.filter fun y => y.ctr != g.ctr }
  if g.drop then s
  else
    let s := s.when (h.priv || g.ctr == 16) fun s => s.noteDup (l / 4) h
    if g.fwd then s
    else if g.body.length ≠ h.len then (s.lnkProto l).freeUnits l g.ctr g.held
    else (s.when (g.held != 0) fun s => s.holdMore h l g.ctr g.held).stamped h.since fun s => s.takeSegment l h g.body

/-- A segment of which more is to come stays open. -/
def State.keepSeg (s : State) (l : Nat) (g : SegRx) : State :=
  let r := s.makeRoom l g
  r.1.setLayer l { r.1.layer l with rx := ((r.1.layer l).rx.filter fun y => y.ctr != g.ctr) ++ [r.2] }

/-- A header unit for this device, or of a segment that is answered here (R21, R318, Table 10-9). -/
def State.openLocal (s : State) (l c : Nat) (b : Bytes) : State × SegRx :=
  let h := parseSegHdr b
  let s := s.when (decide (s.now < h.since)) fun s => s.bump (Reg.lnkClamp l)
  if (h.priv || c == 16) && s.isDup (l / 4) h then
    ((s.freeUnits l c 1).bump (Reg.lnkDup l), { ctr := c, hdr := b, drop := true })
  else match s.hdrFault b c with
    | some d =>
      let s := (s.freeUnits l c 1).stamped h.since fun s => s.lnkProto l
      (s.when (hasReceipt h) fun s => s.sendReceipt h.src h.xid (malformed d), { ctr := c, hdr := b, drop := true })
    | none =>
      let k := holdsUnits h.typ
      ((s.when (!k) fun s => s.freeUnits l c 1).when (hasReceipt h) fun s => s.openRx h, { ctr := c, hdr := b, held := b2n k })

/-- A header unit of a segment for another device (R295, R296, R310): it goes on by the next port, one hop further. -/
def State.openForward (s : State) (l c half : Nat) (b : Bytes) (eom : Bool) : State :=
  let h := parseSegHdr b
  let p := s.portTo s.ownAddr h.dest
  let g : SegTx := { vc := if c = 16 then 8 else c / 2, half := if c = 16 then 0 else s.nextHalf l half (p.getD 8)
                     units := [putField b 9 1 (h.hops + 1)], closed := eom, typ := h.typ, priv := h.priv, src := some (l, c), fwd := true }
  s.placeSeg p g

/-- A DATA unit that has been accepted (R310, Table 10-9). -/
def State.segUnit (s : State) (l c w : Nat) (raw : Bytes) : State :=
  let len := bits w 9 8
  let som := bit w 7
  let eom := bit w 8
  let pay := raw.take len
  let o := (s.layer l).rx.find? fun g => g.ctr == c
  if len = 0 ∨ 240 < len ∨ (len < 240 ∧ !eom) ∨ (!som && o.isNone) then
    ((s.lnkProto l).freeUnits l c 1).abandon l c
  else if som then
    let s := if o.isSome then (s.lnkProto l).abandon l c else s
    let b := (pay ++ List.replicate 240 0).take 240
    let h := parseSegHdr b
    if h.dest ≠ s.ownAddr ∧ s.inTorus h.dest ∧ !((h.priv || c == 16) && s.isDup (l / 4) h) then
      let s := s.openForward l c (bits w 6 1) b eom
      let g : SegRx := { ctr := c, hdr := b, fwd := true }
      if eom then s.finishSeg l g else s.keepSeg l g
    else
      let r := s.openLocal l c b
      if eom then r.1.finishSeg l r.2 else r.1.keepSeg l r.2
  else match o with
    | none => s
    | some g =>
      if g.fwd then
        let mine : SegTx → SegTx := fun y =>
          if y.src == some (l, c) && !y.closed then { y with units := y.units ++ [pay], closed := eom } else y
        let goes := (s.fab.unplaced.any fun y => y.2.src == some (l, c) && !y.2.closed) ||
          (upFrom 0 32).any fun k => (s.layer k).txq.any fun y => y.src == some (l, c) && !y.closed
        let s := if goes then s.mapSegs fun q => q.map mine else s.freeUnits l c 1
        if eom then s.finishSeg l g else s
      else
        let s := s.when (g.held == 0) fun s => s.freeUnits l c 1
        let g' := { g with body := g.body ++ pay, held := if g.held = 0 then 0 else g.held + 1 }
        if eom then s.finishSeg l g' else s.keepSeg l g'

/-- A DATA unit of Pliand port p: a message that opens with a reserved type is discarded (R392; log entry 36). The messages of the
other types come as commands of their own. -/
def State.portUnit (s : State) (p w : Nat) (raw : Bytes) : State :=
  let t := field raw 0 1
  s.when (bit w 7 && (t == 0 || decide (9 < t))) fun s => s.violate p 8

/-- A DATA unit that passes its CRC (R301, R309). -/
def State.dataUnit (s : State) (l w : Nat) (raw : Bytes) : State :=
  let x := s.layer l
  let c := if bit w 5 then 16 else 2 * bits w 2 3 + bits w 6 1
  if x.alloc.get 0 c ≤ x.used.get 0 c then
    let s := if l < 32 then (s.bump (Reg.lnkNocredit l)).raise 0x0400 none 0x0020 l l (Reg.lnkNocredit l) else s
    s.setLayer l { s.layer l with nakOut := true, nakDue := some 1 }
  else
    let s := (s.setLayer l { x with e := (x.e + 1) % 0x10000, nakOut := false
                                    used := x.used.put 0 c (x.used.get 0 c + 1) }).lnkBump l (Reg.lnkRxu l)
    if l < 32 then s.segUnit l c w raw else (s.portUnit (l - 32) w raw).freeUnits l c 1

/-- A link-control unit (Table 10-7): DOWN acts at once; the fields of the other types come with their own commands (log entry
36). -/
def State.lctlUnit (s : State) (l : Nat) (raw : Bytes) : State :=
  let t := field raw 0 1
  if t = 5 ∧ l < 32 then s.downLink l else if t = 0 ∨ 5 < t then s.lnkProto l else s

/-- A unit that passes its CRC at E ends an outstanding NAK (R302). -/
def State.atE (s : State) (l : Nat) : State := s.setLayer l { s.layer l with nakOut := false }

/-- A unit arrives that is checked with sequence number q: E, or in a datagram one that a unit before it leads to (R301 to R304,
R330, R335; log entry 38). A DATA unit that is not the unit at E cannot be accepted. -/
def State.unitArrive (s : State) (l q : Nat) (u : Bytes) : State :=
  let x := s.layer l
  let w := leNat (u.take 8)
  let raw := (u.drop 8).take 240
  let kind := bits w 0 2
  let len := bits w 9 8
  if u.length ≠ 256 ∨ crc64 (leBytes 2 q ++ u.take 248) ≠ field u 248 8 then
    if x.nakOut then s else (s.lnkBump l (Reg.lnkCrcerr l)).nak l 0
  else if kind = 3 ∨ 16 < bits w 37 5 ∨ bits w 58 6 ≠ 0 ∨ (bit w 5 ∧ bits w 2 3 + bits w 6 1 ≠ 0) then
    let s := s.lnkProto l
    if q ≠ x.e then s
    else if kind = 0 then
      ((s.atE l).setLayer l { (s.atE l).layer l with e := (x.e + 1) % 0x10000 }).lnkBump l (Reg.lnkRxu l)
    else s.atE l
  else
    let s := ((s.takeAck l w).takeCredit l w).when (q == x.e && kind != 0) fun s => s.atE l
    if kind = 0 then (if s.layerUp l ∧ q = x.e then s.dataUnit l w raw else s)
    else if kind = 2 then (if len = 0 ∨ 240 < len then s.lnkProto l else s.lctlUnit l raw)
    else s.when (len != 0) fun s => s.lnkProto l

/-- FLOW_UNIT_RECEIVE (R301): in Ethernet mode the units come in datagrams. -/
def execFlowUnitReceive (l : LayerId) (u : Bytes) (s : State) : Res :=
  .next (s.when (if l.val < 32 then !s.ethPort (l / 4) && (s.layerUp l || s.linkState l == 2) else s.layerUp l) fun s =>
    s.unitArrive l (s.layer l).e u)

/-! ## Link states (R305, R313 to R319) -/

/-- Sends again from ACKED (R304, R305, R317). -/
def State.replay (s : State) (l : Nat) : State :=
  let x := s.layer l
  if x.held = [] then s.setLayer l { x with next := x.acked }
  else (s.setLayer l { x with next := x.acked, replays := x.replays + 1 }).lnkBump l (Reg.lnkReplays l)

/-- The link enters RETRAIN (R305, R316, R317). -/
def State.retrain (s : State) (l : Nat) : State := (s.goLink l 5).bump (Reg.lnkRetrains l)

/-- A Pliand port enters GRACE (Table 13-1). -/
def State.portGrace (s : State) (p : Nat) : State := s.setFld (Reg.plhStatus p) Fld.plhStatusState 3

/-- REPLAY_TIMEOUT (R305, R390): after MAXREPLAY replays without an advance a link retrains, and a Pliand port enters GRACE. -/
def execReplayTimeout (l : LayerId) (s : State) : Res :=
  let x := s.layer l
  let m := if l.val < 32 then max 1 (s.fld (Reg.lnkTmr l) Fld.lnkTmrMaxreplay) else 8
  .next (s.when (s.layerUp l && x.held != []) fun s =>
    if x.replays < m then s.replay l
    else if l.val < 32 then s.retrain l
    else s.portGrace (l.val - 32))

/-- BYPASS_FALLBACK (R313): single-unit STAGE_CREDIT, DIGEST and MGMT segments whose VC has no credit move to the bypass
channel. -/
def execBypassFallback (l : LayerId) (s : State) : Res :=
  let x := s.layer l
  let f : SegTx → SegTx := fun g =>
    if (g.typ == 2 || g.typ == 6 || g.typ == 10) && g.units.length == 1 && g.closed && g.pos == 0 && !x.credit g.ctr then
      { g with vc := 8, half := 0 } else g
  .next (s.when (s.layerUp l && x.txq != []) fun s => s.setLayer l { x with txq := x.txq.map f })

/-- Width code that a set of trained lanes allows (R316). -/
def widthOf (lanes : Nat) : Nat := if lanes = 15 then 2 else if lanes % 4 = 3 ∨ lanes / 4 = 3 then 1 else 0

/-- Writes what a link runs at: lanes that trained, and the width and speed codes below its caps (R315, R316). -/
def State.setLanes (s : State) (l lanes speed : Nat) : State :=
  let x := s.layer l
  let w := min (widthOf lanes) (min x.capWidth (min 2 (s.fld (Reg.lnkCtrl l) Fld.lnkCtrlWmax)))
  let v := min speed (min x.capSpeed (min 2 (s.fld (Reg.lnkCtrl l) Fld.lnkCtrlSmax)))
  ((s.setFld (Reg.lnkStatus l) Fld.lnkStatusLanes lanes).setFld (Reg.lnkStatus l) Fld.lnkStatusWidth w).setFld (Reg.lnkStatus l)
    Fld.lnkStatusSpeed v

/-- A link is UP: what waits for its port is placed. -/
def State.linkUp (s : State) (l : Nat) : State := (s.goLink l 3).flushPort (l / 4)

/-- The session that an INIT gives a link: the one that comes with it, or the next number where that is not new (R314; log entry
125). -/
def State.newSession (s : State) (l : Nat) (session : BitVec 16) : BitVec 16 :=
  if session.toNat = s.fld (Reg.lnkStatus l) Fld.lnkStatusSession then session + 1 else session

/-- LINK_TRAINED (R314, R317, R319): a link that retrains or is in GRACE goes UP only with its own session. -/
def execLinkTrained (l : LinkId) (lanes : BitVec 4) (speed : Fin 3) (session : BitVec 16) (s : State) : Res :=
  let st := s.linkState l
  .next (s.when (lanes != 0) fun s =>
    if st = 5 ∨ st = 6 then s.when (session.toNat == s.fld (Reg.lnkStatus l) Fld.lnkStatusSession) fun s =>
      let s := (s.setLanes l lanes.toNat speed).replay l
      (s.setLayer l { s.layer l with replays := 0, capWidth := 2, capSpeed := 2 }).linkUp l
    else if st = 1 ∨ st = 7 ∨ st = 8 then
      let session := s.newSession l session
      let s := (s.freshLayer l session).setLanes l lanes.toNat speed
      let s := (s.setFld (Reg.lnkStatus l) Fld.lnkStatusSession session.toNat).goLink l 2
      s.pushLctl l (s.statusBytes l)
    else s)

/-- Is a partner the neighbour that the wiring of R293 gives the link (R315)? -/
def State.wiredRight (s : State) (l : Nat) (m : LinkStatusMsg) : Bool :=
  let p := l / 4
  (m.addr == if s.ethPort p then s.reg (Reg.lnkEthPeeraddr l) else s.neighbour p) &&
    m.port.val == (if p % 2 = 0 then p + 1 else p - 1) && m.link.val == l % 4

/-- The units that the receive buffers of link l hold, as latched at its INIT (R306). -/
def State.allocSum (s : State) (l : Nat) : Nat := sumBy ((s.layer l).alloc.get 0) (upFrom 0 17)

/-- Width and speed that both sides allow (R315). -/
def State.settleRate (s : State) (l : Nat) (m : LinkStatusMsg) : State :=
  let w := min (s.fld (Reg.lnkStatus l) Fld.lnkStatusWidth) m.width
  let v := min (s.fld (Reg.lnkStatus l) Fld.lnkStatusSpeed) m.speed
  let s := (s.setFld (Reg.lnkStatus l) Fld.lnkStatusWidth w).setFld (Reg.lnkStatus l) Fld.lnkStatusSpeed v
  s.when m.extra fun s => s.raise 0x0402 none 0x0020 l l (w + v * 4)

/-- STATUS_RECEIVE (R306, R315, R318, R335). -/
def execStatusReceive (l : LinkId) (m : LinkStatusMsg) (s : State) : Res :=
  let st := s.linkState l
  let stuck := s.ethPort (l / 4) && (s.fld (Reg.lnkEthUdp l) Fld.lnkEthUdpSport == 0 || s.fld (Reg.lnkEthUdp l) Fld.lnkEthUdpDport == 0)
  .next (if st = 6 then (if m.session ≠ BitVec.ofNat 16 (s.fld (Reg.lnkPeerid l) Fld.lnkPeeridSession) then s.failLink l else s)
    else s.when (st == 2) fun s =>
      let s := s.setReg (Reg.lnkPeer l) m.addr
      let s := s.setReg (Reg.lnkPeerid l) (BitVec.ofNat 32 (m.port.val + m.link.val * 8 + m.session.toNat * 32))
      let a := (upFrom 0 17).foldl (fun (t : Tbl Nat) c => t.put 0 c (m.allocs.getD c 0)) []
      let v := (upFrom 0 9).foldl (fun (t : Tbl Nat) v =>
        t.put 0 v (m.allocs.getD (2 * v) 0 + if v = 8 then 0 else m.allocs.getD (2 * v + 1) 0)) []
      let s := s.setLayer l { s.layer l with seen := a, partner := v }
      if 1024 < s.allocSum l then s.raise 0x0005 none 0x0020 l (Reg.lnkAlloc l 0) (s.allocSum l)
      else if stuck then s
      else if s.wiredRight l m then (s.settleRate l m).linkUp l
      else (s.goLink l 8).raise 0x0401 none 0x0020 l l m.addr.toNat)

/-- STATUS_PERIODIC (R315). -/
def execStatusPeriodic (l : LinkId) (s : State) : Res :=
  .next (s.when (s.linkState l == 3) fun s => s.pushLctl l (s.statusBytes l))

/-- The segments of a link of which nothing is sent move to the other links of its port (R316). -/
def State.moveNew (s : State) (l : Nat) : State :=
  let go := (s.layer l).txq.filter fun g => g.pos == 0
  let s := s.setLayer l { s.layer l with txq := (s.layer l).txq.filter fun g => g.pos != 0 }
  s.each go fun s g => s.replaceSeg (l / 4) g

/-- RETRAIN is written 1 in UP (R316). -/
def State.planRetrain (s : State) (l : Nat) : State :=
  s.when (s.linkState l == 3) fun s =>
    (s.goLink l 4).moveNew l

/-- LNK_RETRAIN (R316). -/
def execLnkRetrain (l : LinkId) (s : State) : Res := .next (s.planRetrain l)

/-- DRAIN_END (R316): ACKED has reached NEXT, or 10 µs are over. -/
def execDrainEnd (l : LinkId) (timedOut : Bool) (s : State) : Res :=
  .next (s.when (s.linkState l == 4 && ((s.layer l).held == [] || timedOut)) fun s =>
    let x := s.layer l
    let w := min 2 (s.fld (Reg.lnkCtrl l) Fld.lnkCtrlWmax)
    let v := min 2 (s.fld (Reg.lnkCtrl l) Fld.lnkCtrlSmax)
    (s.inFrame l fun s => s.emitUnit l (2 + 3 * 2 ^ 9) [4, BitVec.ofNat 8 w, BitVec.ofNat 8 v] x.next).retrain l)

/-- LCTL_RETRAIN_RECEIVE (R316): this side retrains too, at no more than the width and speed asked for. -/
def execLctlRetrainReceive (l : LinkId) (width speed : Fin 3) (s : State) : Res :=
  .next (s.when (s.linkState l == 3 || s.linkState l == 4) fun s =>
    (s.setLayer l { s.layer l with capWidth := width, capSpeed := speed }).retrain l)

/-- LANE_LOCK_LOST (R317). -/
def execLaneLockLost (l : LinkId) (s : State) : Res := .next (s.when (s.linkState l == 3) fun s => s.retrain l)

/-- The privileged segments that a link holds, unacknowledged ones included, move to another link of its port; a multi-unit one
starts again from its header (R318). -/
def State.movePrivileged (s : State) (l : Nat) : State :=
  let x := s.layer l
  let go := x.priv.map Prod.snd ++ (x.txq.filter SegTx.privileged).map fun g => { g with pos := 0 }
  if s.upLinks (l / 4) = [] then s
  else
    (s.setLayer l { x with priv := [], txq := x.txq.filter fun g => !g.privileged }).each go fun s g => s.replaceSeg (l / 4) g

/-- RETRAIN_TIMEOUT (R314, R318). -/
def execRetrainTimeout (l : LinkId) (s : State) : Res :=
  .next (s.when (s.linkState l == 5) fun s => (s.goLink l 6).movePrivileged l)

/-- GRACE_EXPIRED (R320). -/
def execGraceExpired (l : LinkId) (s : State) : Res := .next (s.when (s.linkState l == 6) fun s => s.failLink l)

/-- EN is applied (Table 10-6, R322). -/
def State.applyLinkEn (s : State) (l : Nat) (on : Bool) : State :=
  if on then s.when (s.linkState l == 0) fun s => s.goLink l 1
  else if s.linkState l = 0 then s else s.closeLink l

/-- MODE of the port changes: every link of it retrains under the new mode (R297): one in UP or DRAIN by a retrain, one in INIT by
training anew; the others train under it when they next do (log entry 120). -/
def State.applyMode (s : State) (p : Nat) : State :=
  s.each (portLinks p) fun s l =>
    if s.linkState l = 3 ∨ s.linkState l = 4 then s.retrain l else s.when (s.linkState l == 2) fun s => s.goLink l 1

/-! ## Global time on the fabric (R331, R332) -/

/-- The link on which the exchanges run: the parent, or once it is in GRACE the link of the same index on another port that is
UP (R318). In DRAIN link-control units still cross (Table 10-6). -/
def State.timeLink (s : State) : Option Nat :=
  let l := s.fld Reg.lnkTimeCfg Fld.lnkTimeCfgParent
  if s.linkState l = 3 ∨ s.linkState l = 4 then some l
  else if s.linkState l = 6 ∨ s.linkState l = 7 then ((upFrom 0 8).map fun p => 4 * p + l % 4).find? fun k => s.linkState k == 3
  else none

/-- Does this device follow a parent? -/
def State.timeChild (s : State) : Bool :=
  s.fld Reg.lnkTimeCfg Fld.lnkTimeCfgEn == 1 && s.fld Reg.lnkTimeCfg Fld.lnkTimeCfgRoot == 0

/-- TIME_REQ_SEND (R331): its unit takes t1 as it leaves. -/
def execTimeReqSend (s : State) : Res :=
  .next (match s.timeLink with
    | some l => s.when s.timeChild fun s => s.pushLctl l (2 :: leBytes 9 0)
    | none => s)

/-- TIME_REQ_RECEIVE (R331). -/
def execTimeReqReceive (l : LinkId) (t1 : Nat) (s : State) : Res :=
  let t := s.now.toNat * 256
  .next (s.when (s.linkState l == 3 || s.linkState l == 4) fun s =>
    s.pushLctl l (3 :: leBytes 9 t1 ++ leBytes 9 t ++ leBytes 9 0 ++
      leBytes 1 (s.fld Reg.lnkTimeStatus Fld.lnkTimeStatusDepth) ++ leBytes 1 (s.fld Reg.lnkTimeStatus Fld.lnkTimeStatusSync)))

/-- Corrects the own time by θ, in 1/256 ns (R332). -/
def State.steer (s : State) (th : Int) : State :=
  let ns := th / 256
  if 256000 < th then (s.setNow (s.now + BitVec.ofNat 64 ns.toNat)).setFab { s.fab with hold := 0, slew := 0 }
  else if th < -256000 then s.setFab { s.fab with hold := (-ns).toNat - 1000, slew := 0 }
  else s.setFab { s.fab with hold := 0, slew := ns }

/-- SYNC after an exchange (R332, R446). -/
def State.syncAfter (s : State) (th : Int) (depth : Nat) (parentSync : Bool) : State :=
  let good := decide (-512 ≤ th ∧ th ≤ 512 ∧ depth ≤ 64)
  let n := if good then min 8 (s.fab.good + 1) else 0
  let was := s.fld Reg.lnkTimeStatus Fld.lnkTimeStatusSync == 1
  let s := s.setFab { s.fab with good := n }
  if th < -2048 ∨ 2048 < th ∨ parentSync = false then
    (s.setFld Reg.lnkTimeStatus Fld.lnkTimeStatusSync 0).when was fun s => s.raise 0x000A none 0x0004 0 (wrapInt 32 (th / 256)) 0
  else if n = 8 then (s.setFld Reg.lnkTimeStatus Fld.lnkTimeStatusSync 1).setFld Reg.timStatus Fld.timStatusSet 1
  else s

/-- The child's time at the arrival of an answer, in 1/256 ns: its own time, with the fraction of the lanes' stamp t (R331; log entry
41). -/
def State.arrivalTime (s : State) (t : Nat) : Nat := s.now.toNat * 256 + t % 256

/-- The offset that an exchange gives (R331). -/
def timeOffset (t1 t2 t3 t4 : Nat) : Int := (((t2 : Int) - t1) - ((t4 : Int) - t3)) / 2

/-- TIME_RSP_RECEIVE (R331, R332). -/
def execTimeRspReceive (l : LinkId) (t1 t2 t3 t4 : Nat) (depth : Nat) (sync : Bool) (s : State) : Res :=
  let th := timeOffset t1 t2 t3 (s.arrivalTime t4)
  let d := min 127 (depth + 1)
  .next (s.when (s.timeChild && s.timeLink == some l.val) fun s =>
    let ns := th / 256
    let off : Int := if 32767 < ns then 32767 else if ns < -32768 then -32768 else ns
    let s := (s.setFld Reg.lnkTimeStatus Fld.lnkTimeStatusDepth d).setFld Reg.lnkTimeStatus Fld.lnkTimeStatusOffset (wrapInt 16 off)
    (s.syncAfter th d sync).steer th)

/-- One nanosecond of global time (R22, R332): held still, slewed by one part in 5,000, or counted. -/
def State.tickTime (s : State) : State :=
  let f := s.fab
  if 0 < f.hold then s.setFab { f with hold := f.hold - 1 }
  else if f.slew = 0 then s.setNow (s.now + 1)
  else if 0 < f.slewWait then (s.setNow (s.now + 1)).setFab { f with slewWait := f.slewWait - 1 }
  else if 0 < f.slew then (s.setNow (s.now + 2)).setFab { f with slew := f.slew - 1, slewWait := 4999 }
  else s.setFab { f with slew := f.slew + 1, slewWait := 4999 }

/-! ## Ethernet mode (R334 to R336) -/

/-- The units of a datagram whose SEQ is E, each checked with SEQ plus the number of DATA units before it (R335). -/
def State.datagramUnits (s : State) (l : Nat) : Nat → List Bytes → State
  | _, [] => s
  | q, u :: r => (s.unitArrive l q u).datagramUnits l (if field u 0 1 % 4 = 0 then (q + 1) % 0x10000 else q) r

/-- ETH_FRAME_RECEIVE (R334, R335): a PTP frame goes on to PTP_EVENT_MESSAGE. -/
def execEthFrameReceive (l : LinkId) (f : Bytes) (s : State) : Res :=
  .next (s.when (s.ethPort (l / 4) && decide (2 ≤ s.linkState l ∧ s.linkState l ≤ 4)) fun s =>
    match s.frameTake l f with
    | none => s.bump (Reg.lnkEthDrop l)
    | some (true, _) => s
    | some (false, pay) =>
      match datagramTake (if s.linkState l = 2 then none else some (s.fld (Reg.lnkPeerid l) Fld.lnkPeeridSession)) pay with
      | none => s
      | some (q, us) => if q ≠ (s.layer l).e then s.nak l 2 else s.datagramUnits l q us)

/-- Is an acknowledgement, a NAK or a credit outstanding: something that no unit sent has carried yet (R335)? -/
def LinkLayer.owes (x : LinkLayer) : Bool :=
  x.told != x.e || x.nakDue.isSome || (upFrom 0 17).any fun c => x.limit.get 0 c != x.reported.get 0 c

/-- ETH_ACK_IDLE (R335): with no DATA to send, new or again, and something outstanding, a datagram with one IDLE unit. -/
def execEthAckIdle (l : LinkId) (s : State) : Res :=
  .next (s.when (s.ethPort (l / 4) && s.layerUp l && (s.layer l).again.isNone && (s.nextSeg l).isNone && (s.layer l).owes) fun s =>
    s.inFrame l fun s => s.emitUnit l 1 [] (s.layer l).next)

/-- Is a PTP message a Sync (type 0) or a Delay_Req (type 1) of the own domain (R336; log entry 118)? -/
def State.ptpMine (s : State) (msg : Bytes) : Bool :=
  decide (msg ≠ [] ∧ field msg 0 1 % 16 ≤ 1 ∧ field msg 4 1 = s.fld Reg.lnkPtpCfg Fld.lnkPtpCfgDomain)

/-- The two-step message with which the Bridge follows an event message: Follow_Up after a Sync sent, Delay_Resp after a Delay_Req that a
master port received (R336). -/
def State.ptpReply (s : State) (l : Nat) (sent : Bool) (msg : Bytes) (t : W64) : State :=
  let typ := field msg 0 1 % 16
  if sent = true ∧ typ = 0 then s.send (.ptpReply l 8 t msg)
  else if sent = false ∧ typ = 1 ∧ Config.ptpState s.free l = 0 then (s.send (.ptpReply l 9 t msg)).tick
  else if sent = false ∧ typ = 1 then s.tick
  else s

/-- PTP_EVENT_MESSAGE (R331, R336): a Sync or Delay_Req is stamped and goes to the Bridge controller with its time, which answers in
two-step mode; a root that takes its time from PTP follows a Sync received on its slave port by an offset that the servo finds. -/
def execPtpEventMessage (l : LinkId) (sent : Bool) (msg : Bytes) (s : State) : Res :=
  .next (s.when (s.ethPort (l / 4) && s.fld Reg.lnkPtpCfg Fld.lnkPtpCfgEn == 1 && s.ptpMine msg) fun s =>
    let r := if sent then Reg.lnkPtpTx l else Reg.lnkPtpRx l
    let follows := !sent && field msg 0 1 % 16 == 0 && s.fld Reg.lnkTimeCfg Fld.lnkTimeCfgEn == 1 &&
      s.fld Reg.lnkTimeCfg Fld.lnkTimeCfgRoot == 1 && s.fld Reg.lnkTimeCfg Fld.lnkTimeCfgSrc == 1
    let t := s.now
    let s := ((s.setReg (r 0) (t.setWidth 32)).setReg (r 1) ((t >>> 32).setWidth 32)).send (.ptp l sent t msg)
    (s.ptpReply l sent msg t).when follows fun s =>
      (if Config.ptpState s.free l = 1 then s.steer (Config.ptpOffset s.free) else s).tick)

end Sys2Proof.Machine
end

