-- ==== Sys2Proof/Machine/Pliand.lean ====
section
/-! DEFINITION. The Pliand host ports: doorbells, submission and completion rings, submission entries, the message ring,
interrupts, and the loss of a port (chapter 13 but its tenancy; log entries 43 to 47). -/
namespace Sys2Proof.Machine

/-- Ring k of a port. -/
def State.sqRing (s : State) (p k : Nat) : SqRing := (s.port p).rings.get {} k

/-- Replaces it. -/
def State.setSqRing (s : State) (p k : Nat) (x : SqRing) : State :=
  s.setPort p { s.port p with rings := (s.port p).rings.put {} k x }

/-- Is port p UP? -/
def State.portUp (s : State) (p : Nat) : Bool := s.portState p == 2

/-- Is SQk with CQk enabled? -/
def State.sqOn (s : State) (p k : Nat) : Bool := s.fld (Reg.plhSqCtrl p k) Fld.plhSqCtrlEn == 1

/-- Does an entry of port p and ring k own an item? -/
def entryOf (p k : Nat) (i : Item) : Bool := match i.owner with | .entry q r _ _ _ => q == p && r == k | _ => false

/-- Entries of ring k that are started and not retired, completions that wait for a slot included (R402, R411). -/
def State.inflight (s : State) (p k : Nat) : Nat :=
  (s.items.live.filter (entryOf p k)).length + (s.sqRing p k).cqWait.length

/-! ## Completions (R411, R415) -/

/-- Is there a free slot in CQk? -/
def State.cqFree (s : State) (p k : Nat) : Bool :=
  let z := s.fld (Reg.plhCqSize p k) Fld.plhCqSizeEntries
  let w := s.fld (Reg.plhCqState p k) Fld.plhCqStateTail
  let r := s.fld (Reg.plhCqState p k) Fld.plhCqStateHead
  z != 0 && (w + z - r) % z != z - 1

/-- Writes the oldest completion that waits at index P of CQk, with the phase; P advances (R411). -/
def State.cqWrite (s : State) (p k : Nat) (b : Bytes) (irq : Bool) : State :=
  let w := s.fld (Reg.plhCqState p k) Fld.plhCqStateTail
  let z := s.fld (Reg.plhCqSize p k) Fld.plhCqSizeEntries
  let ph := s.fld (Reg.plhSqAux p k) Fld.plhSqAuxCqphase
  let s := s.store (hostBase p + s.reg64 (Reg.plhCqBase p k 0) % 2 ^ 44 + 32 * w) (putField b 5 1 (ph + 2 * k))
  let s := s.setFld (Reg.plhCqState p k) Fld.plhCqStateTail ((w + 1) % z)
  let s := if w + 1 = z then s.setFld (Reg.plhSqAux p k) Fld.plhSqAuxCqphase (1 - ph) else s
  if irq ∧ bit (s.fld (Reg.plhIrq p) Fld.plhIrqEn) k then s.sendIrq p k else s.irqWrite p k

/-- Writes the completions that wait and find a free slot. -/
def State.cqFlushGo (p k : Nat) : List (Bytes × Bool) → State → State
  | [], s => s.setSqRing p k { s.sqRing p k with cqWait := [] }
  | (b, i) :: r, s =>
    if s.sqOn p k && s.portUp p && s.cqFree p k then State.cqFlushGo p k r (s.cqWrite p k b i)
    else s.setSqRing p k { s.sqRing p k with cqWait := (b, i) :: r }

/-- Writes the completions of ring k that wait and find a free slot. -/
def State.cqFlush (s : State) (p k : Nat) : State := State.cqFlushGo p k (s.sqRing p k).cqWait s

/-- The bytes of a completion entry, with PHASE zero (Table 13-7). -/
def cqBytes (ix tag : Nat) (c : Completion) (t : W64) (info : Nat) : Bytes :=
  leBytes 2 ix ++ leBytes 2 tag ++ leBytes 1 (statusCode c.status) ++ leBytes 1 0 ++ leBytes 2 c.detail ++ leBytes 5 c.count ++
    leBytes 3 0 ++ leBytes 8 t.toNat ++ leBytes 4 info ++ leBytes 4 0

/-- An entry starts: it is an item of the port (R402). -/
def State.startEntry13 (s : State) (p k ix tag : Nat) (irq : Bool) (unit : Nat) (c : Option Completion) : State :=
  s.accept { id := 0, unit := unit, index := p, chan := k, ordered := false, owner := .entry p k ix tag irq, parts := 1, comp := c }

/-- Entries at the start of ring k whose fetch met a host error complete DATA_ERROR as their turn comes (R400, R402). -/
def State.skipErrorsGo (p k : Nat) : List (Nat × Bytes) → State → State
  | [], s => s.setSqRing p k { s.sqRing p k with fetched := [] }
  | (ix, b) :: r, s =>
    if b = [] ∧ s.inflight p k < 64 then
      let a := hostBase p + s.reg64 (Reg.plhSqBase p k 0) % 2 ^ 44 + 64 * ix
      State.skipErrorsGo p k r (s.startEntry13 p k ix 0 false 0x0010 (some (dataError a 0)))
    else s.setSqRing p k { s.sqRing p k with fetched := (ix, b) :: r }

/-- Starts the entries of ring k that a host error has ended. -/
def State.skipErrors (s : State) (p k : Nat) : State := State.skipErrorsGo p k (s.sqRing p k).fetched s

/-- An entry has retired with timestamp t: its completion is written, or waits for a free slot (R27, R411). -/
def State.entryRetired (s : State) (p k ix tag : Nat) (irq : Bool) (c : Completion) (t : W64) (info : Nat) : State :=
  let s := s.bump (Reg.plhEntries p)
  let x := s.sqRing p k
  let bad := c.status != .done && c.status != .empty
  let s := s.setSqRing p k { x with failed := x.failed || bad, cqWait := x.cqWait ++ [(cqBytes ix tag c t info, irq)] }
  (s.cqFlush p k).skipErrors p k

/-! ## Doorbells (R395 to R401) -/

/-- Fetches n entries of SQk from index HEAD on: reads of 16 entries at most, none across the end of the ring (R400). -/
def State.fetchGo (p k : Nat) : Nat → Nat → State → State
  | 0, _, s => s
  | m + 1, n, s =>
    if n = 0 then s
    else
      let z := s.fld (Reg.plhSqSize p k) Fld.plhSqSizeEntries
      let h := s.fld (Reg.plhSqState p k) Fld.plhSqStateHead
      let c := min n (min 16 (z - h))
      let a := hostBase p + s.reg64 (Reg.plhSqBase p k 0) % 2 ^ 44 + 64 * h
      let s := State.askHost p (some k) h 1 a (64 * c) s
      State.fetchGo p k m (n - c) (s.setFld (Reg.plhSqState p k) Fld.plhSqStateHead ((h + c) % z))

/-- A tail word of SQk (R399). -/
def State.tailWord (s : State) (p k v : Nat) : State :=
  if s.sqOn p k = false then s.violate p 3
  else
    let z := s.fld (Reg.plhSqSize p k) Fld.plhSqSizeEntries
    let s := if z ≤ v then (s.bump (Reg.plhClamp p)).hostViol p 1 else s
    let t := min v (z - 1)
    let n := (t + z - s.fld (Reg.plhSqState p k) Fld.plhSqStateTail) % z
    State.fetchGo p k (n / 16 + 3) n (s.setFld (Reg.plhSqState p k) Fld.plhSqStateTail t)

/-- Does a head word move Q (R401)? -/
def headOk (v z p q : Nat) : Bool := decide (v < z ∧ (v + z - q) % z ≤ (p + z - q) % z)

/-- A head word of CQk (R401). -/
def State.cqHeadWord (s : State) (p k v : Nat) : State :=
  if s.sqOn p k = false then s.violate p 3
  else if headOk v (s.fld (Reg.plhCqSize p k) Fld.plhCqSizeEntries) (s.fld (Reg.plhCqState p k) Fld.plhCqStateTail)
      (s.fld (Reg.plhCqState p k) Fld.plhCqStateHead) then
    ((s.setFld (Reg.plhCqState p k) Fld.plhCqStateHead v).cqFlush p k).skipErrors p k
  else s.violate p 2

/-- The head word of the message ring (R401). -/
def State.mqHeadWord (s : State) (p v : Nat) : State :=
  if s.mqOn p = false then s.violate p 3
  else if headOk v (s.mqUnits p) (s.fld (Reg.plhMqState p) Fld.plhMqStateTail) (s.fld (Reg.plhMqHead p) Fld.plhMqHeadHead) then
    s.setFld (Reg.plhMqHead p) Fld.plhMqHeadHead v
  else s.violate p 2

/-- A DOORBELL (R395, R396, R399, R401, R421). -/
def State.doorbell (s : State) (p word : Nat) (value : W32) : State :=
  let v := value.toNat % 2 ^ 18
  if word < 4 then s.tailWord p word v
  else if word < 8 then s.cqHeadWord p (word - 4) v
  else if word = 8 then s.mqHeadWord p v
  else s.violate p 3

/-- DOORBELL_RECEIVE (R399). -/
def execDoorbellReceive (p : HostPortId) (word : Fin 16) (value : W32) (s : State) : Res :=
  .next (s.when (s.portUp p) fun s => s.doorbell p word value)

/-- DOORBELL_POLL (R396): the adapter forwards the words that differ from those that it last forwarded. -/
def execDoorbellPoll (p : HostPortId) (s : State) : Res :=
  let a := hostBase p + s.reg64 (Reg.plhDbAddr p 0) % 2 ^ 44 / 64 * 64
  .next (s.when (s.portUp p) fun s =>
    s.each (upFrom 0 9) fun s w =>
      let v := leNat (s.bytes (a + 4 * w) 4)
      s.when ((s.port p).words.get 0 w != v + 1) fun s =>
        (s.setPort p { s.port p with words := (s.port p).words.put 0 w (v + 1) }).doorbell p w (BitVec.ofNat 32 v))

/-- The port sends POLL_CFG; the adapter will send all nine words (R396). -/
def State.pollCfg (s : State) (p : Nat) : State :=
  let a := s.reg64 (Reg.plhDbAddr p 0) % 2 ^ 44 / 64 * 64
  let n := min 32 (max 1 (s.fld (Reg.plhDbCfg p) Fld.plhDbCfgPeriod))
  ((s.setPort p { s.port p with words := [] }).send (.pollCfg p a n)).portMsg p 0 9 (leBytes 6 a ++ leBytes 1 n)

/-- POLL_CFG_SEND (R396). -/
def execPollCfgSend (p : HostPortId) (s : State) : Res := .next (s.when (s.portUp p) fun s => s.pollCfg p)

/-! ## READ_DATA (R392, R394, R400, R410, R421) -/

/-- AMSG entries whose payload has arrived send their message (R410). -/
def State.sendAmsgs (s : State) (p : Nat) : State :=
  let go := (s.port p).amsgs.filter fun w => !s.hostBusy w.addr w.len
  let s := if go = [] then s else s.setPort p { s.port p with amsgs := (s.port p).amsgs.filter fun w => s.hostBusy w.addr w.len }
  s.each go fun s w =>
    match s.badByte w.addr w.len with
    | some a => (s.chargeUe a).finish w.item (dataError a 0)
    | none => s.amSend w.item 0 { w.msg with payload := s.bytes w.addr w.len }

/-- The entries of a fetch. -/
def entriesOf (first : Nat) (b : Bytes) : List (Nat × Bytes) :=
  ((upFrom 0 (b.length / 64)).zip (cutEvery 64 (b.length / 64) b)).map fun e => (first + e.1, e.2)

/-- The entries of the read with a tag of ring k have come: they follow those of every read before it (R400, R402). -/
def State.fetchedOf (s : State) (p k tag : Nat) (es : List (Nat × Bytes)) : State :=
  let x := s.sqRing p k
  let early := x.early.filter (fun e => decide (e.1 < tag)) ++ (tag, es) :: x.early.filter fun e => decide (tag < e.1)
  let first : Nat × List (Nat × Bytes) → Bool := fun e => (s.port p).reads.all fun r => r.ring != some k || decide (e.1 < r.tag)
  s.setSqRing p k { x with fetched := x.fetched ++ (early.filter first).flatMap Prod.snd, early := early.filter fun e => !first e }

/-- READ_DATA_RECEIVE (R400, R421): entries are fetched, or data stand in the host's memory as the device sees it. Bytes that the
answer leaves out are free values. -/
def execReadDataReceive (p : HostPortId) (tag : Nat) (hostError : Bool) (data : Bytes) (s : State) : Res :=
  .next (s.when (s.portUp p) fun s =>
    match (s.port p).reads.find? fun r => r.tag == tag && decide (data.length ≤ r.n) with
    | none => s.violate p 7
    | some r =>
      let s := s.setPort p { s.port p with reads := (s.port p).reads.filter fun x => x.tag != tag }
      let s := if data.length < r.n ∧ !hostError then s.tick else s
      let b := data ++ (upFrom data.length (r.n - data.length)).map fun i => Config.freeByte s.free i
      match r.ring with
      | some k =>
        let es := if hostError then (upFrom r.first (r.n / 64)).map fun i => (i, []) else entriesOf r.first b
        let s := if hostError then s.hostViol p 5 else s
        (s.fetchedOf p k tag es).skipErrors p k
      | none =>
        let s := if hostError then (s.markUe r.addr).hostViol p 6 else s.storeMem r.addr b
        (s.each (upFrom 0 4) fun s q => s.sendAmsgs q).pumpMors)

/-! ## Submission entries (R402 to R410) -/

/-- The fields of an entry that every operation shares: reserved bits of Table 13-5. -/
def entryFault (b : Bytes) : List (Bool × Nat) := [(field b 1 1 / 4 != 0, 10), (field b 4 4 != 0, 32)]

/-- The entry at the start of ring k, where it may start: the port is UP, fewer than 64 entries are started, and a FENCE finds
every earlier entry complete (R402). -/
def State.frontEntry (s : State) (p k : Nat) : Option (Nat × Bytes) :=
  match (s.sqRing p k).fetched with
  | [] => none
  | (ix, b) :: _ =>
    let fence := bit (field b 1 1) 0
    let busy := s.items.live.any fun i => entryOf p k i && i.comp.isNone
    if s.portUp p && s.sqOn p k && decide (s.inflight p k < 64) && !(fence && busy) then some (ix, b) else none

/-- Has an earlier entry completed other than DONE or EMPTY (R402)? -/
def State.fenceBad (s : State) (p k : Nat) : Bool :=
  (s.sqRing p k).failed || s.items.live.any fun i =>
    entryOf p k i && (match i.comp with | some c => c.status != .done && c.status != .empty | none => false)

/-- Starts the entry at the start of ring k, whose OP p picks (R402, R403): a fenced one may be ABORTED; bad names a failing
field; f gives the effect, with the item's number. -/
def State.sqStart (s : State) (p k : Nat) (op : Nat → Bool) (bad : Bytes → Option Nat) (unit : Nat)
    (f : State → Nat → Bytes → State) : State :=
  match s.frontEntry p k with
  | none => s
  | some (ix, b) =>
    s.when (op (field b 0 1)) fun s =>
      let tag := field b 2 2
      let irq := bit (field b 1 1) 1
      let abort := bit (field b 1 1) 0 && s.fenceBad p k
      let id := s.nextId
      let s := s.setSqRing p k { s.sqRing p k with fetched := (s.sqRing p k).fetched.drop 1 }
      let s :=
        if abort then s.startEntry13 p k ix tag irq 0x0010 (some { status := .aborted, detail := 1 })
        else match bad b with
          | some d => s.startEntry13 p k ix tag irq 0x0010 (some (malformed d))
          | none => f (s.startEntry13 p k ix tag irq unit none) id b
      s.skipErrors p k

/-- SQ_NOP (R403): a NOP, or an entry with a reserved OP. -/
def execSqNop (p k : HostPortId) (s : State) : Res :=
  let bad : Bytes → Option Nat := fun b =>
    if 5 < field b 0 1 then some 0 else lowest (entryFault b ++ [(leNat (b.drop 8) != 0, 64)])
  .next (s.sqStart p k (fun o => o == 0 || decide (5 < o)) bad 0x0010 fun s id _ => s.finish id {})

/-- The channel of the hub engine of port p with the fewest descriptors: COPY entries have no mutual order (R404; log entry
44). -/
def State.hubChan (s : State) (p : Nat) : Nat :=
  (upFrom 0 8).foldl (fun m c => if (s.chan (512 + p) c).queue.length < (s.chan (512 + p) m).queue.length then c else m) 0

/-- SQ_COPY (R404). -/
def execSqCopy (p k : HostPortId) (s : State) : Res :=
  let bad : Bytes → Option Nat := fun b =>
    let d := (b.drop 8).take 32
    lowest (entryFault b ++ [(leNat (b.drop 40) != 0, 320), ((parseDesc d).after, 116), ((parseDesc d).ch != 0, 120)] ++
      (match descFault d with | some o => [(true, o + 64)] | none => []))
  .next (s.sqStart p k (· == 1) bad 0x0012 fun s id b =>
    let e := 512 + p.val
    let ch := s.hubChan p
    let d : CopyDesc := { item := id, desc := (b.drop 8).take 32, job := some (s.portJob p) }
    s.setChan e ch { s.chan e ch with queue := (s.chan e ch).queue ++ [d] })

/-- The FEED whose wait for credit ends next, of those that wait: the first of each ring, that of the lowest port, then of the lowest ring
(R406). -/
def nextFeed (l : List Feed) : Option Feed :=
  l.foldl (fun m f => if f.started || f.ready then m else match m with
    | some g => if f.order < g.order then some f else m
    | none => some f) none

/-- The waits for credit of n FEEDs end: they follow those whose wait has ended before. -/
def endWaits : Nat → List Feed → List Feed
  | 0, l => l
  | n + 1, l =>
    match nextFeed l with
    | none => l
    | some f => endWaits n (l.filter (fun y => y.started || y.ready) ++ { f with ready := true } ::
        l.filter fun y => !(y.started || y.ready) && y.item != f.item)

/-- The FEEDs of a queue for which there is room no longer wait for credit, in the order of R406; a context that is not RUNNING has none
(R405). -/
def State.settleFeeds (s : State) (c q : Nat) : State :=
  s.when (s.ctxRuns c) fun s =>
    let x := s.queue c q
    let taken := (x.feeds.filter fun f => f.started || f.ready).length
    s.setQueue c q { x with feeds := endWaits (s.qCap c q - (x.held + taken)) x.feeds }

/-- SQ_FEED (R405). -/
def execSqFeed (p k : HostPortId) (s : State) : Res :=
  let bad : Bytes → Option Nat := fun b =>
    let c := field b 8 1
    let q := field b 9 1
    let fl := field b 10 1
    lowest (entryFault b ++ [(s.partJob (c / 4) != s.portJob p, 64), (!(q == 0 || q == 2) || s.qKind c q != 3, 72),
      (if q = 2 then fl != 0 else fl &&& 0xF6 != 0, 80), (decide (5 < field b 11 1), 88),
      (decide (s.qBytes c q < field b 12 4), 96), (field b 26 6 != 0, 208), (leNat (b.drop 38) != 0, 304)])
  .next (s.sqStart p k (· == 2) bad 0x0010 fun s id b =>
    let c := field b 8 1
    let q := field b 9 1
    let len := field b 12 4
    let src := field b 32 6
    if len = 0 then s.finish id { status := .empty }
    else if s.ctxDead c then s.finish id { status := .queueDead }
    else match s.rangeFault (some (s.portJob p)) src len with
      | some a => s.finish id (addressFault a)
      | none =>
        let t : Tag := if q = 2 then { step := BitVec.ofNat 32 (field b 20 4), ver := BitVec.ofNat 16 (field b 24 2) } else {}
        let f : Feed := { addr := src, len, mb := BitVec.ofNat 32 (field b 16 4), flags := field b 10 1, fmt := field b 11 1
                          tag := t, item := id, order := 4 * p.val + k.val }
        let s := s.settleFeeds c q
        (s.setQueue c q { s.queue c q with feeds := (s.queue c q).feeds ++ [f] }).settleFeeds c q)

/-- FEED_ADMIT (R405, R406): the FEED whose wait ended first gets its SEQ, the number of those admitted before it, and its data are read;
a host window that it reads must be there (R416). -/
def execFeedAdmit (c : CtxId) (q : QueueId) (s : State) : Res :=
  let s := s.settleFeeds c q
  let x := s.queue c q
  .next (match x.feeds.find? fun f => f.ready && !f.started with
    | none => s
    | some f =>
      let rest := x.feeds.filter fun y => y.item != f.item
      if s.hostGone f.addr then (s.setQueue c q { x with feeds := rest }).finish f.item (addressFault f.addr)
      else s.when (!s.hostHeld f.addr) fun s =>
        let f' := { f with started := true, seq := x.fed.toNat, time := s.now }
        (s.setQueue c q { x with feeds := rest.filter Feed.started ++ f' :: rest.filter (fun y => !y.started), fed := x.fed + 1 }).hostRead
          f.addr f.len)

/-- SQ_POST (R407). -/
def execSqPost (p k : HostPortId) (s : State) : Res :=
  let bad : Bytes → Option Nat := fun b =>
    let c := field b 8 1
    let q := field b 9 1
    lowest (entryFault b ++ [(s.partJob (c / 4) != s.portJob p, 64), (!(q == 1 || q == 3) || s.qKind c q != 3, 72),
      (field b 10 6 != 0, 80), (decide (field b 16 4 < 64 + s.qBytes c q), 128), (field b 20 12 != 0, 160),
      (leNat (b.drop 38) != 0, 304)])
  .next (s.sqStart p k (· == 3) bad 0x0010 fun s id b =>
    let c := field b 8 1
    let q := field b 9 1
    let dst := field b 32 6
    let cap := field b 16 4
    if s.ctxDead c then s.finish id { status := .queueDead }
    else match (if (hostPortOf dst).isNone then some dst else s.rangeFault (some (s.portJob p)) dst cap) with
      | some a => s.finish id (addressFault a)
      | none =>
        let x := s.queue c q
        s.setQueue c q { x with posts := x.posts ++ [⟨dst, cap, id⟩], arrived := x.arrived + 1 })

/-- The unfilled buffers of an outbound HOST queue that SENDs hold (R407). -/
def Queue.buffers (x : Queue) : Nat := (x.flights.filter fun f => f.buf.isSome && f.result.isNone).length

/-- The POSTs that are accepted: those beyond 64 unfilled buffers wait (R407, R408). -/
def Queue.postsAccepted (x : Queue) : W32 := x.arrived - BitVec.ofNat 32 (x.posts.length + x.buffers - 64)

/-- SQ_TAB (R409): one that R97 or R111 would ignore has no effect but the event. -/
def execSqTab (p k : HostPortId) (s : State) : Res :=
  let bad : Bytes → Option Nat := fun b =>
    let n := field b 8 1
    lowest (entryFault b ++ [(decide (64 ≤ n) || s.partJob n != s.portJob p, 64), (decide (2 < field b 9 1), 72),
      (field b 10 2 / 2 ^ 10 != 0, 90), (field b 12 1 / 2 != 0, 97), (field b 13 3 != 0, 104), (leNat (b.drop 20) != 0, 160)])
  .next (s.sqStart p k (· == 4) bad 0x0010 fun s id b =>
    let n := field b 8 1
    let cmd := field b 9 1
    let step := field b 16 4
    let set := bit (field b 12 1) 0
    let done := fun (s : State) => (s.setInfo id (s.reg (Reg.stgTabStatus n)).toNat).finish id {}
    let no := fun (off v : Nat) => (s.writeIgnored (some (s.partJob n)) 0x0032 n off v).finish id (malformed 72)
    if set ∧ s.tab n = 1 then no (Reg.stgTabStep n) step
    else
      let t := if set then (s.setReg (Reg.stgTabStep n) (BitVec.ofNat 32 step)).dropMarks n else s
      match cmd with
      | 0 =>
        let v := 1 + field b 10 2 * 16
        let t := (t.setFld (Reg.stgTabCtrl n) Fld.stgTabCtrlEntry (field b 10 2)).setStale 4
        if t.startBad n then no (Reg.stgTabCtrl n) v else done (t.tabStart n v)
      | 1 =>
        let v := 2 + s.fld (Reg.stgTabCtrl n) Fld.stgTabCtrlEntry * 16
        if s.tab n ≠ 2 then no (Reg.stgTabCtrl n) v else done (t.tabResume n v)
      | _ =>
        if s.tab n ≠ 1 then done t
        else (t.setPort p { t.port p with tabs := (t.port p).tabs ++ [⟨id, n⟩] }).tabStop n)

/-- SQ_AMSG (R410). -/
def execSqAmsg (p k : HostPortId) (s : State) : Res :=
  let bad : Bytes → Option Nat := fun b =>
    lowest (entryFault b ++ [(decide (511 < field b 8 2), 64), (field b 10 2 / 2 ^ 10 != 0, 90), (decide (16384 < field b 12 2), 96),
      (field b 14 2 != 0, 112), (field b 22 2 != 0, 176), (leNat (b.drop 30) != 0, 240)])
  let held := match s.frontEntry p k with
    | some (_, b) => !(bit (field b 1 1) 0 && s.fenceBad p k) && (bad b).isNone && field b 12 2 != 0
        && (s.rangeFault (some (s.portJob p)) (field b 16 6) (field b 12 2)).isNone && s.hostHeld (field b 16 6)
    | none => false
  .next (s.when (!held) fun s => s.sqStart p k (· == 5) bad 0x0010 fun s id b =>
    let len := field b 12 2
    let pay := field b 16 6
    match s.rangeFault (some (s.portJob p)) pay len with
    | some a => s.finish id (addressFault a)
    | none =>
      let m : AmMsg := { dest := s.ownAddr, dcl := field b 8 2, handler := field b 10 2, job := ⟨s.portJob p % 4, by omega⟩, scl := 0
                         src := s.ownAddr, mb := 0xFFFFFFFF, step := 0, ver := 0, arg := BitVec.ofNat 48 (field b 24 6), payload := [] }
      ((s.hostRead pay len).setPort p { (s.hostRead pay len).port p with
        amsgs := ((s.hostRead pay len).port p).amsgs ++ [⟨id, m, pay, len⟩] }).sendAmsgs p)

/-! ## The message ring (R408, R412 to R415) -/

/-- A record of units that is written at unit u of the ring of port p with phase ph: its first unit last (R413). -/
def State.mqPut (s : State) (p u ph : Nat) (b : Bytes) : State :=
  let a := hostBase p + s.reg64 (Reg.plhMqBase p 0) % 2 ^ 44 + 64 * u
  let s := if b.length ≤ 64 then s else s.store (a + 64) (b.drop 64)
  s.store a (putField (b.take 64) 1 1 ph)

/-- The tail of the message ring moves to unit u; the phase inverts where it passes the end. -/
def State.mqAdvance (s : State) (p u : Nat) : State :=
  let z := s.mqUnits p
  let ph := s.fld (Reg.plhMqState p) Fld.plhMqStatePhase
  (s.setFld (Reg.plhMqState p) Fld.plhMqStateTail (u % z)).setFld (Reg.plhMqState p) Fld.plhMqStatePhase (if u = z then 1 - ph else ph)

/-- The flight of an inline SEND whose record r is, the oldest of its queue whose record has not been written, changes (R408). -/
def State.inlineFlight (s : State) (r : MqRec) (f : Nat → Nat → Flight → State → State) : State :=
  match r.slot with
  | none => s
  | some (cx, q) =>
    match (s.queue cx q).flights.find? fun f => f.result == none && f.buf == none && f.xid == none && f.wrote == none with
    | none => s
    | some y => f cx q y s

/-- MQ_RECORD_WRITE (R413): the oldest record, after a PAD where it would pass the end of the ring. -/
def execMqRecordWrite (p : HostPortId) (s : State) : Res :=
  .next (s.when (s.portUp p && s.mqOn p) fun s =>
    match (s.port p).recs with
    | [] => s
    | r :: rest =>
      let z := s.mqUnits p
      let t := s.fld (Reg.plhMqState p) Fld.plhMqStateTail
      let n := r.bytes.length / 64
      let free := (s.fld (Reg.plhMqHead p) Fld.plhMqHeadHead + z + z - t - 1) % z
      let pop := s.setPort p { s.port p with recs := rest }
      let ph := fun (s : State) => s.fld (Reg.plhMqState p) Fld.plhMqStatePhase
      let fin := fun (s : State) (u : Nat) => 
        (((s.mqPut p u (ph s) r.bytes).mqAdvance p (u + n)).inlineFlight r fun c q f s =>
          (s.tellSend p (c, q, f.item)).setFlight c q { f with wrote := some p }).irqWrite p 4
      if t + n ≤ z ∧ n ≤ free then fin pop t
      else if z < t + n ∧ z - t + n ≤ free then
        let pad := recHead 1 (z - t) s.now ++ List.replicate (64 * (z - t) - 16) 0
        fin ((pop.mqPut p t (ph s) pad).mqAdvance p z) 0
      else s)

/-- INTERRUPT_HOLDOFF_END (R415). -/
def execInterruptHoldoffEnd (p : HostPortId) (v : Fin 5) (s : State) : Res :=
  .next (s.when (s.portUp p && (s.port p).irqMore.contains v.val && bit (s.fld (Reg.plhIrq p) Fld.plhIrqEn) v) fun s => s.sendIrq p v)

/-! ## Loss of a port (R391, R416, R422) -/

/-- SENDs that write into buffers of port p's window or into its message ring end LINK_LOST, and so do the POSTs of their buffers (R407,
R416). -/
def State.losePosts (s : State) (p : Nat) : State :=
  s.each (s.queues.map Prod.fst) fun s key =>
    let (c, q) := (key / 4, key % 4)
    let lost : Completion := { status := .linkLost }
    let l := (s.queue c q).flights.filter fun f => f.result.isNone && match f.buf with
      | some b => hostPortOf b.addr == some p
      | none => f.wrote == some p
    let t := s.each l fun s f =>
      let s := match f.buf with | some b => s.endPost f b lost | none => s
      s.land c q f lost
    t.when (l != []) fun s => s.fillNext c q

/-- Takes entries out of what they wait in: FEEDs and POSTs of the queues, TAB and AMSG entries of port p (R416). -/
def State.dropEntries (s : State) (p : Nat) (ids : List Nat) : State :=
  let s := s.each ((s.queues.filter fun x => x.2.feeds != [] || x.2.posts != []).map Prod.fst) fun s key =>
    let x := s.queue (key / 4) (key % 4)
    let late := (x.posts.drop (64 - x.buffers)).filter fun b => ids.contains b.item
    s.setQueue (key / 4) (key % 4) { x with feeds := x.feeds.filter (fun f => !ids.contains f.item)
                                            posts := x.posts.filter (fun b => !ids.contains b.item)
                                            arrived := x.arrived - BitVec.ofNat 32 late.length }
  s.setPort p { s.port p with tabs := (s.port p).tabs.filter (fun w => !ids.contains w.item)
                              amsgs := (s.port p).amsgs.filter fun w => !ids.contains w.item }

/-- The reset of ring k of a port: entries not started are dropped, started ones complete ABORTED and retire, and no completion of
theirs is written (R416; log entry 45). -/
def State.resetRing (s : State) (p k : Nat) : State :=
  let ids := (s.items.live.filter (entryOf p k)).map Item.id
  let f : Item → Item := fun i =>
    if entryOf p k i then
      { i with owner := .device, comp := some (i.comp.getD { status := .aborted, detail := 3 }) } else i
  let s := s.each (upFrom 0 8) fun s ch =>
    let gone := (s.chan (512 + p) ch).queue.filter fun d => ids.contains d.item
    let s := s.each gone fun s d => s.finish d.item { status := .aborted, detail := 3, count := d.wrote }
    s.setChan (512 + p) ch { s.chan (512 + p) ch with queue := (s.chan (512 + p) ch).queue.filter fun d => !ids.contains d.item }
  let s := (((s.dropEntries p ids).withdraw ids).setItems { s.items with live := s.items.live.map f }).bumpBy (Reg.plhEntries p) ids.length
  let s := s.setPort p { s.port p with rings := (s.port p).rings.put {} k {}
                                       reads := (s.port p).reads.filter fun r => r.ring != some k }
  (((s.setFld (Reg.plhSqCtrl p k) Fld.plhSqCtrlEn 0).setReg (Reg.plhSqState p k) 0).setReg (Reg.plhCqState p k) 0).setReg
    (Reg.plhSqAux p k) 0

/-- The reset of the message ring of a port: records that wait are dropped, and their SENDs end LINK_LOST (R416; log entry 45). -/
def State.resetMq (s : State) (p : Nat) : State :=
  let l := (s.port p).recs
  let s := s.setPort p { s.port p with recs := [] }
  let s := s.each l fun s r => s.inlineFlight r fun c q f s => s.setFlight c q { f with result := some { status := .linkLost } }
  ((s.setFld (Reg.plhMqCtrl p) Fld.plhMqCtrlEn 0).setReg (Reg.plhMqState p) 0).setReg (Reg.plhMqHead p) 0

/-- Copy requests whose access to the window of port p waits or is in flight fail LINK_LOST; held says whether the port was in GRACE,
where reads of its window wait (R416). -/
def State.loseCopies (s : State) (p : Nat) (held : Bool) : State :=
  let lost : Completion := { status := .linkLost }
  let f : CopyReq → CopyReq := fun r =>
    if (r.st = .issued ∧ hostPortOf r.src = some p) ∨ (r.st = .returned ∧ hostPortOf r.dst = some p) ∨
        (r.st = .held ∧ held ∧ hostPortOf r.src = some p) then
      { r with st := .failed, fail := lost }
    else r
  s.each ((s.chans.filter fun x => x.2.queue != []).map Prod.fst) fun s key =>
    State.pump (key / 8) (key % 8) (s.mapReqs (key / 8) (key % 8) f)

/-- Is a read of n bytes at a of the window of port p in flight? -/
def State.readsAt (s : State) (p a n : Nat) : Bool := hostPortOf a == some p && s.hostBusy a n

/-- FEEDs and AMSG entries of other ports whose reads of the window of port p are in flight end LINK_LOST, and where the port was in
GRACE so does a FEED that waits for the window alone; a FEED has as its done count the bytes before the first read without an answer
(R28, R416). -/
def State.loseReads (s : State) (p : Nat) (held : Bool) : State :=
  let first : Nat → Nat → Nat := fun a n =>
    ((s.port p).reads.filter fun r => r.ring == none && overlaps a n r.addr r.n).foldl (fun m r => min m r.addr) (a + n)
  let s := s.each ((s.queues.filter fun x => x.2.feeds != []).map Prod.fst) fun s key =>
    let s := s.settleFeeds (key / 4) (key % 4)
    let x := s.queue (key / 4) (key % 4)
    let waits := fun f => held && x.feeds.find? (fun f => f.ready && !f.started) == some f && hostPortOf f.addr == some p
    let gone := x.feeds.filter fun f => if f.started then s.readsAt p f.addr f.len else waits f
    let s := s.each gone fun s f =>
      s.finish f.item { status := .linkLost, count := if f.started then first f.addr f.len - f.addr else 0 }
    s.when (gone != []) fun s => s.setQueue (key / 4) (key % 4) { x with feeds := x.feeds.filter fun f => !gone.contains f }
  s.each (upFrom 0 4) fun s q =>
    let gone := (s.port q).amsgs.filter fun w => s.readsAt p w.addr w.len
    let s := s.each gone fun s w => s.finish w.item { status := .linkLost }
    s.when (gone != []) fun s => s.setPort q { s.port q with amsgs := (s.port q).amsgs.filter fun w => !gone.contains w }

/-- A port enters DOWN with its rings reset (R416, R437). -/
def State.portDown (s : State) (p : Nat) : State :=
  let held := s.portState p == 3
  let s := s.setStale 4
  let s := (s.each (upFrom 0 4) fun s k => s.resetRing p k).losePosts p
  let s := (((s.resetMq p).loseCopies p held).loseReads p held).loseMor p held
  let s := s.setPort p { s.port p with reads := [], words := [], irqAt := [], irqMore := [] }
  ((s.setLayers (s.layers.put {} (32 + p) {})).setFld (Reg.plhStatus p) Fld.plhStatusState 0).pumpMors

/-- A port is UP: POLL_CFG goes out, and what waited goes on (R396, R416). -/
def State.portIsUp (s : State) (p : Nat) : State :=
  let s := (s.setFld (Reg.plhStatus p) Fld.plhStatusState 2).pollCfg p
  let s := s.each (upFrom 0 4) fun s k => s.cqFlush p k
  let s := s.each ((s.queues.filter fun x => x.2.flights != []).map Prod.fst) fun s key => s.fillNext (key / 4) (key % 4)
  let s := s.each ((s.chans.filter fun x => x.2.queue != []).map Prod.fst) fun s key => State.pump (key / 8) (key % 8) s
  s.pumpMors

/-- The session that a training gives port p: the one that comes with it, or the next number where that is not new (R391; log entry
125). -/
def State.portSession (s : State) (p : Nat) (session : BitVec 16) : BitVec 16 :=
  if session.toNat = s.fld (Reg.plhStatus p) Fld.plhStatusSession then session + 1 else session

/-- ADAPTER_STATUS_RECEIVE (R391): the training of a port ends; from GRACE a new session takes the port DOWN. -/
def execAdapterStatusReceive (p : HostPortId) (session : BitVec 16) (s : State) : Res :=
  let st := s.portState p
  .next (if st = 1 then
      let n := s.portSession p session
      ((s.freshLayer (32 + p) n).setFld (Reg.plhStatus p) Fld.plhStatusSession n.toNat).portIsUp p
    else if st = 3 then
      (if s.fld (Reg.plhStatus p) Fld.plhStatusSession = session.toNat then (s.replay (32 + p)).portIsUp p else s.portDown p)
    else s)

/-- PORT_LIGHT_DETECT (R391; log entry 123). -/
def execPortLightDetect (p : HostPortId) (s : State) : Res :=
  .next (s.when (s.portState p == 0 && s.fld (Reg.plhCfg p) Fld.plhCfgEn == 1) fun s =>
    s.setFld (Reg.plhStatus p) Fld.plhStatusState 1)

/-- PORT_GRACE_EXPIRED (R416). -/
def execPortGraceExpired (p : HostPortId) (s : State) : Res := .next (s.when (s.portState p == 3) fun s => s.portDown p)

/-- PLIAND_LANE_LOCK_LOST (R391). -/
def execPliandLaneLockLost (p : HostPortId) (s : State) : Res := .next (s.when (s.portUp p) fun s => s.portGrace p)

/-- EN of a port is written (R416). -/
def State.enablePort (s : State) (p : Nat) (en : Bool) : State :=
  let s := s.setFld (Reg.plhCfg p) Fld.plhCfgEn (b2n en)
  s.when (!en) fun s => s.portDown p

/-- The registers of port p but PLH_CFG (Table 13-13). -/
def portRegs (p : Nat) : List Nat :=
  [Reg.plhStatus p, Reg.plhDbCfg p, Reg.plhIrq p, Reg.plhMqSize p, Reg.plhMqCtrl p, Reg.plhMqState p, Reg.plhMqHead p,
    Reg.plhEntries p, Reg.plhViol p, Reg.plhClamp p, Reg.plhMqLost p, Reg.plhCqWait p] ++
  ([0, 1].flatMap fun h => [Reg.plhDbAddr p h, Reg.plhMqBase p h]) ++
  (upFrom 0 4).flatMap fun k => [Reg.plhSqSize p k, Reg.plhSqCtrl p k, Reg.plhSqState p k, Reg.plhSqAux p k, Reg.plhCqSize p k,
    Reg.plhCqState p k, Reg.plhSqBase p k 0, Reg.plhSqBase p k 1, Reg.plhCqBase p k 0, Reg.plhCqBase p k 1]

/-- A host-port reset (R416, R422). -/
def State.resetPort (s : State) (p : Nat) : State := (s.portDown p).each (portRegs p) fun s r => s.resetReg r

/-- A host-port reset as a reset of Table 15-9 (R470). -/
def State.hostReset (s : State) (p : Nat) : State := (s.resetPort p).resetEvent 6 p

/-- HOST_PORT_RESET (R416). -/
def execHostPortReset (p : HostPortId) (s : State) : Res := .next (s.hostReset p)

/-- The CFG_ERR code of a ring (Table 13-13): its bases, its sizes with their limits, and the port's EN. -/
def State.ringErr (s : State) (p : Nat) (bases : List Nat) (sizes : List (Nat × Nat × Nat)) : Nat :=
  if bases.any (fun b => b % 2 ^ 44 % 4096 != 0) then 1
  else if sizes.any (fun z => decide (z.1 < z.2.1 ∨ z.2.2 < z.1)) then 2
  else if s.fld (Reg.plhCfg p) Fld.plhCfgEn = 0 then 3
  else 0

/-- EN of SQk is written (R398; log entry 45). -/
def State.enableSq (s : State) (p k : Nat) (en : Bool) : State :=
  if !en then s.when (s.sqOn p k) fun s => s.resetRing p k
  else if s.sqOn p k then s
  else
    let e := s.ringErr p [s.reg64 (Reg.plhSqBase p k 0), s.reg64 (Reg.plhCqBase p k 0)]
      [(s.fld (Reg.plhSqSize p k) Fld.plhSqSizeEntries, 2, 65536), (s.fld (Reg.plhCqSize p k) Fld.plhCqSizeEntries, 2, 65536)]
    let s := s.setFld (Reg.plhStatus p) Fld.plhStatusCfgErr e
    s.when (e == 0) fun s =>
      (((s.setReg (Reg.plhSqState p k) 0).setReg (Reg.plhCqState p k) 0).setFld (Reg.plhSqAux p k) Fld.plhSqAuxCqphase 1).setFld
        (Reg.plhSqCtrl p k) Fld.plhSqCtrlEn 1

/-- PLH_SQ_ENABLE (R398, R437). -/
def execPlhSqEnable (p k : HostPortId) (en : Bool) (s : State) : Res := .next ((s.enableSq p k en).setStale 4)

/-- EN of the message ring is written (R398; log entry 45). -/
def State.enableMq (s : State) (p : Nat) (en : Bool) : State :=
  if !en then s.when (s.mqOn p) fun s => s.resetMq p
  else if s.mqOn p then s
  else
    let e := s.ringErr p [s.reg64 (Reg.plhMqBase p 0)] [(s.fld (Reg.plhMqSize p) Fld.plhMqSizePages, 1, 4096)]
    let s := s.setFld (Reg.plhStatus p) Fld.plhStatusCfgErr e
    s.when (e == 0) fun s =>
      (((s.setReg (Reg.plhMqState p) 0).setReg (Reg.plhMqHead p) 0).setFld (Reg.plhMqState p) Fld.plhMqStatePhase 1).setFld
        (Reg.plhMqCtrl p) Fld.plhMqCtrlEn 1

/-- PLH_MQ_ENABLE (R398, R437). -/
def execPlhMqEnable (p : HostPortId) (en : Bool) (s : State) : Res := .next ((s.enableMq p en).setStale 4)

end Sys2Proof.Machine
end

