-- ==== Sys2Proof/Machine/Items.lean ====
section
/-! DEFINITION. Retirement of items: completions in order, and the threads and rings that wait for them (R18, R27, R79 to R83,
R208, R273, R411). -/
namespace Sys2Proof.Machine

/-- May item it retire: its effects are complete, and where its unit reports in issue order no earlier item of its stream is left
(R18)? -/
def State.mayRetire (s : State) (it : Item) : Bool :=
  it.comp.isSome && !(it.ordered && s.items.live.any fun i =>
    i.unit == it.unit && i.index == it.index && i.chan == it.chan && decide (i.id < it.id))

/-- A thread goes on where what it waits for is over (R79, R81, R83, R208, R273). -/
def State.thaw (s : State) (k : Nat) : State :=
  match (s.thread k).wait with
  | .groups mask => s.when (!s.items.live.any (inGroups k mask)) fun s => s.wake k
  | .item id => s.when ((s.item id).isNone) fun s => s.wake k
  | .ending => s.tryEnd k
  | .commit _ _ => s.tryCommit k
  | _ => s

/-- The threads that wait for room in a channel of copy engine e (R208). -/
def State.thawCopies (s : State) (e : Nat) : State :=
  s.when (decide (e < 512)) fun s => s.each (upFrom (4 * e) 4) fun s k => s.resumeCopy k

/-- Reports the completion of an item, and tells its owner (R18, R27). -/
def State.retire (s : State) (it : Item) (c : Completion) : State :=
  let t := s.stampOf it
  let s := (s.digestLog it.id t).report it c
  let s := s.setItems { s.items with results := s.items.results.filter fun r => r.item != it.id }
  let s := s.when (it.unit == 0x0201) fun s =>
    State.pumpMor it.index (s.stack it.index).cmds.length (s.maxReg (Reg.morEngLatMax it.index) (s.now.toNat - it.time.toNat))
  let s := s.when (it.unit == 0x0102) fun s => s.thawCopies it.index
  match it.owner with
  | .thread k _ => s.thaw k
  | .entry p k ix tag irq => s.entryRetired p k ix tag irq c t it.info
  | .mirror j => s.mirrorCopied j it.id c
  | .device => s

/-- ITEM_RETIRE (R18). -/
def execItemRetire (id : Nat) (s : State) : Res :=
  .next (match s.item id with
    | none => s
    | some it =>
      match it.comp with
      | none => s
      | some c => s.when (s.mayRetire it) fun s => s.retire it c)

end Sys2Proof.Machine
end

