-- ==== Sys2Proof/Machine/Resets.lean ====
section
/-! DEFINITION. What a reset or an isolation does to clusters, partitions, stacks and memory (R33, R43, R163, R165, R193, R215,
R232, R264, R292, R362, R368, Table 15-11; log entries 49 and 50). -/
namespace Sys2Proof.Machine

/-- Every register with an offset that f picks returns to its reset value. -/
def State.resetRegs (s : State) (f : Nat → Bool) : State :=
  let keep : Nat × W32 → Bool := fun e => !f e.1
  s.setRegs { cur := s.regs.cur.filter keep, app := s.regs.app.filter keep }

/-- Memory of n bytes at a cleared to zero, without errors. -/
def State.zeroMem (s : State) (a n : Nat) : State :=
  let m := s.mem
  (s.setMem { cells := m.cells.filter fun c => !(decide (a ≤ c.1 ∧ c.1 < a + n)), undef := punch m.undef a n
              ue := m.ue.filter fun x => !(decide (a ≤ x ∧ x < a + n))
              ce := m.ce.filter fun x => !(decide (a ≤ x ∧ x < a + n)) })

/-- The Firn of cluster g is cleared to zero. -/
def State.zeroSlice (s : State) (g : Nat) : State := s.zeroMem (firnAddr g 0) sliceSize

/-- The content of stack st is undefined (Table 12-6): its pieces of every window, as the windows stand. -/
def State.smearStack (s : State) (st : Nat) : State :=
  let range : Nat → Undef := fun w =>
    if s.winLocal w then { first := w * 2 ^ 37 + st * 2 ^ 34, len := 2 ^ 34, seed := s.free }
    else { first := w * 2 ^ 37, len := 2 ^ 37, seed := s.free, lane := some st }
  let m := (upFrom 0 8).foldl (fun (m : Memory) w => m.unset (range w)) s.mem
  let keep : Nat → Bool := fun a => !(decide (a < firnBase) && (s.hbmMap a).1 == st)
  (s.setMem { m with ue := m.ue.filter keep, ce := m.ce.filter keep }).tick

/-- The retirement table of a stack as it was saved (R229). -/
def State.loadRet (s : State) (st : Nat) (l : List (Nat × Nat × Nat)) : State :=
  let mine := l.filter fun e => e.1 == st
  let t := ((upFrom 0 512).zip mine).foldl (fun (t : Tbl RetEntry) e => t.put {} e.1 ⟨e.2.2.1, e.2.2.2⟩) []
  s.setStack st { s.stack st with ret := t, retDirty := false }

/-! ## Refusals (R458) -/

/-- A refused or aborted entry into PSn, with the refuser and the job that it concerns (R440, R458). -/
def State.refuse (s : State) (n unit index : Nat) (aborted logged : Bool) (who : Nat) (job : Option Nat := none) : State :=
  let s := s.bump (Reg.pwrRefused (n - 1))
  let next := s.fld Reg.pwrRefpos Fld.pwrRefposNext
  let s := s.setReg (Reg.pwrReflog next) (BitVec.ofNat 32 (unit + index % 4096 * 2 ^ 16 + n * 2 ^ 28 + b2n aborted * 2 ^ 31))
  let s := (s.setFld Reg.pwrRefpos Fld.pwrRefposNext (next + 1)).setFld Reg.pwrRefpos Fld.pwrRefposTotal
    (s.fld Reg.pwrRefpos Fld.pwrRefposTotal + 1)
  s.when logged fun s => s.raise 0x0700 job 0x0005 who n unit

/-! ## Entries into PS1 and PS2 (R458, R459; log entry 147) -/

/-- The entry of cluster g into PS1 or PS2 that is in progress: the state, and whether it is held. -/
def State.pmEntry (s : State) (g : Nat) : Option (Nat × Bool) := (s.power.entries.find? fun e => e.1 == g).map Prod.snd

/-- No entry of cluster g is in progress. -/
def State.dropPm (s : State) (g : Nat) : State := s.setPower { s.power with entries := s.power.entries.filter fun e => e.1 != g }

/-- An entry of cluster g begins. -/
def State.beginPm (s : State) (g n : Nat) (held : Bool) : State :=
  let s := s.dropPm g
  s.setPower { s.power with entries := s.power.entries ++ [(g, n, held)] }

/-- A wake event of a unit aborts the entry of cluster g that is in progress; only that of a held state raises an event (R458, R459). -/
def State.abortPm (s : State) (g unit index : Nat) : State :=
  match s.pmEntry g with
  | none => s
  | some e =>
    let s := (s.dropPm g).when e.2 fun s => s.setFld (Reg.cirPmCtrl g) Fld.cirPmCtrlReq 0
    s.refuse e.1 unit index true e.2 (g / 128) (s.clusterJob g)

/-! ## Wakes (R455, R459, R462) -/

/-- Is die d in PS3? -/
def State.inPs3 (s : State) (d : Nat) : Bool := s.fld (Reg.pwrDie d) Fld.pwrDiePs3 == 1

/-- Die d wakes (R455, R459, R462): an entry in progress is aborted with the refuser named; from PS3 the die runs on its oscillator
with its clusters in PS2, and WAKING is set until it has reached PS0 (log entry 148). -/
def State.wakeDie (s : State) (d unit index : Nat) : State :=
  if s.power.entering.contains d then
    let s := (s.setFld (Reg.pwrDie d) Fld.pwrDieReq 0).refuse 3 unit index true true d
    s.setPower { s.power with entering := s.power.entering.filter fun e => e != d }
  else if s.inPs3 d then
    let s := (s.setReg (Reg.pwrDie d) 4).setFld (Reg.clkFset d) Fld.clkFsetSel 0
    let s := s.setPower { s.power with waking := s.power.waking.put 0 d (s.now.toNat + 1), oscOff := s.power.oscOff.filter (· != d) }
    s.each (upFrom (128 * d) 128) fun s g =>
      (s.setFld (Reg.cirPmStatus g) Fld.cirPmStatusState 2).bumpFld (Reg.cirPmEntries g) Fld.cirPmEntriesPs2 1
  else s.setFld (Reg.pwrDie d) Fld.pwrDieReq 0

/-- A wake of die d where it is in PS3 or enters it. -/
def State.wakeAsleep (s : State) (d unit index : Nat) : State :=
  s.when (s.inPs3 d || s.power.entering.contains d) fun s => s.wakeDie d unit index

/-- An access to a register of a Cirque die, or of a base die beneath it, goes there over Twiac: it wakes a die in PS3 (R455). -/
def State.wakeByAccess (s : State) (off : Nat) : State :=
  let d := if off < 0x800000 then (off - 0x400000) / 0x100000 else (off - 0x800000) / 0x200000
  s.when (decide (0x400000 ≤ off) && off != Reg.morHmap 0) fun s => s.wakeAsleep d 0x0060 (14 + d)

/-- A reset that reaches die d first wakes it (R459): the clock controller raised it. -/
def State.wakeForReset (s : State) (d : Nat) : State := s.wakeAsleep d 0x0006 4

/-! ## Clusters -/

/-- Joined COMMITs of an exchange that cannot end complete ABORTED (R292). -/
def State.breakExchange (s : State) (p t : Nat) : State :=
  let l := (s.part p).joined t
  let s := s.setPart p ((s.part p).setJoined t [])
  let s := s.each l fun s j => (s.finish j.item { status := .aborted, detail := 3 }).setThread (4 * j.g + t)
    { s.thread (4 * j.g + t) with wait := .none }
  s.dueClears

/-- The items that the units of cluster g hold complete ABORTED (R33, R215, R368). -/
def State.abortCluster (s : State) (g : Nat) : State :=
  let s := s.each (upFrom (8 * g) 8) fun s c => s.abortCore c 3
  let s := (s.resetCopy g).abortMessages g
  s.abortItems 3 fun i => decide (0x0101 ≤ i.unit ∧ i.unit ≤ 0x0107) && i.index == g

/-- A thread is idle again; pins of evaluation slots that it holds are released (R255). -/
def State.dropThread (s : State) (k : Nat) : State :=
  let l := (s.thread k).pins
  (s.setThread k {}).each l fun s q => s.unpin q.1 q.2.toNat

/-- The reset of a partition (Tables 2-2, 3-12): its contexts enter RESET, its tablature IDLE, its pass streams are idle, and every
COMMIT of theirs is ABORTED, joined or not (R292). -/
def State.resetPartition (s : State) (p : Nat) : State :=
  let s := s.each [0, 1, 2] fun s t => s.breakExchange p t
  let gs := s.partClusters p
  let s := s.abortItems 3 fun i => i.unit == 0x0106 && decide (i.chan < 3) && gs.contains i.index
  let s := s.each (upFrom (4 * p) 4) fun s c => s.ctxReset c
  let s := s.each (s.partClusters p) fun s g => s.each (upFrom (4 * g) 3) fun s k => s.dropThread k
  (s.setTab p 0).setPart p {}

/-- The items that p picks and whose effects are complete retire, in the order in which they were accepted. -/
def State.retireAll (s : State) (p : Item → Bool) : State :=
  s.each (s.items.live.filter p) fun s i =>
    match i.comp with
    | some c => s.retire i c
    | none => s

/-- The leaders in other clusters of the gangs of which cores of cluster g are members. -/
def State.outerLeaders (s : State) (g : Nat) : List Nat :=
  (((upFrom (8 * g) 8).filter fun c => s.coreOn c && s.gstate c == 1).map s.coreLeader).eraseDups.filter fun l => l / 8 != g

/-- The reset of the units of cluster g: items complete ABORTED and those of its vector engine
retire, every register of its CIR block, lane store, accumulator, curve
slot and vector context is as after reset, its threads are idle and its AM ring is empty (R163, R165, R193, R232, R292, R362).
Feeders elsewhere stop counting its cores, and go on (R163). -/
def State.resetCluster (s : State) (g : Nat) : State :=
  let ls := s.outerLeaders g
  let s := (s.abortPm g 0x0006 4).abortCluster g
  let s := s.each ((upFrom (8 * g) 8).filter fun c => s.coreOn c && s.coreLeader c == c) fun s c => s.loseGang c
  let s := s.resetMessages g
  let s := (s.each (upFrom (4 * g) 4) fun s k => s.dropThread k).retireAll fun i => i.unit == 0x0101 && i.index == g
  let s := ((((s.setCores (s.cores.filter fun e => e.1 / 8 != g)).setVctxs (s.vctxs.filter fun e => e.1 / 4 != g)).setCurves
    (s.curves.filter fun e => e.1 / 4 != g)).setProgs (s.progs.filter fun e => e.1 != g)).setClrpend (s.clrpend.filter fun h => h != g)
  ((s.resetRegs fun o => decide (0x400000 + g * 0x2000 ≤ o ∧ o < 0x400000 + (g + 1) * 0x2000)).setStale (g / 128)).each ls
    fun s l => State.runGang l 4096 s

/-- CLUSTER_RESET (R459, R471): the contexts of the cluster's partition enter RESET (Table 15-11). -/
def State.clusterReset (s : State) (g : Nat) : State :=
  let s := s.wakeForReset (g / 128)
  let p := s.partOf g
  let s := match p with
    | some p => s.resetPartition p
    | none => s
  (s.resetCluster g).resetEvent 4 g

/-- CLUSTER_RESET (R471). -/
def execClusterReset (g : ClusterId) (s : State) : Res := .next (s.clusterReset g)

/-! ## Stacks -/

/-- The MORAINE words that were issued to an isolated stack and whose completion has not reached their sequencer complete
ABORTED (Table 12-5), and so do those that wait in its engine. -/
def State.fenceEngine (s : State) (st : Nat) : State :=
  let mine : Item → Bool := fun i => i.unit == 0x0201 && i.index == st
  let ids := (s.items.live.filter mine).map Item.id
  let f : Item → Item := fun i => if mine i then { i with comp := some { status := .aborted, detail := 4 } } else i
  let s := s.setItems { s.items with live := s.items.live.map f, results := s.items.results.filter fun r => !ids.contains r.item }
  let s := s.setStack st { s.stack st with cmds := [] }
  (s.setFab { s.fab with xfers := s.fab.xfers.filter fun t => !(ids.any fun id => t.why == XferFor.item id) }).dropBegins

/-- The registers of stack st but the one HMAP of the device (R231, R264, Table 15-11). -/
def State.resetStackRegs (s : State) (st : Nat) : State :=
  (s.resetRegs fun o => decide (0x800000 + st * 0x100000 ≤ o ∧ o < 0x800000 + (st + 1) * 0x100000) && o != Reg.morHmap 0).setStale
    (st / 2)

end Sys2Proof.Machine
end

