-- ==== Sys2Proof/Machine/Twiac.lean ====
section
/-! DEFINITION. The Twiac die interface: packets, retries, capability negotiation, throttling, isolation and rejoining (chapter 12;
log entries 48 and 51 to 55). -/
namespace Sys2Proof.Machine

/-! ## Links and dies (R369, R382, R383) -/

/-- The two Cirque dies of C-link n (Table 12-1). -/
def cLinkDies (n : Nat) : Nat × Nat :=
  match n with
  | 8 => (0, 1) | 9 => (0, 2) | 10 => (0, 3) | 11 => (1, 2) | 12 => (1, 3) | _ => (2, 3)

/-- The C-links of Cirque die d. -/
def cLinks (d : Nat) : List Nat := (upFrom 8 6).filter fun n => (cLinkDies n).1 == d || (cLinkDies n).2 == d

/-- The Cirque die at the other end of C-link n. -/
def cOther (n d : Nat) : Nat := if (cLinkDies n).1 = d then (cLinkDies n).2 else (cLinkDies n).1

/-- The links of Cirque die d: M-links of its stacks, C-links, H-link. -/
def dieLinks (d : Nat) : List Nat := [2 * d, 2 * d + 1] ++ cLinks d ++ [14 + d]

/-- The partner of Twiac link n: a base die, or a Cirque die (R383). -/
def twiPartner (n : Nat) : Nat ⊕ Nat :=
  if n < 8 then .inl n else if n < 14 then .inr (cLinkDies n).2 else .inr (n - 14)

/-- The state of Twiac link n (Table 12-8). -/
def State.twiState (s : State) (n : Nat) : Nat := s.fld (Reg.twiLstatus n) Fld.twiLstatusState

/-- Writes it. -/
def State.setTwiState (s : State) (n v : Nat) : State := s.setFld (Reg.twiLstatus n) Fld.twiLstatusState v

/-- The lane groups of Twiac link n (Table 12-1). -/
def twiGroups (n : Nat) : Nat := if n < 8 then 16 else 8

/-! ## Isolation (R382, R384 to R386) -/

/-- A link enters ISOLATED (R382, R384). -/
def State.cutLink (s : State) (n : Nat) : State :=
  if (s.twiLink n).cut ∧ s.twiState n = 4 then s
  else
    let s := ((s.setTwiState n 4).setFld (Reg.twiLstatus n) Fld.twiLstatusGood 0).bump (Reg.twiLisol n)
    s.setTwi n { s.twiLink n with cut := true, fails := [], excluded := 0, badBlock := false }

/-- An epoch attempt in progress counts an isolated die as a unit that has not applied it (R385). -/
def State.blockEpoch (s : State) : State :=
  match s.hub.attempt with
  | some a => s.setHub { s.hub with attempt := some { a with blocked := true } }
  | none => s

/-- The isolation of the base die of stack st (Tables 12-5 and 12-6): its controller finishes what it has accepted, its engine is
fenced, its commands retire, and its registers are as after a reset (R264, R384). One that is coming back is isolated again. -/
def State.isolateStack (s : State) (st cause : Nat) : State :=
  let cut := fun s : State => s.raise 0x0503 none 0x0301 st (8 + st) cause
  if s.stackCut st then s.when (s.twiState st != 4) fun s => cut ((s.cutLink st).resetStackRegs st)
  else
    let s := (((s.drainStack st).cutLink st).fenceEngine st).blockEpoch
    let s := (s.retireAll fun i => i.unit == 0x0201 && i.index == st).resetStackRegs st
    cut (s.setStack st { s.stack st with confirm := [], openRow := [] })

/-- The isolation of base die st alone: its content is kept where a reset was asked for, and undefined where its clock or link
was lost; its retirement table is loaded again (Table 12-6, R229). One that is isolated already loses its content with its clock. -/
def State.isolateBase (s : State) (st cause : Nat) : State :=
  let s := s.isolateStack st cause
  let s := s.loadRet st s.savedTables
  if cause = 0 then s else s.smearStack st

/-- The enabled partitions with a cluster on Cirque die d. -/
def State.partsOnDie (s : State) (d : Nat) : List Nat :=
  (upFrom 0 64).filter fun p => s.partOn p && (s.partClusters p).any fun g => g / 128 == d

/-- The H-links of all four Cirque dies are lost, none of them REJOINING: a warm reset of the package is due (R382). -/
def State.warmIfLost (s : State) : State :=
  s.when ((upFrom 0 4).all fun d => s.dieCut d && s.twiState (14 + d) != 5) fun s => s.setHub { s.hub with warmDue := true }

/-- A die that is coming back is isolated again (R382, R384): the links that were no longer ISOLATED are so again and the die's
registers are as after a reset; it is logged where none of its links was ISOLATED any more. -/
def State.recutDie (s : State) (d cause : Nat) : State :=
  let back := (dieLinks d).filter fun n => s.twiState n != 4
  s.when (back != []) fun s =>
    let anew := back == dieLinks d
    let s := s.each (upFrom (128 * d) 128) fun s g => s.resetCluster g
    let s := s.each [2 * d, 2 * d + 1] fun s st => s.isolateStack st cause
    let s := s.each back fun s n => s.cutLink n
    (s.when anew fun s => s.raise 0x0503 none 0x0300 d d cause).warmIfLost

/-- The isolation of Cirque die d: its links, the M-links of its stacks, the fence and the reset of what the die holds (R382, R384,
Tables 12-5 and 12-6). -/
def State.isolateDie (s : State) (d cause : Nat) : State :=
  if s.dieCut d then s.recutDie d cause
  else
    let s := s.wakeForReset d
    let ps := s.partsOnDie d
    let s := s.each ps fun s p => (s.resetPartition p).each (s.partClusters p) fun s g => s.abortCluster g
    let s := s.each (upFrom (128 * d) 128) fun s g => s.resetCluster g
    let s := s.each [2 * d, 2 * d + 1] fun s st => s.isolateStack st cause
    let s := s.each (cLinks d ++ [14 + d]) fun s n => s.cutLink n
    let s := (s.zeroMem (firnAddr (128 * d) 0) (128 * sliceSize)).blockEpoch
    let s := (s.setPower { s.power with
      lost := s.power.lost ++ (ps.map fun p => (p, d)).filter (fun e => !s.power.lost.contains e)
      entering := s.power.entering.filter fun e => e != d })
    (s.raise 0x0503 none 0x0300 d d cause).warmIfLost

/-- A link is lost: the partner of an M-link or of a C-link, or the Cirque die of an H-link, is isolated (R382, R383; log entry
51). -/
def State.loseTwi (s : State) (n cause : Nat) : State :=
  match twiPartner n with
  | .inl st => s.isolateBase st cause
  | .inr d => s.isolateDie d cause

/-- TWIAC_CLOCK_LOSS (R382). -/
def execTwiacClockLoss (n : TwiId) (s : State) : Res := .next (s.loseTwi n 1)

/-- A single-die reset of Cirque die d (R382, R384, Table 15-11). -/
def State.resetCirque (s : State) (d : Nat) : State := (s.isolateDie d 0).resetEvent 3 d

/-- A single-die reset of the base die of stack st (R264, R386, Table 15-11). -/
def State.resetBase (s : State) (st : Nat) : State := (s.isolateBase st 0).resetEvent 3 (0x10 + st)

/-- SINGLE_DIE_RESET (R383, R470). -/
def execSingleDieReset (x : DieTarget) (s : State) : Res :=
  .next (match x with
    | .cirque d => s.resetCirque d
    | .base st => s.resetBase st)

/-! ## Rejoining (R387) -/

/-- May Cirque die d rejoin: every link of it is REJOINING? -/
def State.dieReady (s : State) (d : Nat) : Bool := s.dieCut d && (dieLinks d).all fun n => s.twiState n == 5

/-- Are the registers at an offset out of reach: those of an isolated die, but while its links are REJOINING (R384, R387)? The
register that maps the windows is the device's (R218). -/
def State.regGone (s : State) (off : Nat) : Bool :=
  let die := fun d => s.dieCut d && s.twiState (14 + d) != 5
  if 0x400000 ≤ off ∧ off < 0x800000 then die ((off - 0x400000) / 0x100000)
  else if 0x800000 ≤ off ∧ off < 0x1000000 ∧ off ≠ Reg.morHmap 0 then
    let st := (off - 0x800000) / 0x100000
    (s.stackCut st && s.twiState st != 5) || die (st / 2)
  else false

/-- A link enters ACTIVE. -/
def State.joinLink (s : State) (n : Nat) : State :=
  (s.setTwiState n 3).setTwi n { s.twiLink n with cut := false }

/-- A configuration epoch boundary: dies whose links are all REJOINING rejoin (R387). -/
def State.rejoin (s : State) : State :=
  let dies := (upFrom 0 4).filter s.dieReady
  let s := s.each dies fun s d =>
    s.each ((dieLinks d).filter fun n => s.twiState n == 5 &&
      !(decide (8 ≤ n ∧ n < 14) && s.dieCut (cOther n d) && !dies.contains (cOther n d))) fun s n => s.joinLink n
  let s := s.setPower { s.power with oscOff := s.power.oscOff.filter fun d => !dies.contains d }
  s.each ((upFrom 0 8).filter fun n => s.twiState n == 5 && !s.dieCut (n / 2)) fun s n => s.joinLink n

/-! ## Retries and negotiation (R374, R377, R378) -/

/-- The groups that carry traffic: the lowest of those that GMASK allows and that are not excluded, count of them at most. -/
def goodGroups (allowed count : Nat) : Nat :=
  ((onesFrom 0 16 allowed).take count).foldl (fun m g => m + 2 ^ g) 0

/-- A retrain of Twiac link n on the groups that remain (R374, R378, Table 12-8): as many as were negotiated, less those excluded. -/
def State.retrainTwi (s : State) (n : Nat) : State :=
  let count := (s.twiLink n).groups - popCount 16 (s.twiLink n).excluded
  let allow := s.fld (Reg.twiLctrl n) Fld.twiLctrlGmask % 2 ^ twiGroups n
  let ok := (upFrom 0 16).foldl (fun m g => if bit allow g && !bit (s.twiLink n).excluded g then m + 2 ^ g else m) 0
  s.setFld (Reg.twiLstatus n) Fld.twiLstatusGood (goodGroups ok count)

/-- FLIT_RETRY (R374): the sender resends; after 8 failed retries of one flit the group is excluded. -/
def execFlitRetry (n : TwiId) (k : Fin 16) (s : State) : Res :=
  let x := s.twiLink n
  let f := x.fails.get 0 k
  .next (s.when (bit (s.fld (Reg.twiLstatus n) Fld.twiLstatusGood) k) fun s =>
    let s := s.bump (Reg.twiLcrc n)
    if f < 8 then (s.bump (Reg.twiLretry n)).setTwi n { x with fails := x.fails.put 0 k (f + 1) }
    else
      let s := (s.setTwi n { x with fails := x.fails.put 0 k 0, excluded := x.excluded + 2 ^ k.val }).retrainTwi n
      if s.fld (Reg.twiLstatus n) Fld.twiLstatusGood = 0 then s.loseTwi n 2 else s)

/-- The own capability block of Twiac link n (Table 12-3): that of the end towards the hub (log entry 52). -/
def ownBlock (n : Nat) : Bytes :=
  let kind := if n < 14 then 0 else 2
  let b := leBytes 2 0x0C17 ++ leBytes 1 kind ++ [Config.dieGen kind] ++ leBytes 1 2 ++ leBytes 1 1 ++ leBytes 1 (twiGroups n) ++
    leBytes 1 0 ++ leBytes 2 0x3F ++ leBytes 2 4096 ++ List.replicate 48 0
  b ++ leBytes 4 (crc32c b).toNat

/-- The sensor of the partner die of Twiac link n (Table 12-7). -/
def twiSensor (n : Nat) : Nat := match twiPartner n with | .inl st => 4 + st | .inr d => d

/-- An end sends its capability block (R377). -/
def State.sendCaps (s : State) (n : Nat) : State := s.send (.capBlock n (ownBlock n))

/-- The partner's capability block of link n arrives: a link that is DOWN or ISOLATED is brought up by it, and sends its own block too
(R377, R378, R387). A die that sends no temperatures is throttled as at its warning threshold (Table 12-4). -/
def State.receiveCaps (n : Nat) (b : Bytes) (s : State) : State :=
  let x := s.twiLink n
  let st := s.twiState n
  let down := match twiPartner n with | .inl _ => false | .inr d => s.power.railDown.contains d
  s.when (decide (st < 3 ∨ st = 4) && decide (b.length = 64) && !down) fun s =>
    let s := s.when (decide (st < 2 ∨ st = 4)) fun s => s.sendCaps n
    if (crc32c (b.take 60)).toNat ≠ field b 60 4 then
      (s.setTwiState n 2).setTwi n { x with badBlock := true }
    else
      let own := ownBlock n
      let feat := field own 8 2 &&& field b 8 2
      let code := if 2 < field b 7 1 then 2 else field b 7 1
      let gm := popCount 16 (s.fld (Reg.twiLctrl n) Fld.twiLctrlGmask % 2 ^ twiGroups n)
      let groups := min (min (twiGroups n) (field b 6 1)) gm
      let minor := min 1 (field b 5 1)
      let len := min 4096 (field b 10 2)
      let subset := minor != 1 || code != 0 || groups != twiGroups n || len != 4096 || feat != 0x3F
      let bad := field b 4 1 != 2 || feat &&& 15 != 15
      let s := s.setTwi n { x with partner := b, badBlock := false, maxLen := len, groups := min (twiGroups n) (field b 6 1),
                                      fails := [], excluded := 0 }
      let s := s.setReg (Reg.twiLneg n) (BitVec.ofNat 32 (minor + feat * 2 ^ 8 + b2n subset * 2 ^ 24))
      let s := s.when (subset || bad) fun s => s.raise 0x0501 none 0x0060 n n feat
      if bad then (s.setTwiState n 2).loseTwi n 3
      else
        let s := (s.setFld (Reg.twiLstatus n) Fld.twiLstatusSpeed code).retrainTwi n
        let s := s.when (!bit feat 5) fun s => s.setFld (Reg.twiTemp (twiSensor n)) Fld.twiTempStep 1
        s.setTwiState n (if x.cut then 5 else 3)

/-- CAPABILITY_BLOCK_RECEIVE (R377, R378, R387). -/
def execCapabilityBlockReceive (n : TwiId) (b : Bytes) (s : State) : Res := .next (s.receiveCaps n b)

/-- CAPABILITY_REREQUEST (R377): a block whose CHECK failed is requested again. -/
def execCapabilityRerequest (n : TwiId) (s : State) : Res :=
  .next (s.when (s.twiLink n).badBlock fun s => s.send (.capRequest n))

/-! ## Packets (R371, R372, R376) -/

/-- The KIND that the die of a die code has declared on the link by which the hub's side sees it (R372, R377): none before its block has
come, or for the hub. -/
def State.kindOf (s : State) (die : Nat) : Option Nat :=
  let b := if die < 4 then (s.twiLink (14 + die)).partner else if 8 ≤ die then (s.twiLink (die - 8)).partner else []
  if b = [] then none else some (field b 2 1)

/-- Does a unit exist (R372, Tables 12-9, 12-10)? The units of the hub, of a die of another KIND, and those of a die's own level are
numbered by another document. -/
def State.unitExists (s : State) (dst : Nat) : Bool :=
  let die := dst / 4096
  let u := dst % 4096
  if die < 4 then (s.kindOf die).getD 0 != 0 || decide (2048 ≤ u ∨ u % 16 ≠ 15)
  else if die = 4 then true
  else if die < 8 then false
  else (s.kindOf die).getD 1 != 1 || decide (u < 2)

/-- Is a die code reserved (Table 12-9)? -/
def dieReserved (unit : Nat) : Bool := decide (5 ≤ unit / 4096 ∧ unit / 4096 < 8)

/-- Is a packet header a protocol violation (R372, R376)? -/
def State.packetBad (s : State) (n : Nat) (h : Bytes) : Bool :=
  let v := leNat h
  dieReserved (bits v 16 16) || decide (5 < bits v 0 4 ∨ bits v 4 12 ≠ 0 ∨ bits v 60 4 ≠ 0 ∨ bits v 124 4 ≠ 0 ∨ (s.twiLink n).maxLen ≤ bits v 112 12) ||
    !s.unitExists (bits v 32 16)

/-- The header of the answer to a packet: SRC and DST exchanged, TAG, ADDR and LEN as they came, reserved bits zero (Table 12-2). -/
def replyHdr (h : Bytes) (typ : Nat) : Bytes :=
  leBytes 2 typ ++ leBytes 2 (field h 4 2) ++ leBytes 2 (field h 2 2) ++ leBytes 2 (field h 6 2 % 4096) ++
    leBytes 6 (field h 8 6) ++ leBytes 2 (field h 14 2 % 4096)

/-- The data of a masked write, and its mask bits, from groups of up to 64 data bytes, each followed by its 8 bytes of mask (R371; log
entry 53). -/
def maskedData : Nat → Nat → Bytes → Bytes × List Bool
  | 0, _, _ => ([], [])
  | k + 1, n, b =>
    if n = 0 then ([], [])
    else
      let m := min 64 n
      let mask := leNat ((b.drop m).take 8)
      let r := maskedData k (n - m) (b.drop (m + 8))
      (b.take m ++ r.1, (upFrom 0 m).map (bit mask) ++ r.2)

/-- The runs of bytes at a that a mask picks, with their addresses. -/
def maskRuns (a : Nat) : List (Byte × Bool) → List (Nat × Bytes)
  | [] => []
  | (b, on) :: l =>
    let r := maskRuns (a + 1) l
    if !on then r
    else match r with
      | (x, bs) :: t => if x = a + 1 then (a, b :: bs) :: t else (a, [b]) :: r
      | [] => [(a, [b])]

/-- Are n bytes at a memory that a packet may read and write: HBM, Firn, or the window of a port that is UP and not waited for (R371,
R416)? -/
def State.packetMem (s : State) (a n : Nat) : Bool :=
  match regionOf a with
  | some .hbm => true
  | some .firn => true
  | some (.host p) => s.portState p == 2 && !s.hostBusy a n
  | _ => false

/-- RESP_ERR for unit dst and address a (R201, R376): the reads of that copy engine which it answers fail. The other units of the model
read at once and have none outstanding. -/
def State.respErr (s : State) (dst a : Nat) : State :=
  let e := dst / 4096 * 128 + dst % 2048 / 16
  if 4 ≤ dst / 4096 ∨ 2048 ≤ dst % 4096 ∨ dst % 16 ≠ 9 then s
  else
    let hit : CopyReq → Bool := fun r => r.st == .issued && decide (r.src ≤ a ∧ a < r.src + r.len)
    let reads := ((s.engineReqs e).filter hit).filterMap CopyReq.rd
    let up : CopyReq → CopyReq := fun r => match r.rd with
      | some x => if r.st = .issued ∧ reads.contains x then { r with st := .failed, fail := dataError a 0 } else r
      | none => r
    let s := s.each (upFrom 0 8) fun s c => s.mapReqs e c up
    s.each (upFrom 0 8) fun s c => State.pump e c s

/-- A packet reaches its unit: a write stores, a read is answered, an error answer fails its read (Table 12-2). -/
def State.deliver (s : State) (n : Nat) (h data : Bytes) : State :=
  let v := leNat h
  let a := bits v 64 48
  let k := bits v 112 12 + 1
  match bits v 0 4 with
  | 0 =>
    if !s.packetMem a k then s.send (.twiac n (replyHdr h 4) [])
    else
      let bad := (s.badByte a k).isSome
      let reply := if bad then .twiac n (replyHdr h 4) [] else .twiac n (replyHdr h 3) (s.bytes a k)
      (s.chargeRange a k).send reply
  | 1 => s.when (s.packetMem a k) fun s => s.store a (data.take k)
  | 2 =>
    let m := maskedData 64 k data
    s.when (s.packetMem a k) fun s =>
      let s := s.storeSome a m.1 fun x => decide (a ≤ x) && m.2.getD (x - a) false
      s.each (maskRuns a (m.1.zip m.2)) fun s r => s.hostOut r.1 r.2
  | 4 => s.respErr (bits v 32 16) a
  | _ => s

/-- A packet of link n for a Cirque die, or for a base die beneath it, wakes that die in PS3 and ends an entry into it (R455, R459). -/
def State.wakeByPacket (s : State) (n dst : Nat) : State :=
  let die := dst / 4096
  if die < 4 then s.wakeAsleep die 0x0060 n else if 8 ≤ die then s.wakeAsleep ((die - 8) / 2) 0x0060 n else s

/-- TWIAC_PACKET_RECEIVE (R371, R372, R374, R376, R455). -/
def execTwiacPacketReceive (n : TwiId) (hdr data : Bytes) (s : State) : Res :=
  let t := bits (leNat hdr) 0 4
  .next (s.when (s.twiState n == 3 && decide (hdr.length = 16)) fun s =>
    let s := s.wakeByPacket n (field hdr 4 2)
    if s.packetBad n hdr then
      let s := (s.bump (Reg.twiLproto n)).raise 0x0500 none 0x0060 n n t
      if t = 0 then s.send (.twiac n (replyHdr hdr 4) []) else s
    else
      let good := s.fld (Reg.twiLstatus n) Fld.twiLstatusGood
      let g := (onesFrom 0 16 good).getD ((field hdr 2 2 ^^^ field hdr 4 2) % max 1 (popCount 16 good)) 0
      let s := s.deliver n hdr data
      let x := s.twiLink n
      s.setTwi n { x with fails := x.fails.put 0 g 0 })

/-! ## Throttling (R379 to R381) -/

/-- The throttle step of sensor n changes, at most once in 10 µs (R379). -/
def State.setStep (s : State) (n v : Nat) : State :=
  let last := s.power.stepAt.get 0 n
  if last ≠ 0 ∧ s.now.toNat + 1 < last + 10000 then s
  else
    let s := s.setFld (Reg.twiTemp n) Fld.twiTempStep v
    s.setPower { s.power with stepAt := s.power.stepAt.put 0 n (s.now.toNat + 1) }

/-- A temperature in °C. -/
def degrees (x : BitVec 8) : Int := signed 8 x.toNat

/-- The limit of a sensor: 0 to 11 as TWI_TEMPn, 12 to 15 the Cirque junctions, 16 the hub's (Table 17-10). -/
def sensorLimit (n : Nat) : Int := if n < 12 then 95 else 105

/-- A reading of a sensor arrives: while a thermal trip holds the package in PS4, the sensors that are not at least 10 °C below their
limit are kept (R469). -/
def State.readSensor (s : State) (n : Nat) (degC : BitVec 8) : State :=
  let s := if n < 12 then s.setFld (Reg.twiTemp n) Fld.twiTempDegc degC.toNat
    else s.setFld (Reg.pwrTj (n - 12)) Fld.pwrTjDegc degC.toNat
  s.when (s.fld Reg.pwrBoot Fld.pwrBootTrip == 1) fun s =>
    let rest := s.power.hot.filter fun e => e != n
    s.setPower { s.power with hot := if degrees degC ≤ sensorLimit n - 10 then rest else rest ++ [n] }

/-- THERMAL_REPORT (R379, R381). -/
def execThermalReport (n : Fin 12) (degC : BitVec 8) (s : State) : Res :=
  let t := degrees degC
  let s := s.readSensor n degC
  let limit := decide (4 ≤ n.val ∧ 95 ≤ t)
  let want := if limit ∨ (s.fld (Reg.twiThr n) Fld.twiThrHeavy : Int) ≤ t then 2
    else if (s.fld (Reg.twiThr n) Fld.twiThrWarn : Int) ≤ t then 1 else 0
  let s := s.when (decide (s.fld (Reg.twiTemp n) Fld.twiTempStep < want)) fun s => s.setStep n want
  .next (s.when limit fun s => s.raise 0x0502 none 0x0061 n n degC.toNat)

/-- The Twiac link over which the die of sensor n reports. -/
def sensorLink (n : Nat) : Nat := if n < 4 then 14 + n else n - 4

/-- THROTTLE_STEP_DOWN (R379): readings have stayed below the step's threshold less HYST for 10 µs; a stack at its limit holds step 2
(R381). -/
def execThrottleStepDown (n : Fin 12) (s : State) : Res :=
  let step := s.fld (Reg.twiTemp n) Fld.twiTempStep
  let thr := s.fld (Reg.twiThr n) (if step = 2 then Fld.twiThrHeavy else Fld.twiThrWarn)
  let t := degrees (BitVec.ofNat 8 (s.fld (Reg.twiTemp n) Fld.twiTempDegc))
  let l := sensorLink n
  let mute := s.twiState l == 3 && !bit (s.fld (Reg.twiLneg l) Fld.twiLnegFeatures) 5
  let limit := decide (step = 2 ∧ 4 ≤ n.val ∧ 95 ≤ t)
  .next (s.when (decide (0 < step ∧ t < (thr : Int) - s.fld (Reg.twiThr n) Fld.twiThrHyst) && !(mute && step == 1) && !limit) fun s => s.setStep n (step - 1))

end Sys2Proof.Machine
end

