-- ==== Sys2Proof/Machine/Power.lean ====
section
/-! DEFINITION. Power states of clusters, dies and the package, clocks, rails and the thermal response but for what starts the
package (chapter 15, R503; log entries 56 to 59). -/
namespace Sys2Proof.Machine

/-! ## Clusters (R450 to R453) -/

/-- Is a thread ready: it runs a program and waits for nothing (R79)? -/
def threadReady (t : Thread) : Bool := t.prog != .idle && t.wait == .none && !t.ended

/-- Is an item held by a unit of cluster g? -/
def inCluster (g : Nat) (i : Item) : Bool :=
  (i.unit == 0x0100 && i.index / 8 == g) || (decide (0x0101 ≤ i.unit ∧ i.unit ≤ 0x0107) && i.index == g)

/-- Is cluster g idle (R450)? -/
def State.clusterIdle (s : State) (g : Nat) : Bool :=
  !((upFrom (4 * g) 4).any fun k => threadReady (s.thread k)) && !(s.items.live.any (inCluster g)) && (s.ring g).recs == []

/-- Cluster g enters PS1 or PS2. -/
def State.enterPm (s : State) (g n : Nat) (held : Bool) : State :=
  let s := (s.setFld (Reg.cirPmStatus g) Fld.cirPmStatusState n).setFld (Reg.cirPmStatus g) Fld.cirPmStatusHeld (b2n held)
  s.bumpFld (Reg.cirPmEntries g) (if n = 1 then Fld.cirPmEntriesPs1 else Fld.cirPmEntriesPs2) 1

/-- Cluster g wakes: after PS2 its lane stores, accumulators, curve slots and vector contexts are as after reset (R453). -/
def State.wakeCluster (s : State) (g : Nat) : State :=
  let s := s.when (s.fld (Reg.cirPmStatus g) Fld.cirPmStatusState == 2) fun s => s.clearCluster g
  s.setReg (Reg.cirPmStatus g) 0

/-- Is cluster g held (R452)? -/
def State.pmHeld (s : State) (g : Nat) : Bool := s.fld (Reg.cirPmStatus g) Fld.cirPmStatusHeld == 1

/-- Has every pass stream of cluster g ended its program for the current iteration, or none in it (R101, R450)? -/
def State.streamsEnded (s : State) (g : Nat) : Bool :=
  ((upFrom (4 * g) 3).all fun k => (s.thread k).prog == .idle) &&
    match s.partOf g with
    | some p => (match (s.part p).row with | some r => !r.uEn || s.uDone p g | none => true)
    | none => true

/-- CLUSTER_IDLE_PS1 (R450): T1 cc of idleness. -/
def execClusterIdlePs1 (g : ClusterId) (s : State) : Res :=
  .next (s.when (s.fld Reg.pwrCfg Fld.pwrCfgP1en == 1 && (s.partOf g).isSome && s.pmState g == 0 && s.pmEntry g == none &&
      s.clusterIdle g) fun s => s.beginPm g 1 false)

/-- May cluster g enter PS2 by itself (R450)? -/
def State.mayPs2 (s : State) (g : Nat) : Bool :=
  s.fld Reg.pwrCfg Fld.pwrCfgP1en == 1 && s.fld Reg.pwrCfg Fld.pwrCfgP2en == 1 && (s.partOf g).isSome && s.clusterIdle g && s.streamsEnded g

/-- CLUSTER_IDLE_PS2 (R450): T2 µs of idleness, while no pass stream runs a program. -/
def execClusterIdlePs2 (g : ClusterId) (s : State) : Res :=
  .next (s.when (decide (s.pmState g < 2) && s.pmEntry g == none && !s.pmHeld g && s.mayPs2 g) fun s => s.beginPm g 2 false)

/-- UNASSIGNED_CLUSTER_SLEEP (R451). -/
def execUnassignedClusterSleep (g : ClusterId) (s : State) : Res :=
  let n := if s.fld Reg.pwrCfg Fld.pwrCfgUnasg = 1 then 1 else 2
  .next (s.when ((s.partOf g).isNone && decide (s.pmState g < n) && s.pmEntry g == none && !s.pmHeld g) fun s => s.beginPm g n false)

/-- REQ of a cluster is written (R452). -/
def State.holdCluster (s : State) (g req : Nat) : State :=
  let s := s.setFld (Reg.cirPmCtrl g) Fld.cirPmCtrlReq req
  if req = 0 ∨ req = 3 then (s.when ((s.pmEntry g).any Prod.snd) fun s => s.abortPm g 0x0104 g).when (s.pmHeld g) fun s => s.wakeCluster g
  else if s.clusterIdle g then
    if s.pmState g = req then (s.dropPm g).setFld (Reg.cirPmStatus g) Fld.cirPmStatusHeld 1 else s.beginPm g req true
  else (s.setFld (Reg.cirPmCtrl g) Fld.cirPmCtrlReq 0).refuse req 0x0104 g false true (g / 128) (s.clusterJob g)

/-- CIR_PM_HOLD (R452, R455): a write to the cluster's register, which wakes a die in PS3. -/
def execCirPmHold (g : ClusterId) (req : Fin 4) (s : State) : Res :=
  let off := Reg.cirPmCtrl g
  .next (s.when (!s.regGone off) fun s => (s.wakeByAccess off).holdCluster g req)

/-- CLUSTER_WAKE (R453, R459): an entry that has not ended is aborted; the refuser is the cluster's sequencer (log entry 147). -/
def execClusterWake (g : ClusterId) (s : State) : Res :=
  .next (s.when (s.partOf g).isSome fun s =>
    if (s.pmEntry g).isSome then s.abortPm g 0x0104 g
    else s.when ((s.pmState g == 1 || s.pmState g == 2) && !s.pmHeld g) fun s => s.wakeCluster g)

/-- The entry of cluster g into a state ends: it is in that state where it still may be, and otherwise the entry is aborted (R450 to R452,
R459). -/
def State.settlePm (s : State) (g n : Nat) (held : Bool) : State :=
  let ok := if held then s.clusterIdle g else if (s.partOf g).isNone then true else if n = 1 then s.clusterIdle g else s.mayPs2 g
  if ok then (s.dropPm g |>.wakeCluster g).enterPm g n held else s.abortPm g 0x0104 g

/-! ## Dies (R454, R455) -/

/-- The first of a list that a test fails, as a refuser of a unit code. -/
def refuserOf (unit : Nat) (l : List Nat) (ok : Nat → Bool) : Option (Nat × Nat) :=
  (l.find? fun x => !ok x).map fun x => (unit, x)

/-- Has stack st a Moraine command or a compaction? -/
def State.engineBusy (s : State) (st : Nat) : Bool :=
  (s.unitItems 0x0201 st) != [] || (s.snps.any fun e => (upFrom 0 8).any fun k => s.fld (Reg.snpSlot e.1 k) Fld.snpSlotCompact == 1)

/-- Conditions 2 to 5 of Table 15-3 for die d: the refuser of each. -/
def State.dieRefusers (s : State) (d : Nat) : List (Option (Nat × Nat)) :=
  let running := (upFrom 0 64).filter fun p => s.tab p == 1
  [refuserOf 0x0060 (dieLinks d) fun n => s.twiState n == 3,
    refuserOf 0x0032 running fun p => !(s.partClusters p).any fun g => g / 128 == d,
    refuserOf 0x0104 (upFrom (128 * d) 128) fun g => s.pmState g != 0 || s.clusterIdle g,
    refuserOf 0x0201 [2 * d, 2 * d + 1] fun st => !s.engineBusy st]

/-- The first refuser of die d. -/
def State.dieRefuser (s : State) (d : Nat) : Option (Nat × Nat) := (s.dieRefusers d).findSome? id

/-- Condition 1 of Table 15-3. -/
def State.epochRefuser (s : State) : Option (Nat × Nat) := if s.hub.attempt.isSome then some (0x0002, 0) else none

/-- REQ of die d is written 1 (R454). -/
def State.requestPs3 (s : State) (d : Nat) : State :=
  if s.inPs3 d ∨ s.power.entering.contains d then s
  else match [s.epochRefuser, s.dieRefuser d].findSome? id with
    | some (u, i) => (s.setFld (Reg.pwrDie d) Fld.pwrDieReq 0).refuse 3 u i false true d
    | none =>
      let s := s.setFld (Reg.pwrDie d) Fld.pwrDieReq 1
      s.setPower { s.power with entering := s.power.entering ++ [d] }

/-- Writes bit i of a field of CLK_STATUS. -/
def State.setLock (s : State) (f : Fld) (i : Nat) (on : Bool) : State :=
  s.setFld Reg.clkStatus f (setBits (s.fld Reg.clkStatus f) i 1 (b2n on))

/-- PS3_ENTRY_COMPLETE (R455): the core PLL is stopped. -/
def execPs3EntryComplete (d : DieId) (s : State) : Res :=
  .next (s.when (s.power.entering.contains d.val) fun s =>
    let s := (s.setFld (Reg.pwrDie d) Fld.pwrDiePs3 1).setLock Fld.clkStatusCorelock d false
    (s.setPower { s.power with entering := s.power.entering.filter fun e => e != d.val }))

/-- DIE_WAKE (R455). -/
def execDieWake (d : DieId) (byPacket : Option TwiId) (s : State) : Res :=
  .next (match byPacket with
    | some n => s.when ((dieLinks d).contains n.val) fun s => s.wakeDie d 0x0060 n
    | none => s.wakeDie d 0x0005 d)

/-! ## Rails and clocks (R462 to R469, R503) -/

/-- The voltage target of die d in mV: that of its applied point. -/
def State.targetMv (s : State) (d : Nat) : Nat := s.afld (Reg.clkVfp (s.afld (Reg.pwrVset d) Fld.pwrVsetPoint)) Fld.clkVfpMv

/-- RAIL_SETTLED (R467): 5 µs within ±10 mV of the target. -/
def execRailSettled (d : DieId) (mv : BitVec 10) (s : State) : Res :=
  let t := s.targetMv d
  let s := s.setFld (Reg.pwrVset d) Fld.pwrVsetMv mv.toNat
  .next (s.when (decide (mv.toNat ≤ t + 10 ∧ t ≤ mv.toNat + 10)) fun s =>
    (s.setFld (Reg.pwrVset d) Fld.pwrVsetSettled 1).setPower { s.power with oldMv := s.power.oldMv.put 0 d 0 })

/-- RAIL_SETTLE_TIMEOUT (R467): 1 ms without settling. -/
def execRailSettleTimeout (d : DieId) (s : State) : Res :=
  .next (s.when (s.fld (Reg.pwrVset d) Fld.pwrVsetSettled == 0) fun s =>
    s.raise 0x0005 none 0x0005 d (Reg.pwrVset d) (s.reg (Reg.pwrVset d)).toNat)

/-- The voltage target of die d is written to its regulator: a write that is acknowledged is committed, and any other is repeated 10 µs
later; whether it is acknowledged is a free value (R504; log entry 146). -/
def State.writeTarget (s : State) (d : Nat) : State :=
  let ok := Config.avsAck s.free
  let s := (s.send (.avsTarget d (s.targetMv d))).tick
  let s := s.setPower { s.power with avs := s.power.avs.put 0 d (if ok then 0 else s.now.toNat + 1) }
  s.when ok fun s => s.send (.avsCommit d)

/-- A new voltage target goes to the regulator of die d, whose target was old mV (R467, R503, R504). -/
def State.sendTarget (s : State) (d old : Nat) : State :=
  let s := s.setFld (Reg.pwrVset d) Fld.pwrVsetSettled 0
  (s.setPower { s.power with oldMv := s.power.oldMv.put 0 d old }).writeTarget d

/-- PLL_LOCKED (R462, R463): a PLL locks only while REFCLK is stable, for 1 ms (log entry 149). -/
def execPllLocked (p : Pll) (s : State) : Res :=
  let ok := s.fld Reg.clkStatus Fld.clkStatusRefok == 1
  .next (match p with
    | .ref => s.setFld Reg.clkStatus Fld.clkStatusRefok 1
    | .core d => s.when (ok && !s.inPs3 d && !s.power.railDown.contains d.val) fun s => s.setLock Fld.clkStatusCorelock d true
    | .hub => s.when ok fun s => s.setLock Fld.clkStatusHublock 0 true
    | .serdes q => s.when ok fun s => s.setLock Fld.clkStatusSerdeslock q true
    | .base st => s.when ok fun s => s.setLock Fld.clkStatusBaselock st true)

/-- Every lane of a SerDes PLL loses lock: links that are UP retrain, a port that is UP enters GRACE (R463). -/
def State.loseSerdes (s : State) (q : Nat) : State :=
  let s := s.setLock Fld.clkStatusSerdeslock q false
  if q < 8 then s.each (portLinks q) fun s l => s.when (s.linkState l == 3) fun s => s.retrain l
  else s.when (s.portState (q - 8) == 2) fun s => s.portGrace (q - 8)

/-- A clock loss is counted and logged (R463). -/
def State.clockFail (s : State) (code : Nat) : State :=
  (s.bump Reg.clkFails).raise 0x0703 none 0x0006 (if 1 ≤ code ∧ code ≤ 4 then code - 1 else if 6 ≤ code ∧ code ≤ 9 then code - 6 else 4) code 0

/-- Die d receives no edges where neither its PLL nor its oscillator runs: it is isolated (R382, R463). A die in PS3 has its clocks
stopped. -/
def State.checkEdges (s : State) (d : Nat) : State :=
  s.when (s.power.oscOff.contains d && !bit (s.fld Reg.clkStatus Fld.clkStatusCorelock) d && !s.inPs3 d) fun s => s.isolateDie d 1

/-- An oscillator of die d, or of the hub (4), stops. -/
def State.stopOsc (s : State) (d : Nat) : State :=
  s.setPower { s.power with oscOff := if s.power.oscOff.contains d then s.power.oscOff else s.power.oscOff ++ [d] }

/-- Die d runs at point 0 from now on: its points are written 0 (R437, R469). -/
def State.forceDie (s : State) (d : Nat) : State :=
  let f := Reg.clkFset d
  let v := Reg.pwrVset d
  let fNew := s.afld f Fld.clkFsetPoint != 0
  let vNew := s.afld v Fld.pwrVsetPoint != 0
  let old := s.targetMv d
  let zero := fun (s : State) (r : Nat) => (s.setApp r ((s.areg r) &&& 0xFFFFFFF8#32)).setReg r ((s.reg r) &&& 0xFFFFFFF8#32)
  let s := (zero (s.setStale 4) f).when fNew fun s => s.setLock Fld.clkStatusCorelock d false
  let s := (zero s v).when vNew fun s => s.sendTarget d old
  s.setFld v Fld.pwrVsetForced 1

/-- THERMAL_FORCE (R469, Table 17-10). -/
def execThermalForce (d : DieId) (junction : Bool) (degC : BitVec 8) (s : State) : Res :=
  let n := if junction then 12 + d.val else d.val
  .next ((s.readSensor n degC).when (decide (sensorLimit n ≤ degrees degC)) fun s =>
    (s.forceDie d).raise 0x0502 none 0x0061 n n degC.toNat)

/-- The latest reading of sensor n in °C (Table 15-4). -/
def State.reading (s : State) (n : Nat) : Int :=
  degrees (BitVec.ofNat 8 (if n < 12 then s.fld (Reg.twiTemp n) Fld.twiTempDegc else s.fld (Reg.pwrTj (n - 12)) Fld.pwrTjDegc))

/-- The sensors that are not at least 10 °C below their limit (R469). -/
def State.hotSensors (s : State) : List Nat := (upFrom 0 17).filter fun n => decide (sensorLimit n - 10 < s.reading n)

/-- FORCED_CLEAR (R469): every sensor of the die has stayed at least 10 °C below its limit for 10 ms. -/
def execForcedClear (d : DieId) (s : State) : Res :=
  .next (s.when (!([d.val, 12 + d.val].any s.hotSensors.contains)) fun s => s.setFld (Reg.pwrVset d) Fld.pwrVsetForced 0)

/-- A rail fault stops the clocks of die d, which is isolated (R503). -/
def State.railFault (s : State) (d : Nat) : State :=
  let s := (s.setLock Fld.clkStatusCorelock d false).isolateDie d 1
  s.setPower { s.power with railDown := if s.power.railDown.contains d then s.power.railDown else s.power.railDown ++ [d] }

/-- Does the package run: it is neither in PS4 nor held off (R503)? -/
def State.running (s : State) : Bool := !s.power.standby && !s.power.railsOff

/-- The voltage from which the undervoltage threshold of core rail d is measured: its target, and during a change the lower of the old and
the new one (R503). -/
def State.lowTarget (s : State) (d : Nat) : Nat :=
  let t := s.targetMv d
  let old := s.power.oldMv.get 0 d
  if old ≠ 0 ∧ s.fld (Reg.pwrVset d) Fld.pwrVsetSettled = 0 then min old t else t

/-- VCORE_FAULT (R503): a reading in mV, or none where the power-good is lost. -/
def execVcoreFault (f : CoreFault) (s : State) : Res :=
  let low := match f.mv with
    | some m => decide (m.toNat + 60 < s.lowTarget f.die)
    | none => true
  let s := match f.mv with
    | some m => s.setFld (Reg.pwrVset f.die) Fld.pwrVsetMv m.toNat
    | none => s
  .next (s.when (s.running && low) fun s => s.railFault f.die)

/-- VCORE_RESTORED (R503): the die may rejoin. -/
def execVcoreRestored (d : DieId) (s : State) : Res :=
  .next (s.setPower { s.power with railDown := s.power.railDown.filter fun e => e != d.val })

/-- VFIRN_PG_LOSS (R503): as a core rail fault of all four dies. -/
def execVfirnPgLoss (s : State) : Res := .next (s.when s.running fun s => s.each (upFrom 0 4) State.railFault)

/-- VSERDES_PG_LOSS (R503). -/
def execVserdesPgLoss (s : State) : Res := .next (s.when s.running fun s => s.each (upFrom 0 12) State.loseSerdes)

end Sys2Proof.Machine
end

