-- ==== Sys2Proof/Machine/Tenancy.lean ====
section
/-! DEFINITION. Openers of register accesses, the registers that a job owns, and the answer to an access that no rule allows
(R419, R425, R426, Table 13-11; log entry 69). -/
namespace Sys2Proof.Machine

/-- The number of an opener: 0 to 3 a port, 4 the Bridge (Table 14-8). -/
def openerNat : Opener → Nat
  | .port n => n
  | .bridge => 4

/-- Is opener o an admin port or the Bridge (R419)? -/
def State.isAdmin (s : State) (o : Nat) : Bool := o == 4 || s.fld (Reg.plhCfg o) Fld.plhCfgAdmin == 1

/-- The job that owns the register at an offset (Table 13-11). -/
def State.regOwner (s : State) (off : Nat) : Option Nat :=
  if 0x80000 ≤ off ∧ off < 0xC0000 then
    (if (off - 0x80000) % 0x10000 = 0 then none else some (s.portJob ((off - 0x80000) / 0x10000)))
  else if 0xC0200 ≤ off ∧ off < 0xC0210 then some ((off - 0xC0200) / 4)
  else if 0x210000 ≤ off ∧ off < 0x220000 then some (s.partJob ((off - 0x210000) / 0x400))
  else if 0x240000 ≤ off ∧ off < 0x280000 then some (s.partJob ((off - 0x240000) / 0x1000))
  else if 0x281000 ≤ off ∧ off < 0x289000 then some (s.partJob ((off - 0x281000) / 0x200))
  else if 0x300010 ≤ off ∧ off < 0x300090 then
    (if (off - 0x300010) % 0x20 = 0 then none else some ((off - 0x300010) / 0x20))
  else if 0x301000 ≤ off ∧ off < 0x301800 then some (s.dqCfg ((off - 0x301000) / 0x20) Fld.drfDqCfgJob)
  else if 0x400000 ≤ off ∧ off < 0x800000 then s.clusterJob ((off - 0x400000) / 0x2000)
  else none

/-- The bits of a register that only an admin port or the Bridge may write, where the rest is a job's: the JOB fields (Table
13-11). -/
def jobBits (off : Nat) : Nat :=
  if 0x240000 ≤ off ∧ off < 0x280000 ∧ (off - 0x240000) % 0x1000 = 0x38 then 6
  else if 0x301000 ≤ off ∧ off < 0x301800 ∧ (off - 0x301000) % 0x20 = 0 then 6
  else 0

/-- May opener o access the register at an offset (R419)? -/
def State.mayAccess (s : State) (o off : Nat) (write : Bool) : Bool :=
  s.isAdmin o || s.regOwner off == some (s.portJob o) || (!write && decide (off < 0x10000))

/-- An access of port p is refused (R419). -/
def State.deny (s : State) (p off : Nat) : State :=
  (s.bump Reg.plhTenDeny).raise 0x0601 (some (s.portJob p)) 0x0011 p p off

/-- f where opener o may access the register, else the refusal of the access (R419). -/
def State.access (s : State) (o off : Nat) (write : Bool) (f : State → State) : State :=
  if s.mayAccess o off write then f s else s.deny o off

end Sys2Proof.Machine
end

