-- ==== Sys2Proof/Machine/Integrity.lean ====
section
/-! DEFINITION. Configuration integrity: the keyed lock, the commits and the sweep (R428, R429, R435 to R438; log entries 60 and
61). -/
namespace Sys2Proof.Machine

/-! ## The keyed lock (R428) -/

/-- Is the keyed lock of opener o open? -/
def State.lockOpen (s : State) (o : Nat) : Bool := bit (s.fld Reg.cfiStatus Fld.cfiStatusOpen) o

/-- Opens or closes it. -/
def State.setLockOpen (s : State) (o : Nat) (on : Bool) : State :=
  s.setFld Reg.cfiStatus Fld.cfiStatusOpen (setBits (s.fld Reg.cfiStatus Fld.cfiStatusOpen) o 1 (b2n on))

/-- A write to CFI_UNLOCK (R428). -/
def State.unlock (s : State) (o view key : Nat) : State :=
  if view ≠ 0 then s
  else if key = 0xC5A3 then s.setLockOpen o true
  else (s.setLockOpen o false).bump Reg.cfiKeyfail

/-- CFI_UNLOCK (R428). -/
def execCfiUnlock (o : Opener) (view : Fin 4) (key : BitVec 16) (s : State) : Res :=
  .next (s.access (openerNat o) Reg.cfiUnlock true fun s => s.unlock (openerNat o) view key.toNat)

/-! ## Commits (R434, R436, R437) -/

/-- Does domain d hold an isolated die (R437)? -/
def State.sweepSkipped (s : State) (d : Nat) : Bool :=
  decide (d < 4) && (s.dieCut d || s.stackCut (2 * d) || s.stackCut (2 * d + 1))

/-- A commit that names domain d takes effect: a domain that is skipped stays stale (R436, R437). -/
def State.armDomain (s : State) (d : Nat) (learn : Bool) : State :=
  let s := s.setFld Reg.cfiStatus Fld.cfiStatusArmed (setBits (s.fld Reg.cfiStatus Fld.cfiStatusArmed) d 1 1)
  let s := s.when (!s.sweepSkipped d) fun s =>
    s.setFld Reg.cfiStatus Fld.cfiStatusStale (setBits (s.fld Reg.cfiStatus Fld.cfiStatusStale) d 1 0)
  let rest := s.hub.learn.filter fun e => e != d
  s.setHub { s.hub with learn := if learn then rest ++ [d] else rest }

/-- A commit takes effect on every domain that it names. -/
def State.arm (s : State) (domains : Nat) (learn : Bool) : State :=
  s.each (onesFrom 0 5 domains) fun s d => s.armDomain d learn

/-- A write to CFI_COMMIT: one that arrives during an epoch attempt waits for its end (R434). -/
def State.commitDomains (s : State) (domains : Nat) (learn : Bool) : State :=
  match s.hub.attempt with
  | some _ => s.setHub { s.hub with commits := s.hub.commits ++ [(domains, learn)] }
  | none => s.arm domains learn

/-- CFI_COMMIT (R436). -/
def execCfiCommit (domains : BitVec 5) (learn : Bool) (s : State) : Res := .next (s.commitDomains domains.toNat learn)

/-! ## The sweep (R435, R438) -/

/-- The one register that an offset reaches: MOR_HMAP stands at every stack's offset (R231). -/
def canonOff (off : Nat) : Nat :=
  if 0x800000 ≤ off ∧ (off - 0x800000) % 0x100000 = 0xC0000 then Reg.morHmap 0 else off

/-- The offsets of sweep domain d, in ranges in ascending order (Table 14-6). -/
def sweepRanges (d : Nat) : List (Nat × Nat) :=
  if d < 4 then [(0x400000 + d * 0x100000, 0x100000), (0x800000 + d * 0x200000, 0x200000)] else [(0, 0x400000)]

/-- The registers of domain d that hold a configuration field, in ascending offset. -/
def sweepOffsets (d : Nat) : List Nat :=
  (sweepRanges d).flatMap fun r => ((upFrom 0 (r.2 / 4)).map fun i => r.1 + 4 * i).filter fun o =>
    match regAt o with
    | some x => x.cfg != 0
    | none => false

/-- The eight bytes that a register feeds to the sweep of its domain (R435). -/
def State.sweepBytes (s : State) (off : Nat) : Bytes :=
  let m := match regAt off with | some x => x.cfg | none => 0
  leBytes 4 off ++ leBytes 4 ((s.areg (canonOff off)).toNat &&& m)

/-- The CRC of a full sweep of domain d (R435). -/
def State.sweepCrc (s : State) (d : Nat) : W32 := crc32c ((sweepOffsets d).flatMap s.sweepBytes)

/-- CONFIG_SWEEP (R435 to R438): the time that it takes, at most 50 µs, is a free value. -/
def execConfigSweep (d : Fin 5) (s : State) : Res :=
  .next (s.when (!s.sweepSkipped d) fun s =>
    let c := s.sweepCrc d
    let s := (s.maxReg Reg.cfiSweepMax ((Config.freeWord s.free 0).toNat % 50001)).tick
    let s := s.setReg (Reg.cfiCrc d) c
    if s.hub.learn.contains d.val then
      let s := s.setReg (Reg.cfiRef d) c
      s.setHub { s.hub with learn := s.hub.learn.filter fun e => e != d.val }
    else
      let on := bit (s.fld Reg.cfiStatus Fld.cfiStatusArmed) d && !bit (s.fld Reg.cfiStatus Fld.cfiStatusStale) d
      let ref := s.reg (Reg.cfiRef d)
      s.when (on && c != ref) fun s =>
        let s := s.bump Reg.cfiDrifts
        let v := s.fld Reg.cfiStatus Fld.cfiStatusDrift
        s.when (!bit v d) fun s =>
          (s.setFld Reg.cfiStatus Fld.cfiStatusDrift (v + 2 ^ d.val)).raise 0x0003 none 0x0003 d d (ref.toNat * 2 ^ 32 + c.toNat))

/-- Is the alert pin asserted (R438, R469, R503)? -/
def State.alertPin (s : State) : Bool :=
  s.power.alert || (s.fld Reg.cfiCfg Fld.cfiCfgAlert == 1 && s.fld Reg.cfiStatus Fld.cfiStatusDrift != 0)

end Sys2Proof.Machine
end

