-- ==== Sys2Proof/Machine/Epoch.lean ====
section
/-! DEFINITION. Configuration epochs: the attempt, the checks of the home chapters, the commit and the rollback (R38, R98, R144,
R163, R219, R294, R329, R383, R385, R387, R430 to R434, R451, R459, R466 to R468; log entries 62 to 66). -/
namespace Sys2Proof.Machine

/-! ## The content of an attempt (R427, R430, R431) -/

/-- The units that hold the staged value at an offset: unit code and instance (Table 15-4). -/
def stagedUnits (off : Nat) : List (Nat × Nat) :=
  if off < 0x10030 then [(0x0005, (off - 0x10020) / 4)]
  else if off < 0x20030 then [(0x0006, 4)]
  else if off < 0x100000 then [(0x0006, (off - 0x20040) / 4)]
  else if off < 0x180000 then [(0x0020, (off - 0x100000) / 0x4000)]
  else if off < 0x180010 then [(0x0022, 0)]
  else if off < 0x180400 then [(0x0021, (off - 0x180010) / 4)]
  else if off < 0x200000 then [(0x0021, (off - 0x180400) / 0x100)]
  else if off < 0x240000 then [(0x0030, (off - 0x201000) / 0x80)]
  else if off < 0x300000 then [(0x0032, (off - 0x240000) / 0x1000)]
  else if off < 0x400000 then [(0x0060, (off - 0x380100) / 0x20)]
  else if off < 0x800000 then [(0x0100, (off - 0x400000) / 0x2000 * 8 + (off - 0x400400) % 0x2000 / 0x40)]
  else (upFrom 0 8).map fun st => (0x0200, st)

/-- The registers whose staged value differs from the applied one. -/
def State.stagedDiffs (s : State) : List Nat :=
  let c := s.regs.cur.map Prod.fst
  let a := (s.regs.app.map Prod.fst).filter fun o => !c.contains o
  (c ++ a).filter fun o => s.reg o != s.areg o

/-- Does an offset belong to a die that is isolated: an attempt covers only the dies that are ACTIVE (R385)? The voltage and frequency
points of a Cirque die belong to that die's controllers (Table 12-10). -/
def State.offCut (s : State) (off : Nat) : Bool :=
  if 0x400000 ≤ off ∧ off < 0x800000 then s.dieCut ((off - 0x400000) / 0x100000)
  else if 0x10020 ≤ off ∧ off < 0x10030 then s.dieCut ((off - 0x10020) / 4)
  else if 0x20040 ≤ off ∧ off < 0x20050 then s.dieCut ((off - 0x20040) / 4)
  else false

/-- Does a unit lie on a die that is isolated? -/
def State.unitCut (s : State) (u : Nat × Nat) : Bool :=
  match u.1 with
  | 0x0200 => s.stackCut u.2
  | 0x0005 => s.dieCut u.2
  | 0x0006 => decide (u.2 < 4) && s.dieCut u.2
  | 0x0100 => s.dieCut (u.2 / 1024)
  | _ => false

/-- A list without repeats. -/
def dedup {α : Type} [BEq α] (l : List α) : List α := l.foldl (fun r x => if r.contains x then r else r ++ [x]) []

/-- A register's value once the attempt has committed; of the staged fields alone it is that of the snapshot. -/
def State.after (s : State) (snap : List (Nat × W32)) (off : Nat) : W32 :=
  match snap.find? fun e => e.1 == off with
  | some e => e.2
  | none => s.areg off

/-- The clusters of partition p's map by a reading of the registers. -/
def mapClusters (rd : Nat → W32) (p : Nat) : List Nat :=
  (upFrom 0 16).flatMap fun n => onesFrom (32 * n) 32 (rd (Reg.stgPartMap p n)).toNat

/-- The enabled partition that holds cluster g, by a reading of the registers. -/
def partOfBy (rd : Nat → W32) (g : Nat) : Option Nat :=
  (upFrom 0 64).find? fun p => Fld.stgPartCtrlEnable.of (rd (Reg.stgPartCtrl p)) == 1 &&
    bit (rd (Reg.stgPartMap p (g / 32))).toNat (g % 32)

/-! ## Checks (R431) -/

/-- Table 2-1: the code of the first check that partition p fails. -/
def State.partCheck (s : State) (rd : Nat → W32) (p : Nat) : Nat :=
  let ctrl := rd (Reg.stgPartCtrl p)
  let on := Fld.stgPartCtrlEnable.of ctrl == 1
  let m := mapClusters rd p
  let excl := fun g => bit (s.reg (Reg.stgExclude (g / 32))).toNat (g % 32)
  let other := fun q => q != p && Fld.stgPartCtrlEnable.of (rd (Reg.stgPartCtrl q)) == 1 &&
    m.any fun g => bit (rd (Reg.stgPartMap q (g / 32))).toNat (g % 32)
  let busy := (upFrom (4 * p) 4).any fun c => decide (1 ≤ s.ctxState c ∧ s.ctxState c ≤ 3)
  let moves := m != mapClusters s.areg p || Fld.stgPartCtrlJob.of ctrl != s.partJob p
  let high := (upFrom 0 4).any fun v => decide (Fld.stgPartCtrlVstages.of ctrl < v) && s.ctxState (4 * p + v) != 0
  if on && m == [] then 1
  else if m.any excl then 2
  else if (upFrom 0 64).any other then 3
  else if moves && busy then 4
  else if high then 5
  else 0

/-- Table 5-19 for core c. -/
def State.coreCheck (s : State) (rd : Nat → W32) (c : Nat) : Nat :=
  s.gerr (fun x => Fld.cirMcCtrlEn.of (rd (Reg.cirMcCtrl (x / 8) (x % 8))) == 1)
    (fun x => Fld.cirMcGangLeader.of (rd (Reg.cirMcGang (x / 8) (x % 8)))) (partOfBy rd) c

/-- The cores with EN = 1, by a reading of the registers of the attempt. -/
def State.enabledCores (s : State) (rd : Nat → W32) : List Nat :=
  let offs := dedup (s.regs.cur.map Prod.fst ++ s.regs.app.map Prod.fst)
  (offs.filter fun o => decide (0x400000 ≤ o ∧ o < 0x800000 ∧ 0x400 ≤ o % 0x2000 ∧ o % 0x2000 < 0x600 ∧ o % 0x40 = 0) &&
    Fld.cirMcCtrlEn.of (rd o) == 1).map fun o => (o - 0x400000) / 0x2000 * 8 + (o - 0x400400) % 0x2000 / 0x40

/-- Code 0x6 of Table 15-7: the point table. In the attempt of a start no die uses a point (R496). -/
def State.tableCheck (s : State) (rd : Nat → W32) (start : Bool) : Nat :=
  let f := fun n => Fld.clkVfpMhz.of (rd (Reg.clkVfp n))
  let v := fun n => Fld.clkVfpMv.of (rd (Reg.clkVfp n))
  let rises := (upFrom 0 7).all fun n => decide (f n < f (n + 1) ∧ v n < v (n + 1))
  let fits := (upFrom 0 8).all fun n => decide (f n ≤ 2000 ∧ 600 ≤ v n ∧ v n ≤ 900)
  let inUse := fun n => (upFrom 0 4).any fun d => s.afld (Reg.clkFset d) Fld.clkFsetPoint == n || s.afld (Reg.pwrVset d) Fld.pwrVsetPoint == n
  let used := !start && (upFrom 0 8).any fun n => rd (Reg.clkVfp n) != s.areg (Reg.clkVfp n) && inUse n
  if rises && fits && !used then 0 else 6

/-- Table 15-7 for die d, in order: 0 where no check fails (R466). -/
def State.dieCheck (s : State) (rd : Nat → W32) (start : Bool) (d : Nat) : Nat :=
  let f := Fld.clkFsetPoint.of (rd (Reg.clkFset d))
  let v := Fld.pwrVsetPoint.of (rd (Reg.pwrVset d))
  let f0 := s.afld (Reg.clkFset d) Fld.clkFsetPoint
  let v0 := s.afld (Reg.pwrVset d) Fld.pwrVsetPoint
  if f ≠ f0 ∧ v0 < f then 1
  else if v ≠ v0 ∧ v < f0 then 2
  else if f0 < f ∧ s.fld (Reg.pwrVset d) Fld.pwrVsetSettled = 0 then 3
  else if f ≠ f0 ∧ v ≠ v0 then 4
  else if s.fld (Reg.pwrVset d) Fld.pwrVsetForced = 1 then 5
  else if s.tableCheck rd start ≠ 0 then 6
  else if s.inPs3 d then 7
  else 0

/-- The check of fabric port p: a reserved code, a lower k_v under an admitted transfer, or reservations that are not covered
(R329). -/
def State.portOk (s : State) (rd : Nat → W32) (p : Nat) : Bool :=
  let codes := (upFrom 0 (resLen rd p)).all fun i => decide (resCode rd p i < 8) || resCode rd p i == 15
  let kept := (upFrom 0 8).all fun v => s.admittedOn p v == [] || decide (resCount s.areg p v ≤ resCount rd p v)
  codes && kept && s.covered rd p

/-- The check of LNK_DEVADDR and LNK_AXES (R294). -/
def fabricOk (rd : Nat → W32) : Bool :=
  let len := fun i => bits (rd Reg.lnkAxes).toNat (8 * i) 8 + 1
  decide (len 0 * len 1 * len 2 * len 3 ≤ 65536) && (upFrom 0 4).all fun i => decide (axisIx (rd Reg.lnkDevaddr) i < len i)

/-- A code that no rule gives, as a free value of 8 bits that is not zero. -/
def State.freeCode (s : State) : Nat := (Config.freeWord s.free 0).toNat % 255 + 1

/-- Has a controller a request to a window whose mode changes: in its window, at a port that waits, or a read of a copy engine without
its answer (R219)? -/
def State.windowBusy (s : State) (rd : Nat → W32) (st : Nat) : Bool :=
  let ch := ((rd (Reg.morHmap 0)).toNat ^^^ (s.areg (Reg.morHmap 0)).toNat) % 256
  let x := s.stack st
  let reads : CopyReq → Bool := fun r =>
    r.st == .issued && decide (r.src < firnBase) && bit ch (r.src / 2 ^ 37) && (s.hbmMap r.src).1 == st
  (x.window ++ x.waiting).any (fun r => bit ch (r.addr / 2 ^ 34)) || s.chans.any fun c => c.2.reqs.any reads

/-- Waits the commit of an attempt for a request to a window whose mode changes (R219)? -/
def State.hmapHeld (s : State) (a : Attempt) : Bool :=
  a.ready.any fun u => u.1 == 0x0200 && s.windowBusy (s.after a.snap) u.2

/-- The failure code of a unit's checks, 0 where they pass; none while its report has to wait. -/
def State.unitCheck (s : State) (a : Attempt) (u : Nat × Nat) : Option Nat :=
  let rd := s.after a.snap
  match u.1 with
  | 0x0005 => some (s.dieCheck rd a.start u.2)
  | 0x0006 => some (if u.2 = 4 then s.tableCheck rd a.start else s.dieCheck rd a.start u.2)
  | 0x0021 => some (if s.portOk rd u.2 then 0 else s.freeCode)
  | 0x0022 => some (if fabricOk rd then 0 else s.freeCode)
  | 0x0030 => some (s.partCheck rd u.2)
  | 0x0032 => some (if s.tab u.2 = 1 then s.freeCode else 0)
  | 0x0100 => some (s.coreCheck rd u.2)
  | 0x0200 => if s.windowBusy rd u.2 then none else some 0
  | _ => some 0

/-- The unit reports a code that no rule gives. -/
def codeIsFree (u : Nat × Nat) : Bool := u.1 == 0x0021 || u.1 == 0x0022 || u.1 == 0x0032

/-! ## State of the units (R433) -/

/-- The key of a unit in hub.parts. -/
def unitKey (u : Nat × Nat) : Nat := u.1 * 65536 + u.2

/-- A unit's part in the latest attempt. -/
def State.epochPart (s : State) (u : Nat × Nat) : EpochPart := s.hub.parts.get {} (unitKey u)

/-- Replaces it. -/
def State.setEpochPart (s : State) (u : Nat × Nat) (x : EpochPart) : State :=
  s.setHub { s.hub with parts := s.hub.parts.put {} (unitKey u) x }

/-- Writes the state of a unit (Table 14-4). -/
def State.setUnit (s : State) (u : Nat × Nat) (v : Nat) : State := s.setEpochPart u { s.epochPart u with state := v }

/-- Replaces the attempt. -/
def State.setAttempt (s : State) (a : Option Attempt) : State := s.setHub { s.hub with attempt := a }

/-- The attempt number (R430). -/
def State.attemptNo (s : State) : Nat := (s.reg Reg.glbEpochAtt).toNat

/-! ## The end of an attempt (R163, R387, R432, R434, R459) -/

/-- The cores whose state is not that of reset. -/
def State.knownCores (s : State) : List Nat :=
  (dedup (s.regs.cur.map Prod.fst)).filterMap fun o =>
    if 0x400000 ≤ o ∧ o < 0x800000 ∧ 0x400 ≤ o % 0x2000 ∧ o % 0x2000 < 0x600 ∧ o % 0x40 = 0x14 then
      some ((o - 0x400000) / 0x2000 * 8 + (o - 0x400400) % 0x2000 / 0x40)
    else none

/-- Core c counts its headers from ordinal 0 again (R147, R163). -/
def State.restartCore (s : State) (c : Nat) : State :=
  (s.setCore c { s.core c with hdrs := [] }).setFld (Reg.cirMcStatus (c / 8) (c % 8)) Fld.cirMcStatusOrdinal 0

/-- A gang that has lost its leader rejoins where no member holds an MSTREAM and the applied settings pass (R163). -/
def State.rejoinGang (s : State) (l : Nat) : State :=
  let ms := s.knownCores.filter fun c => s.coreOn c && s.coreLeader c == l && s.gstate c != 0
  let idle := ms.all fun c => !((s.core c).fifo.any fun i => i.op == 2)
  let ok := s.coreOn l && s.coreLeader l == l && (dedup (l :: ms)).all fun c => s.coreCheck s.areg c == 0
  s.when (idle && ok) fun s => s.each (dedup (l :: ms)) fun s c => (s.setGstate c 1).restartCore c

/-- Every gang that may rejoin does. -/
def State.rejoinGangs (s : State) : State :=
  s.each (dedup ((s.knownCores.filter fun c => s.gstate c == 2).map s.coreLeader)) fun s l => s.rejoinGang l

/-- Every enabled core whose check passes shows no GERR (R144). -/
def State.clearGerr (s : State) : State :=
  s.each (s.knownCores.filter fun c => s.coreOn c && s.coreCheck s.areg c == 0) fun s c =>
    s.setFld (Reg.cirMcStatus (c / 8) (c % 8)) Fld.cirMcStatusGerr 0

/-- Every attempt that completes is an epoch boundary: the cores are checked, combining queues without a reader are dead, dies and gangs
rejoin. -/
def State.boundary (s : State) : State := s.clearGerr.dropDead.rejoin.rejoinGangs

/-- The attempt is over: held clusters go back to their state, and commits that have waited take effect. -/
def State.endAttempt (s : State) (a : Attempt) (result : Nat) : State :=
  let s := (s.setAttempt none).setFld Reg.glbEpochCtrl Fld.glbEpochCtrlState 0
  let s := s.setFld Reg.glbEpochCtrl Fld.glbEpochCtrlResult result
  let s := s.each a.held fun s h => s.when (s.fld (Reg.cirPmCtrl h.1) Fld.cirPmCtrlReq == h.2) fun s => s.enterPm h.1 h.2 true
  let l := s.hub.commits
  (s.setHub { s.hub with commits := [] }).each l fun s c => s.arm c.1 c.2

/-- The attempt rolls back (R432): the failing unit with its code, or the timeout. -/
def State.rollback (s : State) (a : Attempt) (fail : Option ((Nat × Nat) × Nat)) : State :=
  let s := s.each a.ready fun s u => s.setUnit u 5
  let s := s.each a.waiting fun s u => s.setUnit u 4
  let s := match fail with
    | some (u, code) =>
      let s := s.setUnit u 3
      let s := s.when (u.1 == 0x0100) fun s => s.setFld (Reg.cirMcStatus (u.2 / 8) (u.2 % 8)) Fld.cirMcStatusGerr code
      s.setReg Reg.glbEpochFail (BitVec.ofNat 32 (u.1 + code % 256 * 2 ^ 16))
    | none => s.setReg Reg.glbEpochFail (BitVec.ofNat 32 (2 ^ 24))
  let failed : List (Nat × Nat) := match fail with | some f => [f.1] | none => []
  let parts := (a.ready ++ a.waiting ++ failed).filter fun u => u.1 == 0x0030
  let s := s.each parts fun s u =>
    let err := match fail with | some (v, code) => if v = u then code else 0 | none => 0
    let r := Reg.stgPartStatus u.2
    ((s.setFld r Fld.stgPartStatusState 2).setFld r Fld.stgPartStatusErr err).setFld r Fld.stgPartStatusEpoch s.attemptNo
  let s := (s.bump Reg.glbRollbacks).endAttempt a 1
  s.raise 0x0007 none 0x0002 0 s.attemptNo (s.reg Reg.glbEpochFail).toNat

/-! ## Commit (R431) -/

/-- Partition p is applied (R36, R96, R387): what its registers were is told by clusters gs and whether it was on. CLUSTERS is 0
where it is off (log entry 106). -/
def State.applyPart (s : State) (p : Nat) (was : Bool) (gs : List Nat) : State :=
  let on := s.partOn p
  let m := mapClusters s.areg p
  let cut := (upFrom 0 4).filter fun d => s.dieCut d && m.any fun g => g / 128 == d
  let lost := s.power.lost.filter (fun e => e.1 != p) ++ cut.map fun d => (p, d)
  let s := s.setPower { s.power with lost := lost }
  let gone := gs.filter fun g => !on || !s.mapHas p g
  let s := s.each gone fun s g => s.each (upFrom (4 * g) 3) fun s k => s.dropThread k
  let s := s.when (was != on) fun s => (s.setTab p 0).setPart p {}
  s.setReg (Reg.stgPartStatus p)
    (BitVec.ofNat 32 (b2n on + (if on then m.length else 0) * 4 + s.attemptNo % 65536 * 2 ^ 16))

/-- The setting of core c is applied (R144, R147): it and the gangs that it leaves and joins start their ordinals anew. old: the leader
of the gang that it was in. -/
def State.applyCore (s : State) (c : Nat) (old : List Nat) : State :=
  let s := s.setFld (Reg.cirMcStatus (c / 8) (c % 8)) Fld.cirMcStatusGerr 0
  let s := s.setGstate c (b2n (s.coreOn c))
  let ls := old ++ if s.coreOn c then [s.coreLeader c] else []
  s.each (dedup (c :: (ls ++ ls.flatMap s.members))) fun s x => s.restartCore x

/-- The windows whose mode changes have undefined content (R219); an error stays where it is in its stack. -/
def State.applyHmap (s : State) (old : State) : State :=
  let ch := (s.areg (Reg.morHmap 0)).toNat ^^^ (old.areg (Reg.morHmap 0)).toNat
  let ws := (upFrom 0 8).filter fun w => bit ch w
  let move : Nat → Nat := fun a => if a < firnBase ∧ ws.contains (a / 2 ^ 37) then s.hbmAddr (old.hbmMap a).1 (old.hbmMap a).2 else a
  let s := s.setMem { s.mem with ue := s.mem.ue.map move, ce := s.mem.ce.map move }
  s.each ws fun s w => s.smear (w * 2 ^ 37) (2 ^ 37)

/-- A unit switches to its new values; old is the state before the commit. -/
def State.applyUnit (s : State) (old : State) (u : Nat × Nat) : State :=
  match u.1 with
  | 0x0005 => s.sendTarget u.2 (old.targetMv u.2)
  | 0x0006 => s.when (decide (u.2 < 4)) fun s => s.setLock Fld.clkStatusCorelock u.2 false
  | 0x0020 => s.applyLinkEn u.2 (s.afld (Reg.lnkCtrl u.2) Fld.lnkCtrlEn == 1)
  | 0x0021 => s.when (s.ethPort u.2 != old.ethPort u.2) fun s => s.applyMode u.2
  | 0x0030 => s.applyPart u.2 (old.partOn u.2) (if old.partOn u.2 then old.partClusters u.2 else [])
  | 0x0060 => s.when (s.afld (Reg.twiLctrl u.2) Fld.twiLctrlEn == 0) fun s =>
      match twiPartner u.2 with
      | .inl st => s.resetBase st
      | .inr d => s.resetCirque d
  | 0x0100 => s.applyCore u.2 (if old.coreOn u.2 then [old.coreLeader u.2] else [])
  | _ => s

/-- The attempt commits: every value of its content is applied, and every unit switches (R431). -/
def State.commitAttempt (s : State) (a : Attempt) : State :=
  let old := s
  let s := s.each a.snap fun s e => s.setApp e.1 e.2
  let s := s.when (a.snap.any fun e => e.1 == Reg.morHmap 0) fun s => s.applyHmap old
  let s := s.each a.ready fun s u => (s.applyUnit old u).setEpochPart u ⟨2, s.attemptNo % 65536⟩
  let s := s.setReg Reg.glbEpoch (s.reg Reg.glbEpochAtt)
  let s := s.each (dedup (a.snap.flatMap fun e =>
    if e.1 = Reg.morHmap 0 then upFrom 0 4 else [domainOf e.1])) fun s d => s.setStale d
  let s := (s.raise 0x0008 none 0x0002 0 s.attemptNo 0).endAttempt a 0
  s.boundary

/-! ## Prepare (R430, R451, R459) -/

/-- Inserts a unit into a list in ascending order of code and instance. -/
def insertUnit (u : Nat × Nat) : List (Nat × Nat) → List (Nat × Nat)
  | [] => [u]
  | v :: r => if unitKey u < unitKey v then u :: v :: r else if u = v then v :: r else v :: insertUnit u r

/-- A list of units in ascending order, without repeats. -/
def sortUnits (l : List (Nat × Nat)) : List (Nat × Nat) := l.foldl (fun r u => insertUnit u r) []

/-- The clusters that the prepare phase wakes: those of cores with a part, and those that a map places in a partition. -/
def State.prepareClusters (s : State) (rd : Nat → W32) (us : List (Nat × Nat)) : List Nat :=
  dedup (us.flatMap fun u =>
    if u.1 = 0x0100 then [u.2 / 8]
    else if u.1 = 0x0030 ∧ Fld.stgPartCtrlEnable.of (rd (Reg.stgPartCtrl u.2)) = 1 then
      (mapClusters rd u.2).filter fun g => s.partOf g == none && !s.dieCut (g / 128)
    else [])

/-- The prepare phase wakes the units with a part; it answers the held clusters with their state. -/
def State.prepare (s : State) (rd : Nat → W32) (us : List (Nat × Nat)) : State × List (Nat × Nat) :=
  let gs := s.prepareClusters rd us
  let dies := dedup (gs.map (· / 128) ++ (us.filter fun u => u.1 == 0x0200).map fun u => u.2 / 2)
  let s := s.each dies fun s d => s.wakeAsleep d 0x0002 0
  let s := s.each gs fun s g => s.abortPm g 0x0002 0
  let held := (gs.filter s.pmHeld).map fun g => (g, s.pmState g)
  (s.each (gs.filter fun g => s.pmState g != 0) fun s g => s.wakeCluster g, held)

/-- An attempt starts: its number, its snapshot, and the units that have a part (R430, R144). -/
def State.startAttempt (s : State) (start : Bool) : State :=
  let s := s.setReg Reg.glbEpochAtt (s.reg Reg.glbEpochAtt + 1)
  let idle : Nat × EpochPart → Option (Nat × EpochPart) := fun e =>
    if e.2.epoch = 0 then none else some (e.1, { e.2 with state := 0 })
  let s := s.setHub { s.hub with parts := s.hub.parts.filterMap idle }
  let snap := (s.stagedDiffs.filter fun o => !s.offCut o).map fun o => (o, s.reg o)
  let rd := s.after snap
  let mine := (snap.flatMap fun e => stagedUnits e.1).filter fun u => !s.unitCut u
  let broken := if snap = [] then [] else ((s.enabledCores rd).filter fun c => s.coreCheck rd c != 0).map fun c => (0x0100, c)
  let us := sortUnits (mine ++ broken)
  let (s, held) := s.prepare rd us
  let a : Attempt := { snap := snap, waiting := us, held := held, start := start }
  if us = [] then s.commitAttempt a
  else (s.setAttempt (some a)).setFld Reg.glbEpochCtrl Fld.glbEpochCtrlState 1

/-- ADVANCE (R430) by a write of v. -/
def State.advanceEpoch (s : State) (v : Nat) : State :=
  if s.hub.attempt.isSome then s.writeIgnored none 0x0002 0 Reg.glbEpochCtrl v
  else s.startAttempt false

/-- EPOCH_ADVANCE (R430). -/
def execEpochAdvance (o : Opener) (s : State) : Res := .next (s.access (openerNat o) Reg.glbEpochCtrl true fun s => s.advanceEpoch 1)

/-- DISCARD (R432). -/
def State.discardEpoch (s : State) : State :=
  s.when (s.hub.attempt == none) fun s => s.each s.stagedDiffs fun s o => s.setReg o (s.areg o)

/-- EPOCH_DISCARD (R432). -/
def execEpochDiscard (s : State) : Res := .next s.discardEpoch

/-- A wrong-order refusal is counted and logged with the requested point (R466): the voltage point that code 0x2 refuses, or that a power
controller reports with code 0x4, else the frequency point. -/
def State.vfRefused (s : State) (rd : Nat → W32) (u : Nat × Nat) (code : Nat) : State :=
  let n := if code = 2 ∨ code = 4 ∧ u.1 = 0x0005 then Fld.pwrVsetPoint.of (rd (Reg.pwrVset u.2)) else Fld.clkFsetPoint.of (rd (Reg.clkFset u.2))
  (s.bump Reg.clkVfrefused).raise 0x0701 none u.1 u.2 n 0

/-- A unit reports (R431, R432, R466). -/
def State.unitReport (s : State) (a : Attempt) (u : Nat × Nat) : State :=
  match s.unitCheck a u with
  | none => s
  | some code =>
    let rest := a.waiting.filter fun v => v != u
    if code = 0 then
      let s := (s.setAttempt (some { a with waiting := rest, ready := a.ready ++ [u] })).setUnit u 1
      s.when (rest == [] && !a.blocked) fun s => s.setFld Reg.glbEpochCtrl Fld.glbEpochCtrlState 2
    else
      let s := s.when (codeIsFree u) State.tick
      let s := s.when ((u.1 == 0x0005 || u.1 == 0x0006) && decide (code < 5)) fun s => s.vfRefused (s.after a.snap) u code
      s.rollback { a with waiting := rest } (some (u, code))

/-- EPOCH_UNIT_REPORT (R431). -/
def execEpochUnitReport (u : UnitRef) (s : State) : Res :=
  .next (match s.hub.attempt with
    | some a => s.when (a.waiting.contains (u.code, u.index)) fun s => s.unitReport a (u.code, u.index)
    | none => s)

/-- EPOCH_COMMIT (R431): a window's new mode is applied once no request to it is held or in flight (R219). -/
def execEpochCommit (s : State) : Res :=
  .next (match s.hub.attempt with
    | some a => s.when (a.waiting == [] && !a.blocked && !s.hmapHeld a) fun s => s.commitAttempt a
    | none => s)

/-- EPOCH_TIMEOUT (R219, R385, R432): TMO µs are over, and some unit has not reported or a window is still in use. -/
def execEpochTimeout (s : State) : Res :=
  .next (match s.hub.attempt with
    | some a => s.when (a.waiting != [] || a.blocked || s.hmapHeld a) fun s => s.rollback a none
    | none => s)

/-- The reports of an attempt one after another, n of them at most. -/
def State.runReports : Nat → State → State
  | 0, s => s
  | n + 1, s =>
    match s.hub.attempt with
    | none => s
    | some a =>
      match a.waiting with
      | [] => if a.blocked then s.rollback a none else s.commitAttempt a
      | u :: _ =>
        let s' := s.unitReport a u
        if s'.hub.attempt = some a then s.rollback a none else State.runReports n s'

/-- The attempt of a start (R472, R496), whole. -/
def State.bootAttempt (s : State) : State :=
  let s := s.startAttempt true
  match s.hub.attempt with
  | some a => State.runReports (a.waiting.length + 1) s
  | none => s

end Sys2Proof.Machine
end

