-- ==== Sys2Proof/Machine/Log.lean ====
section
/-! DEFINITION. The event log and the setting of global time (R414, R439 to R443, R446; log entries 70 and 71). -/
namespace Sys2Proof.Machine

/-! ## Records (R439 to R442) -/

/-- The 32 bytes of an event record (Table 14-7). -/
def eventBytes (seq : Nat) (e : Event) : Bytes :=
  let job := match e.job with | some j => 4 + 8 * j | none => 0
  leBytes 8 e.time.toNat ++ leBytes 2 e.code ++ leBytes 1 (sevOf e.code + job) ++ leBytes 1 0 ++ leBytes 2 e.unit ++
    leBytes 2 e.index ++ leBytes 4 seq ++ leBytes 4 e.arg0 ++ leBytes 8 e.arg1

/-- Writes a record to the log's copy in HBM, without an ownership check (R442): a write that leaves HBM, or that a retired page, an isolated
stack or an uncorrectable error in its burst discards (R514), fails. -/
def State.copyRecord (s : State) (seq : Nat) (b : Bytes) : State :=
  let n := min 1048576 (s.fld Reg.timEvLen Fld.timEvLenRecords)
  if s.fld Reg.timEvCfg Fld.timEvCfgHbm = 0 ∨ n = 0 then s
  else
    let a := s.fld Reg.timEvBase Fld.timEvBasePage * 4096 + seq % n * 32
    let hbm := decide (a + 32 ≤ firnBase)
    let lost := !hbm || (s.cutIn a 32).isSome || (s.retiredPages.any fun p => overlaps a 32 p 2048) ||
      s.mem.ue.any fun m => overlaps a 32 m (errWord m)
    (s.when hbm fun s => s.store a b).when lost fun s => s.bump Reg.timEvHbmerr

/-- An EVENT record for job j goes to the message ring of port p where that is enabled, 64 at most wait for a job (R414). -/
def State.sendEvent (s : State) (p j : Nat) (b : Bytes) : State :=
  if s.mqOn p = false then s
  else if 64 ≤ ((s.port p).recs.filter fun r => r.event && r.job == some j).length then s.bump (Reg.plhMqLost p)
  else s.pushRecord p { bytes := recHead 2 1 s.now ++ List.replicate 16 0 ++ b, event := true, job := some j }

/-- An event reaches the message rings: its job's, or those of the admin ports where it has none (R414). -/
def State.tellEvent (s : State) (e : Event) (b : Bytes) : State :=
  match e.job with
  | some j => s.sendEvent (s.mqPort j) j b
  | none => s.each ((upFrom 0 4).filter s.isAdmin) fun s p => s.sendEvent p (s.portJob p) b

/-- The event takes the next SEQ and is logged (R441, R442). -/
def State.logEvent (s : State) (e : Event) : State :=
  let seq := s.log.next % 2 ^ 32
  let l := s.log
  let s := (s.setLog { l with held := ((seq, e) :: l.held).take 256, next := l.next + 1
                              logged := l.logged.put 0 e.code (l.logged.get 0 e.code + 1) })
  let b := eventBytes seq e
  (s.copyRecord seq b).tellEvent e b

/-- Is a further event of a code suppressed in the current window (R443)? -/
def State.suppressed (s : State) (code : Nat) : Bool :=
  let burst := s.fld Reg.timEvCfg Fld.timEvCfgBurst
  burst != 0 && sevOf code != 3 && code != 0x0002 && decide (burst ≤ s.log.logged.get 0 code)

/-- An event with its time not before that of the latest record of its unit (R20). -/
def State.inOrder (s : State) (e : Event) : Event :=
  match s.log.held.find? fun r => r.2.unit == e.unit && r.2.index == e.index with
  | some r => { e with time := laterOf e.time r.2.time }
  | none => e

/-- The event raised first reaches the log (R441, R443). -/
def State.deliverNext (s : State) : State :=
  match s.log.raised with
  | [] => s
  | e :: r =>
    let s := s.setLog { s.log with raised := r }
    if s.suppressed e.code then
      (s.setLog { s.log with lost := s.log.lost.put 0 e.code (s.log.lost.get 0 e.code + 1) }).bump Reg.timEvSupp
    else s.logEvent (s.inOrder e)

/-- Every event that has been raised reaches the log: those of a reset come after them (R444). -/
def State.deliverAll (s : State) : State := s.each s.log.raised fun s _ => s.deliverNext

/-- EVENT_LOG_DELIVER (R441, R443): from a reset of the hub to step 11 of the start the log takes no record (Table 15-10), so that the
log-started record is the first one after it (R444). -/
def execEventLogDeliver (s : State) : Res := .next (s.when (!s.power.starting) State.deliverNext)

/-- SUPPRESSION_WINDOW_END (R443). -/
def execSuppressionWindowEnd (s : State) : Res :=
  let l := s.log.lost
  let s := s.setLog { s.log with logged := [], lost := [] }
  .next (s.each l fun s e => s.raise 0x0002 none 0x0004 0 e.1 e.2)

/-! ## Global time (R446) -/

/-- May software set global time: the device is in no time tree, or is its root with its own clock as the source? -/
def State.timeSettable (s : State) : Bool :=
  s.afld Reg.lnkTimeCfg Fld.lnkTimeCfgEn == 0 ||
    (s.afld Reg.lnkTimeCfg Fld.lnkTimeCfgRoot == 1 && s.afld Reg.lnkTimeCfg Fld.lnkTimeCfgSrc == 0)

/-- TIM_SET_HI is written (R446). -/
def State.timSet (s : State) (t : W64) : State :=
  if s.timeSettable ∧ s.now ≤ t then
    let s := ((s.setNow t).setFab { s.fab with hold := 0, slew := 0, slewWait := 0 } : State)
    (s.setFld Reg.timStatus Fld.timStatusSet 1).raise 0x0009 none 0x0004 0 0 t.toNat
  else s.writeIgnored none 0x0004 0 (Reg.timSet 1) (t.toNat / 2 ^ 32)

/-- TIM_SET (R446). -/
def execTimSet (t : W64) (s : State) : Res := .next (s.timSet t)

end Sys2Proof.Machine
end

