-- ==== Sys2Proof/Machine/Package.lean ====
section
/-! DEFINITION. What a reset of the whole package leaves, and the entry into PS4 (R454, R456, R458, R474, R475, Table 15-11; log
entries 67 and 68). -/
namespace Sys2Proof.Machine

/-- The completion of an item that a package reset reaches: its result where its effects are complete, else ABORTED (R33). -/
def State.resetComp (s : State) (i : Item) : Completion :=
  match i.comp with
  | some c => c
  | none => s.abortComp 3 i

/-- What the units have done of their items is settled before a package reset ends them: the MATRIX items of every core, and the SENDs
that their consumers have placed (R33). -/
def State.settleItems (s : State) : State :=
  (s.each (s.cores.map Prod.fst) fun s c => s.abortCore c 3).each (s.queues.map Prod.fst) fun s k => s.landPlaced (k / 4) (k % 4)

/-- Every live item is reported, in the order of acceptance, with its result or ABORTED (R20, R33). -/
def State.reportAll (s : State) : State := s.each s.items.live fun t i => t.report i (s.resetComp i)

/-- A mirroring that a package reset ends: its committed copies are kept in HBM, and mirroring is off until a CONFIGURE (R485). -/
def resetMirror (e : Nat × Mirror) : Option (Nat × Mirror) :=
  let l := e.2.copies.filter MirrorCopy.committed
  if l = [] ∧ e.2.gens = 0 then none
  else some (e.1, { mbase := e.2.mbase, msize := e.2.msize, n := e.2.n, ctxs := e.2.ctxs, gens := e.2.gens, copies := l })

/-- The content of HBM is lost. -/
def State.loseHbm (s : State) : State :=
  let m := s.mem
  (s.setMem { m.smear 0 firnBase s.free with ue := m.ue.filter fun a => decide (firnBase ≤ a) }).tick

/-- Memory after a package reset: the Firn slices that keep does not pick are cleared; HBM is undefined after a cold start, and
kept after any other. -/
def State.resetMem (s : State) (cold : Bool) (keep : Nat → Bool) : State :=
  let s := s.each ((upFrom 0 512).filter fun g => !keep g) fun s g => s.zeroSlice g
  if cold then s.loseHbm else s

/-- The registers that a package reset does not reach: PWR and CLK, and the record of global time (Table 15-11, R446). -/
def aonReg (off : Nat) : Bool := decide (0x10000 ≤ off ∧ off < 0x30000) || off == Reg.timStatus

/-- The state of the package after a reset, before its start (Table 15-11): the HBM rails and VMOR stay on but for a cold start (R501). -/
def State.resetPackage (s : State) (cold : Bool) (keep : Nat → Bool) : State :=
  let log := s.settleItems.reportAll.items.log
  let s := s.resetMem cold keep
  let s := s.resetRegs fun o => cold || !aonReg o
  let s := s.each (upFrom 0 4) fun s d => s.setFld (Reg.clkFset d) Fld.clkFsetSel 0
  let s := s.setFld Reg.timStatus Fld.timStatusSync 0
  let p := s.power
  { now := if cold then 0 else s.now, regs := s.regs, mem := s.mem, log := if cold then {} else s.log
    items := { next := s.items.next, log := log, past := if cold then log.length else s.items.past }
    retSave := s.retSave
    power := { standby := p.standby, alert := p.alert, railsOff := p.railsOff, railTries := p.railTries, images := p.images, cert := p.cert
               hot := p.hot, waking := if cold then [] else p.waking, cal := if cold then [] else p.cal, starting := true
               rails := if cold then [] else p.rails.filter (· < 4) }
    flash := s.flash, mirrors := if cold then [] else s.mirrors.filterMap resetMirror
    free := s.free, out := s.out, pending := s.pending }

/-- Which slices a package warm reset keeps (R474). -/
def State.firnKept (s : State) (g : Nat) : Bool := bit (s.reg (Reg.pwrFirnKeep (g / 32))).toNat (g % 32)

/-! ## Rails (R501; log entry 150) -/

/-- Rail r of Table 17-4 is turned on. -/
def State.railOn (s : State) (r : Nat) : State := (s.setPower { s.power with rails := s.power.rails ++ [r] }).send (.rail r true)

/-- Rails are turned off one after another; HBM loses its content with a rail of its own. -/
def State.railsOut (s : State) (l : List Nat) : State :=
  let s := s.each (l.filter s.power.rails.contains) fun s r =>
    (s.setPower { s.power with rails := s.power.rails.filter (· != r) }).send (.rail r false)
  s.when (l.any (· < 4)) State.loseHbm

/-- The rails that are on, in the order of power-down: the reverse of Table 17-4. -/
def State.railsBack (s : State) (from_ : Nat) : List Nat := (upFrom 0 11).reverse.filter fun r => decide (from_ ≤ r) && s.power.rails.contains r

/-! ## Resets of the package and PS4 -/

/-- What a reset of the package ends first: dies in PS3 wake, entries into power states are aborted, and the events raised so far reach
the log (R441, R459, R471). -/
def State.closeDown (s : State) : State :=
  let s := s.each (upFrom 0 4) State.wakeForReset
  let s := s.each s.power.entries fun s e => s.abortPm e.1 0x0006 4
  s.when (!s.power.starting) State.deliverAll

/-- The hub and the dies of a package warm reset are reset; the start that follows waits for its own command (R382, R470, R472). -/
def State.warmDown (s : State) : State :=
  let keep : Nat → Bool := fun g => s.firnKept g && !s.power.standby
  let s := s.closeDown
  let s := ((s.railsOut (s.railsBack 4)).resetPackage false keep).setFld Reg.pwrBoot Fld.pwrBootStage 0
  (s.setPower { s.power with down := true }).resetEvent 2 0

/-- The package is in PS4: what its rails no longer hold is lost; VCORE0 to VCORE3, VFIRN, VSERDES and VHUB go off in that order (R456,
R501). -/
def State.enterStandby (s : State) : State :=
  let s := s.each ((upFrom 0 4).filter s.power.entering.contains) fun s d => s.wakeDie d 0x0005 4
  let s := s.each s.power.entries fun s e => s.abortPm e.1 0x0005 4
  let s := s.when (!s.power.starting) State.deliverAll
  let s := (s.railsOut [7, 8, 9, 10, 6, 5, 4]).resetPackage false fun _ => false
  s.setPower { s.power with standby := true }

/-- Conditions 6 to 8 of Table 15-3 for a request of opener o: the refuser of each. -/
def State.packageRefusers (s : State) (o : Nat) : List (Option (Nat × Nat)) :=
  [refuserOf 0x0020 (upFrom 0 32) fun l => s.linkState l == 0,
    refuserOf 0x0010 ((upFrom 0 4).filter fun p => p != o) fun p => s.portState p == 0,
    refuserOf 0x0050 (upFrom 0 16) fun i => (s.coll i).isNone,
    refuserOf 0x0052 (upFrom 0 64) fun q => s.dqCfg q Fld.drfDqCfgEn == 0,
    refuserOf 0x0012 (upFrom 0 4) fun p => s.unitItems 0x0012 p == []]

/-- The first refuser of a request for PS4 (Table 15-3): each condition of dies over every die that is not in PS3. -/
def State.standbyRefuser (s : State) (o : Nat) : Option (Nat × Nat) :=
  let dies := (upFrom 0 4).filter fun d => !s.inPs3 d
  let byDie := (upFrom 0 4).map fun k => (dies.map fun d => (s.dieRefusers d).getD k none).findSome? id
  ([s.epochRefuser] ++ byDie ++ s.packageRefusers o).findSome? id

/-- STANDBY is written 1 (R454, R456). -/
def State.requestStandby (s : State) (o : Nat) : State :=
  if s.power.standby then s
  else match s.standbyRefuser o with
    | some (u, i) => (s.setFld Reg.pwrPkg Fld.pwrPkgStandby 0).refuse 4 u i false true 4
    | none => (s.setFld Reg.pwrPkg Fld.pwrPkgStandby 1).enterStandby

end Sys2Proof.Machine
end

