-- ==== Sys2Proof/Machine/RegView.lean ====
section
/-! DEFINITION. What a read of a register returns: the stored value, with the fields that show hidden state in their place (R424,
R427 and the register tables of the home chapters; log entry 72). -/
namespace Sys2Proof.Machine

/-- A register value with several fields replaced. -/
def putFlds (x : W32) (l : List (Fld × Nat)) : W32 := l.foldl (fun x e => e.1.put x e.2) x

/-- The 32-bit word n of a string of bytes. -/
def wordOf (b : Bytes) (n : Nat) : W32 := BitVec.ofNat 32 (field b (4 * n) 4)

/-- STGQ_COUNT and STGQ_OCC of queue q of context c, at offset r of its registers (Table 2-21). -/
def State.viewQueue (s : State) (c q r : Nat) (x : W32) : W32 :=
  let y := s.queue c q
  let peer : Nat := if inbound q then y.released.toNat else if s.qKind c q = 3 then y.postsAccepted.toNat else (s.releasedSeen c q).toNat
  if r = 0x20 then
    putFlds x [(Fld.stgqCountLocal, (if inbound q then y.arrived else y.sent).toNat), (Fld.stgqCountPeer, peer)]
  else if r = 0x24 then
    let n := if inbound q then y.slots.length - b2n y.filling else y.claimed.length + y.flights.length
    putFlds x [(Fld.stgqOccFirn, n), (Fld.stgqOccSpill, y.spill.length)]
  else if r = 0x28 ∧ (s.qKind c q = 1 ∨ s.qKind c q = 3) then 0
  else x

/-- CIR_MC_STATUS of core c (Table 5-18). -/
def State.viewCore (s : State) (c : Nat) (x : W32) : W32 :=
  let l := (s.core c).fifo
  let busy : List Nat → Nat := fun o => b2n (l.any fun i => o.contains i.op && i.result.isNone)
  putFlds x [(Fld.cirMcStatusLoadbusy, busy [1]), (Fld.cirMcStatusStreambusy, busy [2, 3]), (Fld.cirMcStatusEmitbusy, busy [4]),
    (Fld.cirMcStatusItems, l.length)]

/-- A register of cluster g at offset r of its CIR block (Tables 5-18, 6-14, 7-7, 15-13). -/
def State.viewCluster (s : State) (g r : Nat) (x : W32) : W32 :=
  if 0x400 ≤ r ∧ r < 0x600 ∧ r % 0x40 = 0x14 then s.viewCore (8 * g + (r - 0x400) / 0x40) x
  else if r = 0x800 then
    let n := (s.unitItems 0x0101 g).length
    putFlds x [(Fld.cirVeStatusBusy, b2n (n != 0)), (Fld.cirVeStatusItems, n)]
  else if r = 0xC04 then
    putFlds x [(Fld.cirCeStatusBusy, sumBy (fun ch => if (s.chan g ch).queue = [] then 0 else 2 ^ ch) (upFrom 0 8))]
  else if 0xC08 ≤ r ∧ r < 0xC28 then
    let y := s.chan g ((r - 0xC08) / 4)
    putFlds x [(Fld.cirCeChSlots, (s.slotReads g ((r - 0xC08) / 4)).length), (Fld.cirCeChQueued, y.queue.length),
      (Fld.cirCeChHeld, min 64 (y.reqs.filter fun q => q.st == .held).length)]
  else if r = 0x1C04 then putFlds x [(Fld.cirPmStatusState, s.pmState g)]
  else x

/-- A register of stack st at offset r of its MOR block (Tables 7-9, 8-11). -/
def State.viewStack (s : State) (st r : Nat) (x : W32) : W32 :=
  let y := s.stack st
  let e := y.ret.get {} (s.fld (Reg.morRetSel st) Fld.morRetSelIndex)
  let l := e.page * 2048
  if r = 0 then
    let n := (s.unitItems 0x0201 st).length
    let comp := s.snps.any fun c => (upFrom 0 8).any fun k => s.compacting c.1 k
    putFlds x [(Fld.morEngStatusBusy, b2n (n != 0)), (Fld.morEngStatusQueued, n), (Fld.morEngStatusCompact, b2n comp)]
  else if r = 0xC0008 then putFlds x [(Fld.morCtlStatusWindow, y.window.length)]
  else if r = 0xC001C then
    putFlds x [(Fld.morRetStatusUsed, (y.ret.filter fun i => i.2.state != 0).length),
      (Fld.morRetStatusRetiring, (y.ret.filter fun i => i.2.state == 1).length)]
  else if r = 0xC0024 then
    putFlds x [(Fld.morRetEntryChannel, bits l 11 4), (Fld.morRetEntryBank, bits l 15 6), (Fld.morRetEntryRow, bits l 21 16),
      (Fld.morRetEntryState, e.state)]
  else if r = 0xC0028 then putFlds x [(Fld.morRetAddrPage, if e.state = 0 then 0 else s.hbmAddr st l / 4096)]
  else x

/-- A register of open collective i at offset r (Table 11-11). -/
def State.viewColl (s : State) (i r : Nat) (x : W32) : W32 :=
  match s.coll i with
  | none => x
  | some c =>
    if r = 0 then
      putFlds x [(Fld.drfCollIdCid, c.key.cid.toNat), (Fld.drfCollIdJob, c.key.job), (Fld.drfCollIdAxis, (parseColl c.rcd).axis),
        (Fld.drfCollIdState, c.state)]
    else if r = 4 then c.key.step
    else if r = 8 then BitVec.ofNat 32 c.written
    else match s.missingBlock c with
      | some k => putFlds x [(Fld.drfCollMissRank, k), (Fld.drfCollMissValid, 1)]
      | none => x

/-- DRF_DQ_STATUS of queue q (Table 11-11). -/
def State.viewDq (s : State) (q : Nat) (x : W32) : W32 :=
  let n := if s.dqCfg q Fld.drfDqCfgEn = 0 then 0 else if s.dqDead q then 2 else 1
  putFlds x [(Fld.drfDqStatusState, n), (Fld.drfDqStatusOpen, (s.dq q).entries.length)]

/-- TIM_EV_STAT and TIM_EV_Wn: the record that TIM_EV_SEL selects, while it is held (R442). -/
def State.selected (s : State) : Option Bytes :=
  (s.log.held.find? fun e => e.1 == (s.reg Reg.timEvSel).toNat).map fun e => eventBytes e.1 e.2

/-- A register of the GLB, CFI and TIM blocks (Tables 14-9 to 14-11). -/
def State.viewHub (s : State) (off : Nat) (x : W32) : W32 :=
  if off = Reg.glbEpuState then
    let p := s.epochPart (s.fld Reg.glbEpuSel Fld.glbEpuSelUnit, s.fld Reg.glbEpuSel Fld.glbEpuSelIndex)
    putFlds x [(Fld.glbEpuStateState, p.state), (Fld.glbEpuStateEpoch, p.epoch)]
  else if off = Reg.cfiStatus then
    putFlds x [(Fld.cfiStatusSkipped, sumBy (fun d => if s.sweepSkipped d then 2 ^ d else 0) (upFrom 0 5))]
  else if off = Reg.timNow 0 then BitVec.ofNat 32 s.now.toNat
  else if off = Reg.timNow 1 then BitVec.ofNat 32 (s.now.toNat / 2 ^ 32)
  else if off = Reg.timStatus then putFlds x [(Fld.timStatusSync, s.fld Reg.lnkTimeStatus Fld.lnkTimeStatusSync)]
  else if off = Reg.timEvSeq then (if s.log.next = 0 then 0 else BitVec.ofNat 32 (s.log.next - 1))
  else if off = Reg.timEvStat then putFlds x [(Fld.timEvStatValid, b2n s.selected.isSome)]
  else if Reg.timEvW 0 ≤ off ∧ off ≤ Reg.timEvW 7 then wordOf (s.selected.getD []) ((off - Reg.timEvW 0) / 4)
  else x

/-- A register of the PWR and CLK blocks (Tables 15-12, 15-14). -/
def State.viewPower (s : State) (off : Nat) (x : W32) : W32 :=
  if off = Reg.pwrState then
    let count := fun n => ((upFrom 0 512).filter fun g => s.pmState g == n).length
    putFlds x [(Fld.pwrStateDie, sumBy (fun d => if s.inPs3 d then 2 ^ d else 0) (upFrom 0 4)), (Fld.pwrStatePs1, count 1),
      (Fld.pwrStatePs2, count 2)]
  else if Reg.clkFset 0 ≤ off ∧ off ≤ Reg.clkFset 3 then
    let d := (off - Reg.clkFset 0) / 4
    putFlds x [(Fld.clkFsetActive, b2n (Fld.clkFsetSel.of x == 1 && bit (s.fld Reg.clkStatus Fld.clkStatusCorelock) d))]
  else if off = Reg.clkHub then
    putFlds x [(Fld.clkHubActive, b2n (Fld.clkHubSel.of x == 1 && s.fld Reg.clkStatus Fld.clkStatusHublock == 1))]
  else x

/-- A register of the LNK blocks (Tables 10-10, 10-11); COVERED is 0 while no link of the port is UP (log entry 115). -/
def State.viewLink (s : State) (off : Nat) (x : W32) : W32 :=
  if 0x180000 ≤ off then
    if Reg.lnkCap 0 ≤ off ∧ off ≤ Reg.lnkCap 7 then
      let p := (off - Reg.lnkCap 0) / 4
      putFlds x [(Fld.lnkCapCap, s.portCap p / 100), (Fld.lnkCapCovered, b2n (s.upLinks p != [] && s.covered s.areg p))]
    else x
  else
    let y := s.layer ((off - 0x100000) / 0x4000)
    if (off - 0x100000) % 0x4000 = 0x10 then putFlds x [(Fld.lnkTxseqNext, y.next), (Fld.lnkTxseqAcked, y.acked)]
    else if (off - 0x100000) % 0x4000 = 0x14 then putFlds x [(Fld.lnkRxseqE, y.e)]
    else x

/-- TWI_CAPWn (R377, R388): the selected block; links 18 to 31, and a link that has not been brought up since the reset, show zero. -/
def State.viewCap (s : State) (n : Nat) : W32 :=
  let l := s.fld Reg.twiCapsel Fld.twiCapselLink
  if 18 ≤ l ∨ s.twiState l < 2 then 0
  else wordOf (if s.fld Reg.twiCapsel Fld.twiCapselSide = 0 then ownBlock l else (s.twiLink l).partner) n

/-- The value that a read of the register at an offset shows: WO fields read as zero. -/
def State.view (s : State) (off : Nat) : W32 :=
  let x := s.reg off
  let wo := match regAt off with | some d => d.wo | none => 0
  let v :=
    if off < 0x10000 ∨ 0x30000 ≤ off ∧ off < 0x80000 then s.viewHub off x
    else if off < 0x30000 then s.viewPower off x
    else if 0x80000 ≤ off ∧ off < 0xC0000 then
      let r := (off - 0x80000) % 0x10000
      if 0x100 ≤ r ∧ r < 0x200 ∧ r % 0x40 = 0x14 then
        putFlds x [(Fld.plhSqAuxInflight, s.inflight ((off - 0x80000) / 0x10000) ((r - 0x100) / 0x40))]
      else x
    else if 0x100000 ≤ off ∧ off < 0x200000 then s.viewLink off x
    else if 0x210000 ≤ off ∧ off < 0x220000 then
      let r := (off - 0x210000) % 0x100
      if 0x20 ≤ r ∧ r < 0xE0 then s.viewQueue ((off - 0x210000) / 0x100) ((r - 0x20) / 0x30) ((r - 0x20) % 0x30) x else x
    else if 0x281000 ≤ off ∧ off < 0x289000 ∧ 0x40 ≤ (off - 0x281000) % 0x80 ∧ (off - 0x281000) % 0x80 < 0x60 then
      if s.slotState ((off - 0x281000) / 0x80) (((off - 0x281000) % 0x80 - 0x40) / 4) = 0 ∧ Fld.snpSlotState.of x = 1 then 0 else x
    else if 0x300200 ≤ off ∧ off < 0x300300 then s.viewColl ((off - 0x300200) / 0x10) (off % 0x10) x
    else if 0x301000 ≤ off ∧ off < 0x301800 ∧ off % 0x20 = 0x10 then s.viewDq ((off - 0x301000) / 0x20) x
    else if Reg.twiCapw 0 ≤ off ∧ off ≤ Reg.twiCapw 15 then s.viewCap ((off - Reg.twiCapw 0) / 4)
    else if 0x400000 ≤ off ∧ off < 0x800000 then s.viewCluster ((off - 0x400000) / 0x2000) ((off - 0x400000) % 0x2000) x
    else if 0x800000 ≤ off then s.viewStack ((off - 0x800000) / 0x100000) ((off - 0x800000) % 0x100000) x
    else x
  v &&& BitVec.ofNat 32 (0xFFFFFFFF ^^^ wo)

end Sys2Proof.Machine
end

