-- ==== Sys2Proof/Machine/RegAccess.lean ====
section
/-! DEFINITION. Accesses to the register space: reads with their side effects, writes through the four views, the writes that a rule
ignores, and what a write commands (R74, R228, R262, R263, R266, R276, R367, R398, R419, R424 to R429, R445, R470; log entries 73 to
76). -/
namespace Sys2Proof.Machine

/-! ## Reads (R423, R424, R427, R445) -/

/-- A read by opener o of the register at an offset: the state after it, and the value. What a read on an isolated die answers is a
free value (R384; log entry 122). -/
def State.readReg (s : State) (o off : Nat) : State × W32 :=
  let off := canonOff off
  match regAt off with
  | none => (s, 0)
  | some r =>
    if s.regGone off then (s.tick, Config.freeWord s.free off) else
    let s := s.wakeByAccess off
    let v := s.view off
    let rest := s.hub.latch.filter fun e => e.1 != o
    if off = Reg.timNow 0 then
      ((s.setHub { s.hub with latch := rest ++ [(o, s.view (Reg.timNow 1))] }), v)
    else if off = Reg.timNow 1 then
      ((s.setHub { s.hub with latch := rest }), match s.hub.latch.find? fun e => e.1 == o with | some e => e.2 | none => v)
    else if r.rc = 0 then (s, v)
    else (s.setReg off (s.reg off &&& BitVec.ofNat 32 (0xFFFFFFFF ^^^ r.rc)), v)

/-- A read by opener o under R419: a refused one returns zero. -/
def State.readAs (s : State) (o off : Nat) : State × W32 :=
  if s.mayAccess o off false then s.readReg o off else (s.deny o off, 0)

/-- A read whose value goes back to the opener. -/
def State.readFor (s : State) (o : Opener) (off : Nat) : State :=
  let r := s.readAs (openerNat o) off
  r.1.send (.regValue o off r.2)

/-- REGISTER_READ_CLEAR (R424). -/
def execRegisterReadClear (o : Opener) (offset : BitVec 24) (s : State) : Res :=
  .next (s.when (offset.toNat % 4 == 0) fun s => s.readFor o offset.toNat)

/-- TIM_NOW_READ (R445). -/
def execTimNowRead (o : Opener) (low : Bool) (s : State) : Res := .next (s.readFor o (Reg.timNow (if low then 0 else 1)))

/-! ## Writes (R424, R428, R429) -/

/-- A write as it reaches a register: the opener, the offset, the data, the new value of the register, the bits of WO fields that
act, and whether the opener's lock was open. -/
structure RegWrite where
  o : Nat
  off : Nat
  d : W32
  new : Nat
  act : Nat
  keyed : Bool

/-- Is bit i of the register written 1 by this write? -/
def RegWrite.sets (w : RegWrite) (i : Nat) : Bool := w.keyed && bit w.new i && bit w.d.toNat i

/-- Table 14-2 for fields that software writes. -/
def viewCombine (view x d : Nat) : Nat :=
  match view with
  | 0 => d
  | 1 => x ||| d
  | 2 => x &&& (0xFFFFFFFF ^^^ d)
  | _ => x ^^^ d

/-- Stores the new value of the register. -/
def State.storeReg (s : State) (w : RegWrite) : State := s.setReg w.off (BitVec.ofNat 32 w.new)

/-- A configuration field of an offset was written: its domain is stale; MOR_HMAP stands in the domain of every stack (R231,
R437). -/
def State.staleWrite (s : State) (off : Nat) : State :=
  if off = Reg.morHmap 0 then s.each (upFrom 0 4) State.setStale else s.setStale (domainOf off)

/-! ## Writes that are ignored -/

/-- Is a register of context c, at offset r of its block, closed while the context runs (R74)? -/
def ctxGuarded (r : Nat) : Bool := r == 8 || r == 0xC || r == 0x10 || decide (0x20 ≤ r ∧ r < 0xE0)

/-- Does the range [a, a + n) meet the range [b, b + m), both not empty? -/
def rangesMeet (a n b m : Nat) : Bool := n != 0 && m != 0 && decide (a < b + m ∧ b < a + n)

/-- Is a new value of DRF_POOLj refused (R367)? -/
def State.poolBad (s : State) (j : Nat) (v : W32) : Bool :=
  let a := Fld.drfPoolBase.of v
  let n := Fld.drfPoolPages.of v
  decide (14336 < a + n) || (upFrom 0 4).any fun i => i != j &&
    rangesMeet a n (s.fld (Reg.drfPool i) Fld.drfPoolBase) (s.fld (Reg.drfPool i) Fld.drfPoolPages)

/-- Does a queue's region, or its hold space, by values of DRF_DQ_SIZE and DRF_DQ_BASE, lie outside a pool (R357)? An empty one lies
nowhere. -/
def dqBeyond (size base pool : W32) : Bool :=
  let a := Fld.drfDqBasePage.of base
  let n := ceilDiv (Fld.drfDqSizeEntries.of size * Fld.drfDqSizeElems.of size * 4) 4096 + Fld.drfDqBaseHold.of base
  let b := Fld.drfPoolBase.of pool
  n != 0 && decide (a < b ∨ b + Fld.drfPoolPages.of pool < a + n)

/-- Does the region of queue q, or its hold space, lie outside the pool of job j (R357, R367)? -/
def State.dqOutside (s : State) (q j : Nat) : Bool := dqBeyond (s.reg (Reg.drfDqSize q)) (s.reg (Reg.drfDqBase q)) (s.reg (Reg.drfPool j))

/-- Would a new value of DRF_POOLj leave the region of a queue of the job outside it (R367)? -/
def State.poolCuts (s : State) (j : Nat) (v : W32) : Bool :=
  (upFrom 0 64).any fun q => s.dqCfg q Fld.drfDqCfgJob == j &&
    dqBeyond (s.reg (Reg.drfDqSize q)) (s.reg (Reg.drfDqBase q)) v

/-- May a queue deliver in a format (Table 11-11)? -/
def dqFmtOk (c : Nat) : Bool :=
  match fmtOf c with
  | some .fp32 | some .w16 | some .w12 | some .w8 => true
  | _ => false

/-- A drift-config event (R367). -/
def State.driftConfig (s : State) (job : Option Nat) (unit index : Nat) (w : RegWrite) : State :=
  s.raise 0x0415 job unit index w.off w.d.toNat

/-- The writes to the DRF block that are ignored: the state after the refusal (R367, Table 11-11). -/
def State.driftRefused (s : State) (w : RegWrite) : Option State :=
  let v : W32 := BitVec.ofNat 32 w.new
  if 0x300010 ≤ w.off ∧ w.off < 0x300090 ∧ (w.off - 0x300010) % 0x20 = 0 then
    let j := (w.off - 0x300010) / 0x20
    if w.keyed && (s.poolBad j v || s.poolCuts j v) then some (s.driftConfig none 0x0050 j w) else none
  else if 0x301000 ≤ w.off ∧ w.off < 0x301800 then
    let q := (w.off - 0x301000) / 0x20
    let r := w.off % 0x20
    let on := s.dqCfg q Fld.drfDqCfgEn == 1
    let no := some (s.driftConfig (some (s.dqCfg q Fld.drfDqCfgJob)) 0x0052 q w)
    if r = 0 then
      if on then (if bit w.new 0 then no else none)
      else if bit w.new 0 && !dqFmtOk (Fld.drfDqCfgOfmt.of v) then some s
      else if s.dqOutside q (Fld.drfDqCfgJob.of v) then no
      else none
    else if r = 4 ∨ r = 0xC then
      let p := s.reg (Reg.drfPool (s.dqCfg q Fld.drfDqCfgJob))
      if on ∨ dqBeyond (if r = 4 then v else s.reg (Reg.drfDqSize q)) (if r = 4 then s.reg (Reg.drfDqBase q) else v) p then no else none
    else none
  else none

/-- Is the ring whose base or size stands at offset r of port p's block enabled (R398)? -/
def State.ringGuarded (s : State) (p r : Nat) : Bool :=
  if 0x100 ≤ r ∧ r < 0x200 then
    [0x0, 0x4, 0x8, 0x18, 0x1C, 0x20].contains (r % 0x40) && s.sqOn p ((r - 0x100) / 0x40)
  else decide (0x200 ≤ r ∧ r < 0x20C) && s.mqOn p

/-- Is a CLK_RST write with GO = 1 refused: the kind or the target does not exist (R470)? -/
def rstBad (v : Nat) : Bool :=
  let t := bits v 4 12
  match v % 16 with
  | 2 => t != 0
  | 3 => !(decide (t < 4) || decide (0x10 ≤ t ∧ t < 0x18))
  | 4 => decide (512 ≤ t)
  | 5 => decide (32 ≤ t)
  | 6 => decide (4 ≤ t)
  | _ => true

/-- The unit and instance that ignore a write and log a configuration-write-ignored event. -/
def State.ignoredBy (s : State) (w : RegWrite) : Option (Nat × Nat) :=
  let off := w.off
  if off = Reg.glbEpochCtrl then (if bit w.act 0 && bit w.act 1 then some (0x0002, 0) else none)
  else if off = Reg.clkRst then (if w.sets 16 && rstBad w.new then some (0x0006, 4) else none)
  else if 0x80000 ≤ off ∧ off < 0xC0000 then
    let p := (off - 0x80000) / 0x10000
    if s.ringGuarded p ((off - 0x80000) % 0x10000) then some (0x0010, p) else none
  else if 0x210000 ≤ off ∧ off < 0x220000 then
    let c := (off - 0x210000) / 0x100
    if ctxGuarded ((off - 0x210000) % 0x100) && decide (1 ≤ s.ctxState c ∧ s.ctxState c ≤ 3) then some (0x0031, c) else none
  else if 0x240000 ≤ off ∧ off < 0x280000 then
    let p := (off - 0x240000) / 0x1000
    if (off - 0x240000) % 0x1000 = 0x14 ∧ s.tab p = 1 then some (0x0032, p) else none
  else if 0x281000 ≤ off ∧ off < 0x289000 then
    let c := (off - 0x281000) / 0x80
    let r := (off - 0x281000) % 0x80
    let used := (upFrom 0 8).any fun k => s.slotState c k != 0
    if r < 0x10 ∧ (used ∨ (r = 0 ∧ 63 < bits w.new 16 8)) then some (0x0040, c)
    else if r = 0x18 ∧ bit w.act 0 ∧ !s.snpResetOk c then some (0x0040, c)
    else none
  else none

/-! ## What a write commands -/

/-- A write to STG_CTX_CTRL of context c (Table 2-2): ENABLE and FINISH act by the state of the context. A FINISH that no state takes,
a 1 outside RUNNING or a 0 in DRAINING, is dropped and not stored (log entry 130). -/
def State.writeCtxCtrl (s : State) (c : Nat) (w : RegWrite) : State :=
  let s := s.setFld w.off Fld.stgCtxCtrlWaitLimit (bits w.new 16 16)
  match s.ctxState c with
  | 0 => s.when (bit w.new 0) fun s => s.enableCtx c
  | 2 => s.when (bit w.new 1) fun s => s.finishCtx c
  | 4 | 5 => s.when (!bit w.new 0) fun s => s.disableCtx c
  | _ => s

/-- A write to a register of the STG and SNP blocks. A write of STG_TAB_CTRL that sets several bits applies START, then RESUME, then STOP
(log entry 132). -/
def State.writeStage (s : State) (w : RegWrite) : State :=
  if 0x210000 ≤ w.off ∧ w.off < 0x220000 ∧ w.off % 0x100 = 0 then s.writeCtxCtrl ((w.off - 0x210000) / 0x100) w
  else if 0x240000 ≤ w.off ∧ w.off < 0x280000 ∧ w.off % 0x1000 = 0 then
    let p := (w.off - 0x240000) / 0x1000
    (((s.storeReg w).when (bit w.act 0) fun s => s.tabStart p w.d.toNat).when (bit w.act 1) fun s => s.tabResume p w.d.toNat).when
      (bit w.act 2) fun s => s.tabStop p
  else if 0x240000 ≤ w.off ∧ w.off < 0x280000 ∧ w.off % 0x1000 = 0x14 then
    (s.storeReg w).dropMarks ((w.off - 0x240000) / 0x1000)
  else if 0x281000 ≤ w.off ∧ w.off < 0x289000 ∧ (w.off - 0x281000) % 0x80 = 0x18 then
    let c := (w.off - 0x281000) / 0x80
    ((s.storeReg w).when (bit w.act 0) fun s => s.snpReset c).when (bit w.act 1) fun s =>
      s.snpAdopt c (bits w.new 2 3) (bits w.new 16 16)
  else s.storeReg w

/-- A write to a register of cluster g at offset r of its CIR block. -/
def State.writeCluster (s : State) (g r : Nat) (w : RegWrite) : State :=
  if r = 0xF00 then
    ((s.storeReg w).when (bit w.act 1) fun s => s.clearWiden g 2).when (bit w.act 2) fun s => s.clrPend g
  else if r = 0xF04 then (s.storeReg w).each (upFrom 0 64) fun s n => s.setReg (Reg.cirNuWlvl g n) 0
  else if r = 0x1C00 then s.holdCluster g (w.new % 4)
  else s.storeReg w

/-- A write to a register of port p at offset r of its PLH block. -/
def State.writePort (s : State) (p r : Nat) (w : RegWrite) : State :=
  if r = 0 then (s.storeReg w).when w.keyed fun s => s.enablePort p (bit w.new 0)
  else if r = 8 ∨ r = 0x10 ∨ r = 0x14 then (s.storeReg w).when (s.portUp p) fun s => s.pollCfg p
  else if 0x100 ≤ r ∧ r < 0x200 ∧ r % 0x40 = 0xC then s.enableSq p ((r - 0x100) / 0x40) (bit w.new 0)
  else if r = 0x20C then s.enableMq p (bit w.new 0)
  else s.storeReg w

/-- EN of combining queue q is written 0: its rounds are gone, and what waits ends QUEUE_DEAD (R357, R362; log entry 74). -/
def State.closeDq (s : State) (q : Nat) : State :=
  let l := (s.dq q).waits
  let s := (s.setFld (Reg.drfDqCfg q) Fld.drfDqCfgEn 0).dropRounds q
  let s := s.setDq q { s.dq q with waits := [], reset := false }
  s.each l fun s x => s.tell x.teller { status := .queueDead }

/-- A write to a register of the DRF block. -/
def State.writeDrift (s : State) (w : RegWrite) : State :=
  if 0x301000 ≤ w.off ∧ w.off < 0x301800 ∧ w.off % 0x20 = 0 then
    let q := (w.off - 0x301000) / 0x20
    if s.dqCfg q Fld.drfDqCfgEn = 1 then s.closeDq q
    else (s.storeReg w).when (bit w.new 0) fun s => s.setDq q { s.dq q with reset := false }
  else if 0x301000 ≤ w.off ∧ w.off < 0x301800 then (s.storeReg w).dropDead
  else s.storeReg w

/-- A reset through CLK_RST (R470). -/
def State.clockReset (s : State) (v : Nat) : State :=
  let t := bits v 4 12
  let s := s.bump Reg.clkResets
  match v % 16 with
  | 2 => s.warmDown
  | 3 => if t < 4 then s.resetCirque t else s.resetBase (t - 0x10)
  | 4 => s.clusterReset t
  | 5 => s.linkReset t
  | _ => s.hostReset t

/-- A write to a register of the PWR and CLK blocks: a keyed field acts only where the lock was open. -/
def State.writePower (s : State) (w : RegWrite) : State :=
  if w.off = Reg.pwrPkg then
    let s := s.setReg w.off (BitVec.ofNat 32 (setBits w.new 0 1 (s.fld Reg.pwrPkg Fld.pwrPkgStandby)))
    s.when (w.sets 0) fun s => s.requestStandby w.o
  else if Reg.pwrDie 0 ≤ w.off ∧ w.off ≤ Reg.pwrDie 3 then
    let d := (w.off - Reg.pwrDie 0) / 4
    s.when w.keyed fun s => if bit w.new 0 then s.requestPs3 d else s.wakeDie d 0x0005 d
  else if w.off = Reg.clkRst then (s.storeReg w).when (w.sets 16) fun s => s.clockReset w.new
  else s.storeReg w

/-- A write to a register of the GLB, CFI and TIM blocks. -/
def State.writeHub (s : State) (w : RegWrite) (view : Nat) : State :=
  if w.off = Reg.glbEpochCtrl then
    ((s.storeReg w).when (bit w.act 0) fun s => s.advanceEpoch w.d.toNat).when (bit w.act 1) State.discardEpoch
  else if w.off = Reg.cfiUnlock then s.unlock w.o view (w.d.toNat % 2 ^ 16)
  else if w.off = Reg.cfiCommit then
    s.when (view == 0) fun s => s.commitDomains (w.act % 32) (bit w.act 8)
  else if w.off = Reg.timSet 0 then s.when (view == 0) fun s => s.setReg w.off w.d
  else if w.off = Reg.timSet 1 then
    s.when (view == 0) fun s => s.timSet (BitVec.ofNat 64 (w.d.toNat * 2 ^ 32 + (s.reg (Reg.timSet 0)).toNat))
  else s.storeReg w

/-- The effect of a write that no rule ignores. -/
def State.applyWrite (s : State) (w : RegWrite) (view : Nat) : State :=
  let off := w.off
  if 0x10000 ≤ off ∧ off < 0x30000 then s.writePower w
  else if off < 0x80000 then s.writeHub w view
  else if off < 0xC0000 then s.writePort ((off - 0x80000) / 0x10000) ((off - 0x80000) % 0x10000) w
  else if 0x100000 ≤ off ∧ off < 0x180000 ∧ off % 0x4000 = 0 then
    (s.storeReg w).when (bit w.act 1) fun s => s.planRetrain ((off - 0x100000) / 0x4000)
  else if 0x200000 ≤ off ∧ off < 0x300000 then s.writeStage w
  else if 0x300000 ≤ off ∧ off < 0x380000 then s.writeDrift w
  else if 0x400000 ≤ off ∧ off < 0x800000 then s.writeCluster ((off - 0x400000) / 0x2000) ((off - 0x400000) % 0x2000) w
  else if 0x800000 ≤ off ∧ (off - 0x800000) % 0x100000 = 0xC002C then
    (s.storeReg w).when (w.sets 9) fun s => s.retConfirm ((off - 0x800000) / 0x100000) (w.new % 512)
  else s.storeReg w

/-- A write of opener o to a register with keyed fields closes its lock; one that would have changed such a field while the lock
was closed is counted and logged (R428, R429). -/
def State.keyedWrite (s : State) (o off : Nat) (denied : Bool) : State :=
  (s.setLockOpen o false).when denied fun s =>
    (s.bump Reg.cfiKeydeny).raise 0x0006 (s.regOwner off) 0x0003 (domainOf off) off o

/-- A write of opener o through a view to the register at an offset (R424); on an isolated die it is discarded (R384). -/
def State.writeReg (s : State) (o view off : Nat) (d : W32) : State :=
  let off := canonOff off
  match regAt off with
  | none => s
  | some r =>
    if s.regGone off then s else
    let s := s.wakeByAccess off
    let x := (s.reg off).toNat
    let open_ := s.lockOpen o
    let y := viewCombine view x d.toNat
    let jb := if s.isAdmin o then 0 else jobBits off
    let may := r.rw ||| (if open_ then r.rwk else 0)
    let m := may &&& (0xFFFFFFFF ^^^ jb)
    let z := (x &&& (0xFFFFFFFF ^^^ m)) ||| (y &&& m)
    let new := if view = 0 then z &&& (0xFFFFFFFF ^^^ (d.toNat &&& r.w1c)) else z
    let w : RegWrite := { o, off, d, new, act := if view = 0 then d.toNat &&& r.wo else 0, keyed := open_ }
    let changed := y ^^^ x
    let s := s.when (r.rwk != 0) fun s => s.keyedWrite o off (!open_ && (changed &&& r.rwk) != 0)
    let s := s.when ((changed &&& may &&& jb) != 0) fun s => s.deny o off
    match s.driftRefused w with
    | some s => s
    | none =>
      match s.ignoredBy w with
      | some (u, i) => s.writeIgnored (s.regOwner off) u i off d.toNat
      | none => (s.when ((r.cfg &&& m) != 0) fun s => s.staleWrite off).applyWrite w view

/-- REGISTER_WRITE (R424). -/
def execRegisterWrite (o : Opener) (view : Fin 4) (offset : BitVec 24) (d : W32) (s : State) : Res :=
  .next (s.when (offset.toNat % 4 == 0) fun s =>
    s.access (openerNat o) offset.toNat true fun s => s.writeReg (openerNat o) view offset.toNat d)

/-- RET_CONFIRM (R228): software writes MOR_RET_CTRL with CONFIRM and the entry's index, under the rules of its keyed fields. -/
def execRetConfirm (o : Opener) (e : RetirementRef) (s : State) : Res :=
  .next (s.access (openerNat o) (Reg.morRetCtrl e.stack) true fun s =>
    s.writeReg (openerNat o) 0 (Reg.morRetCtrl e.stack) (BitVec.ofNat 32 (512 + e.ix)))

/-- MGMT_REQ (R419, R425). -/
def execMgmtReq (p : HostPortId) (tag : Nat) (offset : W32) (write : Option W32) (s : State) : Res :=
  let a := offset.toNat
  let off := a % 2 ^ 24
  .next (s.when (s.portUp p) fun s =>
    if a % 4 ≠ 0 then s.mgmtAnswer p tag 2 0
    else if 0x4000000 ≤ a then s.mgmtAnswer p tag 3 0
    else if s.mayAccess p off write.isSome = false then (s.deny p off).mgmtAnswer p tag 1 0
    else match write with
      | some d => (s.writeReg p (a / 2 ^ 24) off d).mgmtAnswer p tag 0 0
      | none =>
        let r := s.readReg p off
        r.1.mgmtAnswer p tag 0 r.2)

/-! ## Commands that are writes of keyed registers (R416, R428, R429, R454) -/

/-- STANDBY_REQUEST (R454, R456): STANDBY is written 1. -/
def execStandbyRequest (o : Opener) (s : State) : Res :=
  .next (s.access (openerNat o) Reg.pwrPkg true fun s => s.writeReg (openerNat o) 1 Reg.pwrPkg 1)

/-- PS3_REQUEST (R454): REQ is written 1. -/
def execPs3Request (r : DieRequest) (s : State) : Res :=
  .next (s.access (openerNat r.o) (Reg.pwrDie r.die) true fun s => s.writeReg (openerNat r.o) 1 (Reg.pwrDie r.die) 1)

/-- PLH_PORT_ENABLE (R416, R429): EN is written. -/
def execPlhPortEnable (p : HostPortId) (en : PortEnable) (s : State) : Res :=
  .next (s.access (openerNat en.o) (Reg.plhCfg p) true fun s => s.writeReg (openerNat en.o) (if en.en then 1 else 2) (Reg.plhCfg p) 1)

end Sys2Proof.Machine
end

