-- ==== Sys2Proof/Machine/Start.lean ====
section
/-! DEFINITION. The start of the package and what causes one: power-on and warm reset, the exit from PS4, clock loss, the thermal trip
and rail faults (R446, R457, R463, R469, R472 to R475, R492 to R496, R501 to R503; log entries 77 to 83). -/
namespace Sys2Proof.Machine

/-! ## Images (R492 to R495; log entries 77 and 145) -/

/-- The public key that a certificate carries. -/
def certKeyOf (cert : Bytes) : Bytes := (upFrom 0 64).map (Config.certKey cert)

/-- The two certificates in the body of image 1: that of the root and that of the release key (R493). -/
def certsOf (body : Bytes) : Bytes × Bytes := (body.take (Config.certLen body), body.drop (Config.certLen body))

/-- Does the signature of a header verify under a key (Table 16-8)? -/
def sigOk (key h : Bytes) : Bool := Config.sm2Ok key (h.take 64) (h.drop 64)

/-- Does slot k of image 1 verify: its root key is that of the mask ROM, and signs both certificates and the header (R493, R495)? -/
def State.rootOk (s : State) (k : Nat) : Bool :=
  let c := certsOf (s.imageBody 1 k)
  let key := certKeyOf c.1
  s.digestOk 1 k && sm3 key == (upFrom 0 32).map Config.rootDigest && Config.certOk key c.1 && Config.certOk key c.2 &&
    sigOk key (s.imageHeader 1 k)

/-- The certificates of image 1 in use: those of the newer slot that verifies. -/
def State.certs (s : State) : Option (Bytes × Bytes) := (s.newerSlot 1 s.rootOk).map fun k => certsOf (s.imageBody 1 k)

/-- The device certificate in image 0. -/
def State.deviceCert (s : State) : Bytes := Config.deviceCert (s.imageBody 0 0)

/-- Does slot k of image i verify? Image 0 has one slot, whose certificate the root key signs (R493); images 2 to 6 are signed with the
release key (R495). -/
def State.imageOk (s : State) (i k : Nat) : Bool :=
  if i = 1 then s.rootOk k
  else match s.certs with
    | none => false
    | some c => if i = 0 then k == 0 && Config.certOk (certKeyOf c.1) s.deviceCert else s.digestOk i k && sigOk (certKeyOf c.2) (s.imageHeader i k)

/-- The slot of image i that is taken: that with the higher VERSION among those that verify (R495). -/
def State.imageUse (s : State) (i : Nat) : Option Nat := s.newerSlot i (s.imageOk i)

/-- An image fails to verify. -/
def State.imageFailed (s : State) (i : Nat) : State := s.raise 0x0780 none 0x0001 0 i 0

/-- Slot k of image i is in use. -/
def State.useImage (s : State) (i k : Nat) : State :=
  s.setPower { s.power with images := s.power.images.put [] i (s.imageHeader i k) }

/-- Step 3: images in a given order, and whether every required one verifies. -/
def State.verifyGo : List Nat → State → State × Bool
  | [], s => (s, true)
  | i :: r, s =>
    let s := s.each ((if i = 0 then [0] else [0, 1]).filter fun k => !s.imageOk i k) fun s _ => s.imageFailed i
    match s.imageUse i with
    | some k => State.verifyGo r (s.useImage i k)
    | none => if i = 6 then State.verifyGo r s else (s, false)

/-- Step 4: the records of the configuration image in order, with the Bridge's lock opened for each write (R496). -/
def State.configGo : List (Nat × W32) → State → State × Bool
  | [], s => (s.setLockOpen 4 false, true)
  | (o, v) :: r, s =>
    if 0x4000000 ≤ o then (s.setLockOpen 4 false, false)
    else State.configGo r (if o % 4 = 0 then (s.setLockOpen 4 true).writeReg 4 0 (o % 2 ^ 24) v else s)

/-- The records in the body of the configuration image: 8 bytes each, a register offset and a value (R496). -/
def configRecords (b : Bytes) : List (Nat × W32) :=
  (upFrom 0 (b.length / 8)).map fun i => (field b (8 * i) 4, BitVec.ofNat 32 (field b (8 * i + 4) 4))

/-- The records of the configuration image in use. -/
def State.config (s : State) : List (Nat × W32) :=
  match s.imageUse 5 with
  | some k => configRecords (s.imageBody 5 k)
  | none => []

/-! ## Steps (Table 15-10) -/

/-- Step n is complete. -/
def State.stage (s : State) (n : Nat) : State := s.setFld Reg.pwrBoot Fld.pwrBootStage n

/-- The calibration block i as the AON store returns it at a start. -/
def State.calRead (s : State) (b : BootEnv) (i : Nat) : CalBlock :=
  let x := s.power.cal.get {} i
  match b.damaged.find? fun e => e.1.val == i with
  | some e => { x with data := e.2 }
  | none => x

/-- Does block i verify: it has been written, and its digest is that of its content (R473)? -/
def State.calOk (s : State) (b : BootEnv) (i : Nat) : Bool :=
  let x := s.calRead b i
  x.digest != [] && sm3 x.data == x.digest

/-- Training writes block i again with a new digest. -/
def State.train (s : State) (b : BootEnv) (i : Nat) : State :=
  let data := match b.trained.find? fun e => e.1.val == i with | some e => e.2 | none => []
  s.setPower { s.power with cal := s.power.cal.put {} i { data, digest := sm3 data } }

/-- Steps 6 and 7: calibration blocks (R473). -/
def State.calibrate (s : State) (cold : Bool) (b : BootEnv) : State :=
  let force := cold || s.fld Reg.pwrCfg Fld.pwrCfgForcecal == 1
  let good := (upFrom 0 20).filter fun i => !force && s.calOk b i
  let bad := (upFrom 0 20).filter fun i => !good.contains i
  let s := s.setReg Reg.pwrCalst (BitVec.ofNat 32 (sumBy (fun i => 2 ^ i) good))
  s.each bad fun s i => (s.train b i).when (!cold) fun s => s.raise 0x0704 none 0x0001 0 i 0

/-- Step 8: every Twiac link negotiates with the block that its partner sends (R377, R472; log entry 78). -/
def State.negotiate (s : State) (b : BootEnv) : State :=
  (s.each (upFrom 0 18) fun s n => (s.setTwiState n 2).sendCaps n).each b.caps fun s c => State.receiveCaps c.1 c.2 s

/-- Step 10: the retirement tables of every stack, from the newer copy in flash whose digest verifies (R229). -/
def State.loadTables (s : State) : State :=
  let l := s.savedTables
  let s := match s.newestTables with
    | some k => (s.setRetSave { slot := k, ver := hdrVersion (s.imageHeader 7 k) }).useImage 7 k
    | none => (s.setRetSave {}).raise 0x0301 none 0x0001 0 1 0
  s.each (upFrom 0 8) fun s st => s.loadRet st l

/-- Steps 5 to 12: the log-started record comes before the events that the start has raised. -/
def State.bootRest (s : State) (kind : Nat) (cold : Bool) (b : BootEnv) : State :=
  let s := s.setReg Reg.clkStatus (BitVec.ofNat 32 (2 ^ 26 - 1))
  let s := ((s.calibrate cold b).negotiate b).loadTables
  let boot := s.log.raised
  let s := (s.setLog { s.log with raised := [] }).raise 0x0001 none 0x0004 0 kind 0
  let s := s.setLog { s.log with raised := s.log.raised ++ boot }
  (s.setPower { s.power with starting := false }).bootAttempt.stage 12

/-- The steps of a start whose rails are on: one that fails stops it (R472, R492, R495, R496). -/
def State.bootSteps (s : State) (kind : Nat) (cold : Bool) (b : BootEnv) : State :=
  if !b.refclkGood then s.setFld Reg.clkStatus Fld.clkStatusRefok 0
  else
    let s := (s.setFld Reg.clkStatus Fld.clkStatusRefok 1).stage 1
    let s := s.setPower { s.power with railTries := 0 }
    if !b.pufGood then s.imageFailed 0
    else
      let r := State.verifyGo [1, 0, 2, 3, 4, 5, 6] (s.stage 2)
      if !r.2 then r.1
      else
        let s := r.1.setPower { r.1.power with cert := r.1.deviceCert }
        let c := State.configGo s.config (s.stage 3)
        if !c.2 then c.1 else (c.1.stage 4).bootRest kind cold b

/-- Turns rails on in order, up to one whose power-good does not come: answers whether all came up (R501, R502). -/
def State.railsUp : List Nat → Option Nat → State → State × Bool
  | [], _, s => (s, true)
  | r :: l, stall, s =>
    let s := s.railOn r
    if stall = some r then (s, false) else State.railsUp l stall s

/-- A start from its rail sequence on: the rails that are off are turned on in the order of Table 17-4; where a power-good is missing the
start waits for it (R501, R502; log entry 150). -/
def State.bootRails (s : State) (kind : Nat) (cold : Bool) (b : BootEnv) : State :=
  let off := (upFrom 0 11).filter fun r => !s.power.rails.contains r
  let r := State.railsUp off (b.stalls.head?.map Fin.val) s
  if r.2 then r.1.bootSteps kind cold b
  else
    let rail := match b.stalls.head? with | some x => x.val | none => 0
    r.1.setPower { r.1.power with start := some { kind, cold, env := { b with stalls := b.stalls.tail }, rail } }

/-- A start of the package after a reset of a kind (Table 15-9) that keeps the Firn slices keep picks; the reset event of a warm reset that has
been applied already is not logged again (R470). -/
def State.startPackage (s : State) (kind : Nat) (cold : Bool) (keep : Nat → Bool) (b : BootEnv) : State :=
  let again := s.power.down && !cold
  let s := if cold then s else s.closeDown
  let s := (s.railsOut (s.railsBack (if cold then 0 else 4))).resetPackage cold keep
  let p := s.power
  let s := s.setPower { railTries := if cold then 0 else p.railTries, rails := p.rails, waking := p.waking, cal := p.cal, starting := true }
  let s := (s.setReg Reg.pwrBoot (BitVec.ofNat 32 kind)).setReg Reg.pwrBootms (BitVec.ofNat 32 b.bootMs)
  (s.when (kind != 7 && !again) fun s => s.resetEvent kind 0).bootRails kind cold b

/-! ## What starts the package -/

/-- POWER_ON_RESET (R472): the cold start. -/
def execPowerOnReset (b : BootEnv) (s : State) : Res := .next (s.startPackage 1 true (fun _ => false) b)

/-- May the package leave PS4: no thermal trip waits for a sensor to cool (R469), and no fault holds the rails off (R502, R503)? -/
def State.mayStart (s : State) : Bool := s.power.hot == [] && !s.power.railsOff

/-- A package warm reset (R472, R474): out of PS4, no Firn slice is kept. -/
def State.warmReset (s : State) (b : BootEnv) : State :=
  s.when s.mayStart fun s => s.startPackage 2 false (fun g => s.firnKept g && !s.power.standby) b

/-- PACKAGE_WARM_RESET (R472). -/
def execPackageWarmReset (b : BootEnv) (s : State) : Res := .next (s.warmReset b)

/-- A wake from PS4 (R457, R469). -/
def State.leaveStandby (s : State) (w : WakeSource) (b : BootEnv) : State :=
  let may := match w with
    | .i2c => s.fld Reg.pwrPkg Fld.pwrPkgI2cwake == 1
    | .light p => bit (s.fld Reg.pwrPkg Fld.pwrPkgLightwake) p
  s.when (s.power.standby && may && s.mayStart) fun s => s.startPackage 7 false (fun _ => false) b

/-- STANDBY_WAKE (R457). -/
def execStandbyWake (w : WakeSource) (b : BootEnv) (s : State) : Res := .next (s.leaveStandby w b)

/-- A hub without edges causes a package warm reset (R463). -/
def State.checkHub (s : State) (b : BootEnv) : State :=
  s.when (s.power.oscOff.contains 4 && s.fld Reg.clkStatus Fld.clkStatusHublock == 0) fun s => s.warmReset b

/-- CLOCK_LOSS (R463): without REFCLK every PLL loses lock; a die without edges from its PLL and its oscillator is isolated, and a hub
without them starts the package again. -/
def execClockLoss (e : ClockEvent) (b : BootEnv) (s : State) : Res :=
  .next (match e with
    | .refclk =>
      let s := (s.clockFail 0).setReg Reg.clkStatus 0
      ((s.each (upFrom 0 12) State.loseSerdes).each (upFrom 0 4) State.checkEdges).checkHub b
    | .corePll d => ((s.clockFail (1 + d)).setLock Fld.clkStatusCorelock d false).checkEdges d
    | .hubPll => ((s.clockFail 5).setLock Fld.clkStatusHublock 0 false).checkHub b
    | .serdesPll p => (s.clockFail (11 + p)).loseSerdes p
    | .basePll st => (s.clockFail (23 + st)).setLock Fld.clkStatusBaselock st false
    | .oscillator n =>
      let s := (s.clockFail (6 + n)).stopOsc n
      if n = 4 then s.checkHub b else s.checkEdges n
    | .dieDead d => (((s.clockFail (6 + d)).stopOsc d).setLock Fld.clkStatusCorelock d false).checkEdges d
    | .hubDead => (((s.clockFail 10).stopOsc 4).setLock Fld.clkStatusHublock 0 false).checkHub b)

/-- VHUB_PG_LOSS (R503). -/
def execVhubPgLoss (b : BootEnv) (s : State) : Res := .next (s.when s.running fun s => s.warmReset b)

/-- THERMAL_TRIP (R469): a reading at MARGIN above the limit, or one at the limit for DWELL ms. -/
def execThermalTrip (sensor : Fin 17) (degC : BitVec 8) (dwelt : Bool) (s : State) : Res :=
  let t := degrees degC
  let limit := sensorLimit sensor
  let s := s.readSensor sensor degC
  .next (s.when (decide (limit + s.fld Reg.pwrTrip Fld.pwrTripMargin ≤ t) || (dwelt && decide (limit ≤ t))) fun s =>
    let hot := s.hotSensors
    let s := (s.enterStandby.setFld Reg.pwrBoot Fld.pwrBootTrip 1).resetEvent 2 0
    (s.setPower { s.power with alert := true, hot := hot }))

/-! ## Rails (R501 to R503) -/

/-- Every controlled rail is turned off in reverse order: only the AON domain keeps its state. -/
def State.railsDown (s : State) : State := ((s.railsOut (s.railsBack 0)).resetPackage false fun _ => false).stage 0

/-- The rails are held off until a power-on reset, with the alert pin asserted. -/
def State.holdRails (s : State) : State :=
  let s := s.railsDown
  s.setPower { s.power with alert := true, railsOff := true }

/-- RAIL_PG_TIMEOUT (R502): the rail whose power-good the sequence waits for; every rail that is on goes off, and the sequence is retried
once. -/
def execRailPgTimeout (rail : Fin 11) (s : State) : Res :=
  .next (match s.power.start with
    | none => s
    | some p => s.when (p.rail == rail.val) fun s =>
      if s.power.railTries = 0 then
        let s := s.railsOut (s.railsBack 0)
        (s.setPower { s.power with railTries := 1, start := none }).bootRails p.kind p.cold p.env
      else s.holdRails)

/-- HBM_RAIL_FAULT (R503): one of HBM_VPP, HBM_VDD, HBM_VDDQ and VMOR. -/
def execHbmRailFault (_rail : Fin 4) (s : State) : Res := .next (s.when (!s.power.railsOff) State.holdRails)

end Sys2Proof.Machine
end

