-- ==== Sys2Proof/Machine/I2c.lean ====
section
/-! DEFINITION. The sideband: I²C transactions and the SPI flash behind them (R495, R507, Table 17-7; log entry 84). -/
namespace Sys2Proof.Machine

/-- Does the package answer a register access at an offset: in PS4 and before step 12 only in the PWR and CLK blocks (R507)? -/
def State.i2cServes (s : State) (a : Nat) : Bool :=
  (!s.power.standby && s.fld Reg.pwrBoot Fld.pwrBootStage == 12) ||
    decide (a < 0x4000000 ∧ 0x10000 ≤ a % 2 ^ 24 ∧ a % 2 ^ 24 < 0x30000)

/-- The status of an access at an offset of the 64 MiB window (Table 14-3). -/
def accessStatus (a : Nat) : Nat := if a % 4 ≠ 0 then 2 else if 0x4000000 ≤ a then 3 else 0

/-- I2C_REG_READ (R507): status and value. -/
def execI2cRegRead (offset : W32) (s : State) : Res :=
  let a := offset.toNat
  .next (if !s.i2cServes a then s.send .i2cNack
    else if accessStatus a ≠ 0 then s.send (.i2c (leBytes 1 (accessStatus a) ++ leBytes 4 0))
    else
      let r := s.readReg 4 (a % 2 ^ 24)
      r.1.send (.i2c (leBytes 1 0 ++ leBytes 4 r.2.toNat)))

/-- I2C_REG_WRITE (R507): status. -/
def execI2cRegWrite (offset value : W32) (s : State) : Res :=
  let a := offset.toNat
  .next (if !s.i2cServes a then s.send .i2cNack
    else if accessStatus a ≠ 0 then s.send (.i2c (leBytes 1 (accessStatus a)))
    else (s.writeReg 4 (a / 2 ^ 24) (a % 2 ^ 24) value).send (.i2c (leBytes 1 0)))

/-- I2C_WAKE (R457, R507): no effect outside PS4. -/
def execI2cWake (b : BootEnv) (s : State) : Res := .next (s.leaveStandby .i2c b)

/-- I2C_WARM_RESET (R507): any byte but 0xA5 has no effect. -/
def execI2cWarmReset (key : Byte) (b : BootEnv) (s : State) : Res := .next (s.when (key == 0xA5) fun s => s.warmReset b)

/-- I2C_STATUS (R507): PWR_BOOT and PWR_STATE. -/
def execI2cStatus (s : State) : Res :=
  .next (s.send (.i2c (leBytes 4 (s.view Reg.pwrBoot).toNat ++ leBytes 4 (s.view Reg.pwrState).toNat)))

/-! ## Flash -/

/-- Does [a, a + n) touch image 0 (Table 16-7)? -/
def imageZero (a n : Nat) : Bool := n != 0 && decide (a < 0x10000)

/-- I2C_FLASH_READ (R507). -/
def execI2cFlashRead (offset : W32) (len : Nat) (s : State) : Res :=
  .next (if len = 0 ∨ 256 < len then s.send .i2cNack else s.send (.i2c (s.flashBytes offset.toNat len)))

/-- I2C_FLASH_WRITE (R507): programming clears bits and sets none. -/
def execI2cFlashWrite (offset : W32) (data : Bytes) (s : State) : Res :=
  let a := offset.toNat
  let n := data.length
  .next (if n = 0 ∨ 256 < n ∨ imageZero a n then s.send .i2cNack
    else s.flashProgram a data)

/-- I2C_FLASH_ERASE (R507): the sector of an offset. -/
def execI2cFlashErase (offset : W32) (s : State) : Res :=
  let a := offset.toNat
  .next (if imageZero (a / 0x10000 * 0x10000) 0x10000 then s.send .i2cNack else s.flashErase a)

end Sys2Proof.Machine
end

