-- ==== Sys2Proof/Machine/Recovery.lean ====
section
/-! DEFINITION. The recovery area and its commands, mirror points and generations, partners, restore and attestation (chapter 16;
log entries 85 to 90). -/
namespace Sys2Proof.Machine

/-! ## The recovery area (R477, R478) -/

/-- Bytes of the recovery area of job j. -/
def State.areaBytes (s : State) (j off n : Nat) : Bytes := s.bytes ((s.mirror j).area + off) n

/-- A field of it. -/
def State.area (s : State) (j off n : Nat) : Nat := leNat (s.areaBytes j off n)

/-- Does a range lie wholly within HBM grains owned by job j (R477, Table 13-10)? -/
def State.inHbmOf (s : State) (j a n : Nat) : Bool := decide (regionOf a = some .hbm) && s.rangeFault (some j) a n == none

/-- The address of the recovery directory. -/
def State.recdir (s : State) : Nat := s.reg64 (Reg.glbRecdir 0) % 2 ^ 48 / 32 * 32

/-- The recovery area of job j that the directory names, 0 for none; bits [4:0] of the directory's address are ignored (R477, Table
14-9). -/
def State.areaOf (s : State) (j : Nat) : Nat :=
  let d := s.recdir
  if d = 0 then 0
  else
    let a := leNat (s.bytes (d + 8 * j) 8)
    if a ≠ 0 ∧ s.inHbmOf j a 12288 then a else 0

/-- The Bridge completes a recovery command: CMDSTAT. -/
def State.cmdStat (s : State) (j : Nat) (st : Status) (detail : Nat) : State :=
  s.areaPut j 4 4 (statusCode st + detail % 0x10000 * 0x10000)

/-- The Bridge reads the area of job j and its command word: a reserved command is answered at once (Table 16-2). -/
def State.pollArea (s : State) (j : Nat) : State :=
  let s := (s.when (s.recdir != 0) fun s => s.chargeRange (s.recdir + 8 * j) 8).setMirror j { s.mirror j with area := s.areaOf j }
  let s := s.when ((s.mirror j).area != 0) fun s => s.chargeRange (s.mirror j).area 4
  if (s.mirror j).area = 0 then s.setMirror j { s.mirror j with cmd := 0 }
  else
    let c := s.area j 0 4
    if 4 < c then ((s.areaPut j 0 4 0).cmdStat j .malformed 0).setMirror j { s.mirror j with cmd := 0 }
    else s.setMirror j { s.mirror j with cmd := c }

/-- RECOVERY_POLL (R477). -/
def execRecoveryPoll (s : State) : Res := .next (s.each (upFrom 0 4) State.pollArea)

/-- Runs command c of job j where the Bridge has read it: it accepts the command by writing 0 (Tables 16-1, 16-2). -/
def State.recoveryCmd (s : State) (j c : Nat) (f : State → State) : State :=
  let m := s.mirror j
  s.when (m.cmd == c && m.area != 0) fun s => f ((s.areaPut j 0 4 0).setMirror j { m with cmd := 0 })

/-! ## The layout of a mirror slot (R480 to R482; log entry 86) -/

/-- The optimiser shards of the SHARD entries of job j: kernel, count, state sets by context and stack (Table 16-1). -/
def State.shardPart (s : State) (j ix c st : Nat) : CopyPart :=
  let x := s.area j (0x1000 + 32 * (8 * ix + st)) 32
  let n := bits x 128 32
  { part := 0, stack := st, ctx := c, addr := bits x (64 * (s.headNum c % 2)) 48, size := setSize (bits x 160 8) n
    sel := bits x 160 8, count := n }

/-- The parts of a generation as they stand in the device: shards, control block, head images. -/
def State.ownParts (s : State) (j : Nat) : List CopyPart :=
  let cs := (s.mirror j).ctxs
  let each := fun (f : Nat → Nat → Nat → CopyPart) =>
    (cs.zip (upFrom 0 cs.length)).flatMap fun x => (upFrom 0 8).map fun st => f x.2 x.1 st
  let head : Nat → Nat → Nat → CopyPart := fun _ c st =>
    { part := 1, stack := st, ctx := c, addr := s.slotAddr c st (s.fld (Reg.snpCtxHead c) Fld.snpCtxHeadSlot)
      size := 2 * s.elems c, count := s.elems c }
  each (s.shardPart j) ++ [{ part := 2, size := 512, count := 512 }] ++ each head

/-- Is the region of a mirror in a stack-local window? Then a part of stack st lies in stack st. -/
def State.mirLocal (s : State) (m : Mirror) : Bool := s.winLocal (m.mbase / 2 ^ 37)

/-- The parts laid out one after the other from a base; with split set each stack has its own row, 2^34 bytes apart. -/
def layParts (split : Bool) (base : Nat) : List CopyPart → List CopyPart → List CopyPart
  | _, [] => []
  | before, p :: r =>
    let same := if split then before.filter fun x => x.stack == p.stack else before
    let a := base + (if split then p.stack * 2 ^ 34 else 0) + sumBy CopyPart.size same
    { p with addr := a } :: layParts split base (before ++ [p]) r

/-- Bytes that parts take: in the fullest stack where they are split, else in all. -/
def partsSize (split : Bool) (l : List CopyPart) : Nat :=
  if split then ((upFrom 0 8).map fun st => sumBy CopyPart.size (l.filter fun x => x.stack == st)).foldl max 0
  else sumBy CopyPart.size l

/-- Bytes of a mirror slot: in each stack where the region is split. -/
def State.mirSlot (s : State) (m : Mirror) : Nat := if s.mirLocal m then m.msize / 16 else m.msize / 2

/-- The lowest address of the slot of generation g in the mirror region, in the row of stack st where the region is split. -/
def State.slotBase (s : State) (j g st : Nat) : Nat :=
  let m := s.mirror j
  (if s.mirLocal m then m.mbase / 2 ^ 37 * 2 ^ 37 + st * 2 ^ 34 + m.mbase % 2 ^ 34 else m.mbase) + g % 2 * s.mirSlot m

/-- The parts of the self copy of generation g in the mirror region: they come first in its slot (R482). -/
def State.slotParts (s : State) (j g : Nat) : List CopyPart :=
  layParts (s.mirLocal (s.mirror j)) (s.slotBase j g 0) [] (s.ownParts j)

/-- Bytes that k incoming copies and the own one need in a slot, the last of them without head images (R481, R482). -/
def State.slotNeed (s : State) (j k : Nat) : Nat :=
  let l := s.ownParts j
  let split := s.mirLocal (s.mirror j)
  k * partsSize split l + partsSize split (l.filter fun p => p.part != 1)

/-- Does a part lie in the mirror region's slot of generation g? -/
def State.inSlot (s : State) (j g : Nat) (p : CopyPart) : Bool :=
  let st := if s.mirLocal (s.mirror j) then p.stack else 0
  decide (p.addr + p.size ≤ s.slotBase j g st + s.mirSlot (s.mirror j))

/-- The lowest address from a base, or from the end of a range in use, at which n bytes meet no range in use. -/
def fitAddr (used : List (Nat × Nat)) (base n : Nat) : Nat :=
  let free := fun a => !used.any fun u => overlaps a n u.1 u.2
  ((((base :: used.map fun u => u.1 + u.2).filter fun a => decide (base ≤ a) && free a)).foldl (fun m a => optMin m (some a)) none).getD base

/-- Where elements first to first + n of a part lie, as address and bytes: all arrays of a state set in turn (Table 8-5), or the
bytes or codes of the part. -/
def CopyPart.pieces (p : CopyPart) (first n : Nat) : List (Nat × Nat) :=
  if p.part = 0 then
    [(p.addr + 4 * first, 4 * n)] ++ (if p.sel = 1 then [(p.addr + 4 * p.count + 4 * first, 4 * n)] else []) ++
      [(p.addr + p.size - p.count + first, n)]
  else if p.part = 1 then [(p.addr + 2 * first, 2 * n)]
  else [(p.addr + first, n)]

/-- Bytes of an element of a part. -/
def CopyPart.unit (p : CopyPart) : Nat := if p.part = 0 then setSize p.sel 1 else if p.part = 1 then 2 else 1

/-- Elements first to first + n of a part of a copy, in at most k transfers: each with its first element in it and its count. -/
def MirrorCopy.cover (c : MirrorCopy) (part stack ctx : Nat) : Nat → Nat → Nat → Option (List (CopyPart × Nat × Nat))
  | _, _, 0 => some []
  | 0, _, _ => none
  | k + 1, first, n =>
    match c.parts.find? fun p => p.part == part && (part == 2 || (p.stack == stack && p.ctx == ctx)) &&
        decide (p.first ≤ first ∧ first < p.first + p.count) with
    | none => none
    | some p =>
      let m := min n (p.first + p.count - first)
      (c.cover part stack ctx k (first + m) (n - m)).map fun l => (p, first - p.first, m) :: l

/-- The pieces of several transfers, array after array. -/
def joinPieces (l : List (List (Nat × Nat))) : List (Nat × Nat) := (upFrom 0 3).flatMap fun i => l.filterMap fun x => x[i]?

/-- The bytes of pieces. -/
def State.gather (s : State) (l : List (Nat × Nat)) : Bytes := l.flatMap fun x => s.bytes x.1 x.2

/-- Reads pieces. -/
def State.readPieces (s : State) (l : List (Nat × Nat)) : State := s.each l fun s x => s.chargeRange x.1 x.2

/-- The first byte of pieces that cannot be read. -/
def State.badPieces (s : State) (l : List (Nat × Nat)) : Option Nat := l.foldl (fun m x => optMin m (s.badByte x.1 x.2)) none

/-! ## CONFIGURE and HALT (R479, R485, R487, Table 16-2) -/

/-- The candidates with their feed tags. -/
def State.candidates (s : State) (j : Nat) : List (W32 × Nat) :=
  (upFrom 0 8).map fun i => (BitVec.ofNat 32 (s.area j (0x10 + 4 * i) 4), s.area j (0x30 + 2 * i) 2)

/-- CONFIGURE after its checks. Copies that are committed are kept, and so are the partnerships of others (log entry 127); the mirror points
before the steps of the mirrored partitions are over (log entry 151). -/
def State.configMirror (s : State) (j : Nat) : State :=
  let m := s.mirror j
  let n := s.area j 8 2
  let pol := s.area j 0xA 1
  let keep := m.copies.filter MirrorCopy.committed
  let m : Mirror :=
    { area := m.area, on := n != 0, n := n, cont := bit pol 0, tierAlways := bit pol 1, feed := s.area j 0xC 2
      ctxs := (s.areaBytes j 0x60 (s.area j 0xB 1)).map BitVec.toNat, cands := s.candidates j, tier := s.area j 0x40 8 % 2 ^ 48
      incoming := m.incoming, mbase := s.area j 0x48 8 % 2 ^ 48, msize := s.area j 0x50 8, copies := keep, restore := m.restore }
  let steps := m.ctxs.map fun c => (s.reg (Reg.stgTabStep (c / 4))).toNat
  s.setMirror j { m with next := steps.foldl max 0 }

/-- CONFIGURE (R487). -/
def State.configureMirror (s : State) (j : Nat) : State :=
  let s := s.endGen j
  let k := s.area j 0xB 1
  if 16 < k ∨ (s.areaBytes j 0x60 k).any (fun c => s.partJob (c.toNat / 4) != j) then s.cmdStat j .malformed 88
  else
    let t := s.configMirror j
    let m := t.mirror j
    let need := if m.n = 0 then 0 else t.slotNeed j 1
    if t.mirSlot m < need then s.cmdStat j .malformed 640
    else if m.n = 0 then ((t.areaPut j 0xC8 4 0).areaPut j 0xCC 1 0).cmdStat j .done 0
    else (t.seekPartner j).cmdStat j .done 0

/-- RECOVERY_CONFIGURE (R487). -/
def execRecoveryConfigure (job : Fin 4) (s : State) : Res := .next (s.recoveryCmd job 1 fun s => s.configureMirror job)

/-- Mirroring stops: a generation under way ends, committed copies stay (R485, Table 16-2). -/
def State.haltMirror (s : State) (j : Nat) : State :=
  let s := s.endGen j
  let m := s.mirror j
  let s := s.setMirror j { m with on := false, partner := none, asking := none, incoming := [], missed := 0, made := [] }
  ((s.areaPut j 0xC8 4 0).areaPut j 0xCC 1 0).cmdStat j .done 0

/-- RECOVERY_HALT (R485). -/
def execRecoveryHalt (job : Fin 4) (s : State) : Res :=
  .next (s.recoveryCmd job 2 fun s => s.haltMirror job)

/-! ## ATTEST (R497) -/

/-- The first 192 bytes of the report (Table 16-9). -/
def State.reportBody (s : State) (j : Nat) : Bytes :=
  let r := fun (o : Nat) => leBytes 4 (s.view o).toNat
  let ver := fun (i : Nat) => match s.power.images.find? fun x => x.1 == i with | some x => hdrVersion x.2 | none => 0
  leBytes 2 1 ++ leBytes 1 j ++ leBytes 1 (s.fld Reg.pwrBoot Fld.pwrBootKind) ++ r Reg.glbId ++ (upFrom 0 8).map Config.ident ++
    s.areaBytes j 0x900 32 ++ leBytes 8 s.now.toNat ++ r Reg.glbEpoch ++ r Reg.cfiStatus ++
    sm3 (s.power.images.flatMap Prod.snd) ++ (upFrom 0 8).flatMap (fun i => leBytes 4 (ver i)) ++
    (upFrom 0 5).flatMap (fun d => r (Reg.cfiRef d)) ++ leBytes 12 0 ++ sm3 s.power.cert

/-- ATTEST: the report, signed with a key that nothing shows (R492, R497). -/
def State.attest (s : State) (j : Nat) : State :=
  let a := (s.mirror j).area
  let sig := (upFrom 0 64).map (Config.freeByte s.free)
  ((s.store (a + 0xA00) (s.reportBody j ++ sig)).tick).cmdStat j .done 0

/-- RECOVERY_ATTEST (R497). -/
def execRecoveryAttest (job : Fin 4) (s : State) : Res := .next (s.recoveryCmd job 3 fun s => s.attest job)

/-! ## A generation (R479 to R484, R489) -/

/-- The mirror point that is due: the least step that every mirrored context has reached (R479). -/
def Mirror.due (m : Mirror) : Option Nat :=
  (m.made.map Prod.snd).foldl (fun r p => if m.ctxs.all fun c => m.made.contains (c, p) then optMin r (some p) else r) none

/-- The next generation's number: its slot is not that of the latest commit (R482; log entry 87). -/
def Mirror.nextGen (m : Mirror) : Nat :=
  let g := m.gens + 1
  match m.copies.find? fun c => c.src == none && c.committed with
  | some c => if c.gen % 2 = g % 2 then g + 1 else g
  | none => g

/-- The control block (Table 16-3). -/
def State.controlBlock (s : State) (j step : Nat) (digest : W64) : Bytes :=
  let cs := (s.mirror j).ctxs
  let g := s.leadCluster (cs.headD 0 / 4)
  let vers := cs.flatMap fun c => leBytes 2 (s.headNum c)
  (upFrom 0 4).flatMap (fun n => leBytes 4 (s.reg (Reg.cirNuSeed g n)).toNat) ++ leBytes 4 step ++ leBytes 12 0 ++
    vers ++ leBytes (32 - vers.length) 0 ++ leBytes 8 digest.toNat ++ leBytes 184 0 ++ s.areaBytes j 0x800 256

/-- The head digest: the XOR of the CRC-64 of every master image (R481). -/
def State.headDigest (s : State) (l : List CopyPart) : W64 :=
  (l.filter fun p => p.part == 1).foldl (fun d p => d ^^^ BitVec.ofNat 64 (crc64 (s.bytes p.addr p.size))) 0

/-- Bytes 40 on of a MIRROR segment (Table 16-4). -/
def mirTail (j : Nat) (restore : Bool) (p : CopyPart) (gen step first : Nat) : Bytes :=
  leBytes 1 (j + 4 * b2n restore) ++ leBytes 1 p.part ++ leBytes 1 p.stack ++ leBytes 1 p.ctx ++ leBytes 4 gen ++ leBytes 4 step ++
    leBytes 4 first

/-- Sends parts of the generation under way to the partner; their RECEIPTs are awaited (R482). -/
def State.sendParts (s : State) (j : Nat) (dest : W32) (l : List CopyPart) : State :=
  s.each (l.filter fun p => p.size != 0) fun s p =>
    match (s.mirror j).cur with
    | none => s
    | some g =>
      let r := (s.chargeRange p.addr p.size).submit
        { dest, typ := 8, vc := 3, tail := mirTail j false p g.gen g.step.toNat 0, body := s.bytes p.addr p.size, why := .mirror j }
      r.1.setMirror j { r.1.mirror j with cur := some { g with xids := g.xids ++ [r.2.1] } }

/-- The generation fails where admission has refused a transfer of it (R325, R484). -/
def State.refusedParts (s : State) (j : Nat) : State :=
  s.when (s.fab.xfers.any fun t => t.why == .mirror j && t.ended != none) fun s => s.failGen j

/-- A copy descriptor (Table 7-2) of channel 0 that copies rows of len bytes, one after the other, from src to dst. -/
def copyDesc (src dst len rows : Nat) : Bytes :=
  leBytes 6 src ++ leBytes 2 0 ++ leBytes 6 dst ++ leBytes 2 0 ++ leBytes 4 len ++ leBytes 4 rows ++ leBytes 4 len ++ leBytes 4 len

/-- The descriptors that copy n bytes: rows of 4,096 bytes, and the rest. -/
def copyDescs (src dst n : Nat) : List Bytes :=
  let k := n / 4096
  (if k = 0 then [] else [copyDesc src dst 4096 k]) ++
    (if n % 4096 = 0 then [] else [copyDesc (src + k * 4096) (dst + k * 4096) (n % 4096) 1])

/-- The hub copy engine of the job's MQPORT takes a descriptor of job j's generation (R404, R489). -/
def State.tierDesc (s : State) (j : Nat) (b : Bytes) : State :=
  let p := s.mqPort j
  let id := s.nextId
  let s := s.accept { id := 0, unit := 0x0012, index := p, owner := .mirror j }
  let e := 512 + p
  let s := s.setChan e 0 { s.chan e 0 with queue := (s.chan e 0).queue ++ [{ item := id, desc := b, job := some j }] }
  match (s.mirror j).cur with
  | none => s
  | some g => s.setMirror j { s.mirror j with cur := some { g with tier := g.tier ++ [id] } }

/-- Where a part of the self copy lies in the tier, which has the layout of the mirror region: the rows of a split slot follow one another
(R489; log entry 89). -/
def State.tierAddr (s : State) (j g : Nat) (p : CopyPart) : Nat :=
  let m := s.mirror j
  let st := if s.mirLocal m then p.stack else 0
  m.tier + g % 2 * (m.msize / 2) + st * s.mirSlot m + (p.addr - s.slotBase j g st)

/-- Writes the parts of the generation to the host tier, in full, through the hub copy engine (R489). -/
def State.writeTier (s : State) (j g : Nat) (l : List CopyPart) : State :=
  s.each (l.flatMap fun p => copyDescs p.addr (s.tierAddr j g p) p.size) fun s b => s.tierDesc j b

/-- The self copy of a part: that of a head image is a VREAD in W16 of the Moraine engine of its stack, whose digest is taken with it (R481);
a shard is copied as it stands, and the control block is made (log entry 128). -/
def State.selfCopy (s : State) (ctl : Bytes) (p d : CopyPart) : State :=
  if p.part = 2 then s.store d.addr ctl
  else if p.part = 1 then
    let k := s.fld (Reg.snpCtxHead p.ctx) Fld.snpCtxHeadSlot
    let v := s.versionBytes p.ctx p.stack k 0 p.count .w16
    let n := s.vreadTraffic p.ctx p.stack k 0 p.count .w16
    (((s.readVersion p.ctx p.stack k 0 p.count false).store d.addr v.1).engCount p.stack p.count n v.2.nonfin)
  else (s.chargeRange p.addr p.size).store d.addr (s.bytes p.addr p.size)

/-- The generation of mirror point p starts: the self copy, the transfers to the partner, the tier (R479 to R482, R489). -/
def State.startGen (s : State) (j p : Nat) : State :=
  let m := s.mirror j
  let g := m.nextGen
  let src := s.ownParts j
  let dst := s.slotParts j g
  let digest := s.headDigest src
  let ctl := s.controlBlock j p digest
  let need := src.filter fun x => x.part != 2 && x.size != 0
  let bad := need.any (fun x => (s.rangeFault (some j) x.addr x.size).isSome || (s.badByte x.addr x.size).isSome) ||
    dst.any (fun x => (s.rangeFault (some j) x.addr x.size).isSome || !s.inSlot j g x)
  let gen : Gen := { gen := g, step := BitVec.ofNat 32 p, digest, needPartner := m.partner.isSome }
  let own : MirrorCopy → Bool := fun c => c.src == none && c.gen % 2 == g % 2
  let copy : MirrorCopy := { gen := g, step := gen.step, digest, parts := dst }
  let s := s.setMirror j { m with gens := g, cur := some gen, made := m.made.filter fun x => x.2 != p
                                  copies := copy :: m.copies.filter fun c => !own c }
  if bad then (s.each need fun s x => s.chargeErrors x.addr x.size).failGen j
  else
    let s := s.chargeRange (m.area + 0x800) 256
    let s := s.each ((src.zip dst).filter fun x => x.1.size != 0) fun s x => s.selfCopy ctl x.1 x.2
    if m.tier = 0 ∧ m.partner = none then s.failGen j
    else
      let s := s.when (m.tier != 0 && (m.partner.isNone || m.tierAlways)) fun s => s.writeTier j g dst
      match m.partner with
      | some d => ((s.sendParts j d (dst.filter fun x => x.part != 1)).refusedParts j).offerCommit j
      | none => s.offerCommit j

/-- MIRROR_START (R479). -/
def execMirrorStart (job : Fin 4) (s : State) : Res :=
  let m := s.mirror job
  .next (s.when (m.on && m.cur == none && m.asking == none) fun s =>
    match m.due with
    | none => s
    | some p => s.startGen job p)

/-! ## The commit (R482, R484) -/

/-- MIRROR_COMMIT_RECEIVE (R482): the digest is checked against the own head of the same mirror point, or the head image has come
in full. -/
def execMirrorCommitReceive (job : Fin 4) (src : W32) (gen step : W32) (digest : W64) (s : State) : Res :=
  let j := job.val
  let m := s.mirror j
  let mine : MirrorCopy → Bool := fun c => c.src == some src && c.gen == gen.toNat
  .next (if !m.on || !m.incoming.contains src || !m.copies.any mine then s.sendMgmt src 3 j gen.toNat step 7 0 []
    else
      let same := m.copies.any fun c => c.src == none && c.step == step && c.digest == digest
      let full := m.copies.any fun c => mine c && c.full
      if same || full then
        let up : MirrorCopy → MirrorCopy := fun c => if mine c then { c with step := step, digest := digest, committed := true } else c
        (s.setMirror j { m with copies := m.copies.map up }).sendMgmt src 5 j gen.toNat step 0 digest []
      else s.sendMgmt src 3 j gen.toNat step 8 0 [])

/-- MIRROR_COMMITTED_RECEIVE (R482). -/
def execMirrorCommittedReceive (job : Fin 4) (src : W32) (gen : W32) (s : State) : Res :=
  let m := s.mirror job
  .next (match m.cur with
    | none => s
    | some g => s.when (m.partner == some src && g.sent && g.gen == gen.toNat) fun s =>
      (s.setMirror job { m with cur := some { g with sent := false, needPartner := false } }).offerCommit job)

/-- MIRROR_COMMIT_TIMEOUT (R484). -/
def execMirrorCommitTimeout (job : Fin 4) (s : State) : Res :=
  .next (match (s.mirror job).cur with
    | none => s
    | some g => s.when g.sent fun s => s.failGen job)

/-- The head image goes to the partner in full, after a digest mismatch (R481, R482). -/
def State.sendHeads (s : State) (j : Nat) (src : W32) : State :=
  let m := s.mirror j
  match m.cur with
  | none => s
  | some g =>
    let own := m.copies.find? fun c => c.src == none && c.gen == g.gen
    let l := match own with | some c => c.parts.filter fun p => p.part == 1 | none => []
    (((s.setMirror j { m with cur := some { g with sent := false } }).sendParts j src l).refusedParts j).offerCommit j

/-! ## Partners (R487, R488, R490) -/

/-- A reason of Table 16-6 that applies to a HELLO, 0 for none: the lowest, but 7 where mirroring is off. -/
def State.helloReason (s : State) (j : Nat) (src : W32) (feed : Nat) : Nat :=
  let m := s.mirror j
  let k := if m.incoming.contains src then m.incoming.length else m.incoming.length + 1
  if !m.on then 7
  else if feed = m.feed ∧ feed ≠ 0 then 1
  else if feed = 0 ∨ m.feed = 0 then 2
  else if [0, 2, 3].any fun a => axisIx src a != axisIx s.ownAddr a then 3
  else if s.mirSlot m < s.slotNeed j k then 4
  else if 2 < k then 5
  else 0

/-- HELLO_RECEIVE (R487). -/
def execHelloReceive (job : Fin 4) (src : W32) (feed : BitVec 16) (s : State) : Res :=
  let j := job.val
  let m := s.mirror j
  let r := s.helloReason j src feed.toNat
  .next (if r ≠ 0 then s.sendMgmt src 3 j 0 0 r 0 []
    else
      let l := if m.incoming.contains src then m.incoming else m.incoming ++ [src]
      (s.setMirror j { m with incoming := l }).sendMgmt src 2 j 0 0 0 0 [])

/-- The candidate that has been asked is the partner (R487). -/
def State.accepted (s : State) (j : Nat) (src : W32) : State :=
  let s := s.setMirror j { s.mirror j with asking := none, partner := some src, missed := 0 }
  (s.areaPut j 0xC8 4 src.toNat).areaPut j 0xCC 1 2

/-- The candidate that has been asked does not become the partner: the next is asked (R487). -/
def State.turnedDown (s : State) (j : Nat) (src : W32) (reason : Nat) : State :=
  State.askNext j 8 ((s.setMirror j { s.mirror j with asking := none }).partnerRefused j src reason)

/-- PARTNER_ANSWER_TIMEOUT (R487). -/
def execPartnerAnswerTimeout (job : Fin 4) (s : State) : Res :=
  .next (match (s.mirror job).asking with
    | none => s
    | some d => s.turnedDown job d 6)

/-- HEARTBEAT_SEND (R488): to the partner and to those whose partner this device is. -/
def execHeartbeatSend (job : Fin 4) (s : State) : Res :=
  let j := job.val
  let m := s.mirror j
  let l := m.partner.toList ++ m.incoming.filter fun d => m.partner != some d
  .next (s.when m.on fun s =>
    (s.each l fun s d => s.sendMgmt d 6 j 0 0 0 0 []).setMirror j
      { m with missed := if m.partner = none then m.missed else m.missed + 1 })

/-- HEARTBEAT_RECEIVE (R488). -/
def execHeartbeatReceive (job : Fin 4) (src : W32) (s : State) : Res :=
  let m := s.mirror job
  .next (s.when (m.partner == some src) fun s => s.setMirror job { m with missed := 0 })

/-- The partner is lost: a generation under way fails, and a partner is selected again (R484, R490). -/
def State.losePartner (s : State) (j : Nat) : State :=
  if (s.mirror j).cur = none then s.seekPartner j else s.failGen j

/-- PARTNER_LOST (R490). -/
def execPartnerLost (job : Fin 4) (s : State) : Res :=
  let m := s.mirror job
  .next (s.when (m.on && m.partner.isSome && decide (5 ≤ m.missed)) fun s => s.losePartner job)

/-! ## RESTORE (R491) -/

/-- A restore entry (Table 16-5). -/
structure RestoreEntry where
  src : W32
  owner : W32
  part : Nat
  stack : Nat
  ctx : Nat
  first : Nat
  count : Nat
  dst : Nat
  deriving DecidableEq, Repr

/-- Parses a restore entry. -/
def parseRestore (b : Bytes) : RestoreEntry :=
  { src := BitVec.ofNat 32 (field b 0 4), owner := BitVec.ofNat 32 (field b 4 4), part := field b 8 1, stack := field b 9 1
    ctx := field b 10 1, first := field b 12 4, count := field b 16 4, dst := field b 24 6 }

/-- Entry e of the restore of job j. -/
def State.restoreEntry (s : State) (j e : Nat) : RestoreEntry := parseRestore (s.areaBytes j (0x2000 + 32 * e) 32)

/-- The own self copy or an incoming one of a device's committed generation. -/
def State.heldCopy (s : State) (j : Nat) (owner : W32) (gen : Nat) : Option MirrorCopy :=
  (s.mirror j).copies.find? fun c => c.committed && c.gen == gen && c.src == (if owner = s.ownAddr then none else some owner)

/-- The head image of context c of a partner that its incoming copy holds by reference is that of the own context with the same number, or
else in the same place of the context list (R481; log entry 86). -/
def MirrorCopy.ownCtx (c own : MirrorCopy) (ctx : Nat) : Nat :=
  let ids := fun (x : MirrorCopy) => ((x.parts.filter fun p => p.part == 0).map CopyPart.ctx).eraseDups
  if (ids own).contains ctx then ctx else (ids own).getD ((ids c).idxOf ctx) ctx

/-- The pieces that an entry names of a generation: a head image that an incoming copy holds by reference is that of the own
self copy of the same mirror point (R481). -/
def State.heldPieces (s : State) (j : Nat) (r : RestoreEntry) (c : MirrorCopy) : Option (List (Nat × Nat)) :=
  let pieces := fun (c : MirrorCopy) (ctx : Nat) => (c.cover r.part r.stack ctx (c.parts.length + 1) r.first r.count).map fun l =>
    joinPieces (l.map fun x => x.1.pieces x.2.1 x.2.2)
  if c.src ≠ none ∧ r.part = 1 ∧ !c.full then
    ((s.mirror j).copies.find? fun o => o.src == none && o.step == c.step && o.digest == c.digest).bind fun o =>
      pieces o (c.ownCtx o r.ctx)
  else pieces c r.ctx

/-- What an entry copies from here: its pieces, read, or how it ends. -/
def State.restoreSource (s : State) (j : Nat) (r : RestoreEntry) (gen : Nat) : State × (Completion ⊕ List (Nat × Nat)) :=
  match s.heldCopy j r.owner gen with
  | none => (s, .inl (malformed 0))
  | some c =>
    match s.heldPieces j r c with
    | none => (s, .inl (malformed 96))
    | some l =>
      (s.readPieces l, match s.badPieces l with
        | some a => .inl (dataError a 0)
        | none => .inr l)

/-- The restore goes on after the entry that has ended (R491): CMDSTAT takes the first failure. -/
def State.restoreEnd (s : State) (j : Nat) (c : Completion) : State :=
  let m := s.mirror j
  match m.restore with
  | none => s
  | some r =>
    let fail := if r.fail = none ∧ c.status ≠ .done then some (c.status, r.ix) else r.fail
    s.setMirror j { m with restore := some { r with ix := r.ix + 1, got := 0, fail } }

/-- Runs entries from the own copies, up to one that another device must send (R491). -/
def State.runRestore (j : Nat) : Nat → State → State
  | 0, s => s
  | n + 1, s =>
    let m := s.mirror j
    match m.restore with
    | none => s
    | some r =>
      if r.count ≤ r.ix then
        (s.setMirror j { m with restore := none }).cmdStat j (match r.fail with | some f => f.1 | none => .done)
          (match r.fail with | some f => f.2 | none => 0)
      else
        let e := s.restoreEntry j r.ix
        let s := s.chargeRange (m.area + 0x2000 + 32 * r.ix) 32
        let go := fun (s : State) (c : Completion) => State.runRestore j n (s.restoreEnd j c)
        if e.count = 0 then go s { status := .empty }
        else if e.src ≠ s.ownAddr then
          s.sendMgmt e.src 7 j r.gen 0 0 0 (s.areaBytes j (0x2000 + 32 * r.ix) 32)
        else
          let x := s.restoreSource j e r.gen
          match x.2 with
          | .inl c => go x.1 c
          | .inr l =>
            match s.rangeFault (some j) e.dst (sumBy Prod.snd l) with
            | some a => go x.1 (addressFault a)
            | none => go (x.1.store e.dst (s.gather l)) {}

/-- RECOVERY_RESTORE (R491): it waits for a generation under way to end (R485). -/
def execRecoveryRestore (job : Fin 4) (s : State) : Res :=
  let j := job.val
  let m := s.mirror j
  .next (s.when (m.cur == none && m.restore == none) fun s => s.recoveryCmd j 4 fun s =>
    let n := min 128 (s.area j 0xB04 4)
    let r : Restore := { gen := s.area j 0xB00 4, count := n }
    State.runRestore j (n + 1) (s.setMirror j { s.mirror j with restore := some r }))

/-- The entry that runs ends, and the restore goes on. -/
def State.restoreNext (s : State) (j : Nat) (c : Completion) : State := State.runRestore j 129 (s.restoreEnd j c)

/-- The entry that runs, where it waits for device src. -/
def State.restoreWaits (s : State) (j : Nat) (src : W32) : Option (Restore × RestoreEntry) :=
  match (s.mirror j).restore with
  | none => none
  | some r =>
    let e := s.restoreEntry j r.ix
    if r.ix < r.count ∧ e.src = src ∧ src ≠ s.ownAddr then some (r, e) else none

/-- RESTORE_REQ_RECEIVE (R491): MIRROR segments with RESTORE set, or a REFUSE where the generation is no longer held (log entry
90). -/
def State.restoreReq (s : State) (j : Nat) (src : W32) (gen : Nat) (entry : Bytes) : State :=
  let e := parseRestore entry
  let x := s.restoreSource j e gen
  match x.2 with
  | .inl _ => x.1.sendMgmt src 3 j gen 0 7 0 []
  | .inr l =>
    let step := match s.heldCopy j e.owner gen with | some c => c.step.toNat | none => 0
    let p : CopyPart := { part := e.part, stack := e.stack, ctx := e.ctx, size := 0 }
    let s := (x.1.submit { dest := src, typ := 8, vc := 3, tail := mirTail j true p gen step e.first, body := s.gather l
                           why := .notice }).1
    s.setFab { s.fab with xfers := s.fab.xfers.filter fun t => !(t.why == .notice && t.ended != none) }

/-- RESTORE_REQ_RECEIVE (R491). -/
def execRestoreReqReceive (job : Fin 4) (src : W32) (gen : W32) (entry : Bytes) (s : State) : Res :=
  .next (s.restoreReq job src gen.toNat entry)

/-- PARTNER_ANSWER_RECEIVE (R487): the answer to HELLO; a REFUSE of a RESTORE_REQ (R491) or of a COMMIT (R482, R490). -/
def execPartnerAnswerReceive (job : Fin 4) (src : W32) (a : PartnerAnswer) (s : State) : Res :=
  let j := job.val
  let m := s.mirror j
  let sent : Bool := match m.cur with | some g => g.sent && m.partner == some src | none => false
  .next (match a with
    | .accept => s.when (m.asking == some src) fun s => s.accepted j src
    | .refuse r =>
      if m.asking = some src then s.turnedDown j src r
      else if sent && r == 8 then s.sendHeads j src
      else if sent && r == 7 then s.losePartner j
      else s.when (s.restoreWaits j src).isSome fun s => s.restoreNext j (malformed 0))

/-! ## MIRROR segments (R482, R486, R491) -/

/-- A MIRROR transfer of a partner's generation as a part of its copy, not yet placed: its elements are those of the kernel of the own
shards (log entry 86). -/
def State.incomingPart (s : State) (m : MirrorSeg) : CopyPart :=
  let own := s.ownParts m.job
  let sel := match own.find? fun p => p.part == 0 && p.stack == m.stack.val with | some p => p.sel | none => 0
  let p : CopyPart := { part := m.part, first := m.first, size := m.body.length, sel := sel
                        stack := if m.part = 2 then 0 else m.stack, ctx := if m.part = 2 then 0 else m.ctx }
  let n := m.body.length / p.unit
  { p with count := n, size := n * p.unit }

/-- Where an incoming part goes in the slot of generation g: over the same range that came before, or else after the self copy where no
incoming part in use lies. -/
def State.placePart (s : State) (j g : Nat) (keep : List MirrorCopy) (copy : MirrorCopy) (p : CopyPart) : CopyPart :=
  match copy.parts.find? fun x => x.part == p.part && x.stack == p.stack && x.ctx == p.ctx && x.first == p.first && x.size == p.size with
  | some x => x
  | none =>
    let split := s.mirLocal (s.mirror j)
    let row : CopyPart → Bool := fun x => !split || x.stack == p.stack
    let own := sumBy CopyPart.size ((s.ownParts j).filter row)
    let used := (copy.parts ++ (keep.filter fun c => c.src != none && c.gen % 2 == g % 2).flatMap MirrorCopy.parts).filter row
    { p with addr := fitAddr (used.map fun x => (x.addr, x.size)) (s.slotBase j g (if split then p.stack else 0) + own) p.size }

/-- A MIRROR transfer of a partner's generation goes into the incoming copy (R482). -/
def State.mirrorIn (s : State) (m : MirrorSeg) : State :=
  let j := m.job.val
  let w := s.mirror j
  let g := m.gen.toNat
  let mine : MirrorCopy → Bool := fun c => c.src == some m.src && c.gen == g
  let old : MirrorCopy → Bool := fun c => c.src == some m.src && c.gen % 2 == g % 2 && !mine c
  let keep := w.copies.filter fun c => !(mine c || old c)
  let copy := (w.copies.find? mine).getD { src := some m.src, gen := g, step := m.step }
  let p := s.placePart j g keep copy (s.incomingPart m)
  if !s.inSlot j g p then s.sendReceipt m.src m.xid (addressFault p.addr)
  else match s.rangeFault (some j) p.addr p.size with
    | some a => s.sendReceipt m.src m.xid (addressFault a)
    | none =>
      let heads := if m.part = 1 ∧ m.first = 0 then ((m.stack.val, m.ctx.val) :: copy.heads).eraseDups else copy.heads
      let all := decide (((s.ownParts j).filter fun x => x.part == 1 && x.size != 0).length ≤ heads.length)
      let parts := if copy.parts.contains p then copy.parts else copy.parts ++ [p]
      let copy := { copy with parts, heads, full := copy.full || (heads != [] && all) }
      ((s.store p.addr (m.body.take p.size)).setMirror j { w with copies := copy :: keep }).sendReceipt m.src m.xid
        { count := m.body.length }

/-- A MIRROR transfer of a restore goes to the entry's destination (R491). -/
def State.mirrorBack (s : State) (m : MirrorSeg) : State :=
  let j := m.job.val
  match s.restoreWaits j m.src with
  | none => s.sendReceipt m.src m.xid (malformed 322)
  | some (r, e) =>
    if r.gen ≠ m.gen.toNat ∨ e.part ≠ m.part ∨ (m.part ≠ 2 ∧ (e.stack ≠ m.stack ∨ e.ctx ≠ m.ctx)) ∨ e.first ≠ m.first then
      s.sendReceipt m.src m.xid (malformed 322)
    else match s.rangeFault (some j) e.dst m.body.length with
      | some a => (s.sendReceipt m.src m.xid (addressFault a)).restoreNext j (addressFault a)
      | none => ((s.store e.dst m.body).sendReceipt m.src m.xid { count := m.body.length }).restoreNext j {}

/-- The whole body of a MIRROR transfer has arrived (R482, R486, R491). -/
def State.mirrorSegment (s : State) (m : MirrorSeg) : State :=
  let w := s.mirror m.job
  if 2 < m.part then s.sendReceipt m.src m.xid (malformed 328)
  else if m.restore then s.mirrorBack m
  else if w.on ∧ w.incoming.contains m.src then s.mirrorIn m
  else s.sendReceipt m.src m.xid (malformed 32)

/-- MIRROR_SEGMENT_RECEIVE (R482). -/
def execMirrorSegmentReceive (m : MirrorSeg) (s : State) : Res := .next (s.mirrorSegment m)

end Sys2Proof.Machine
end

