-- ==== Sys2Proof/Machine/Place.lean ====
section
/-! DEFINITION. The placement of a transfer whose bytes have all arrived, by segment type (R312, Table 10-5; log entries 22, 91,
92). -/
namespace Sys2Proof.Machine

/-- The body of a transfer from the pieces that have arrived: none where a byte is missing. -/
def joinBody (got : List (Nat × Bytes)) (total : Nat) : Nat → Nat → Option Bytes
  | 0, o => if total ≤ o then some [] else none
  | n + 1, o =>
    if total ≤ o then some []
    else match got.find? fun g => g.1 == o && g.2 != [] with
      | none => none
      | some g => (joinBody got total n (o + g.2.length)).map fun r => g.2 ++ r

/-- The bytes of a transfer in reception, once they have all arrived. -/
def RxXfer.whole (t : RxXfer) : Option Bytes := (joinBody t.got t.total (t.got.length + 1) 0).map fun b => b.take t.total

/-- A transfer in reception that waits for its placement is not placed again: its type is cleared. -/
def State.holdRx (s : State) (src xid : W32) : State :=
  let f : RxXfer → RxXfer := fun t => if t.src == src && t.xid == xid then { t with typ := 0 } else t
  s.setFab { s.fab with rx := s.fab.rx.map f }

/-- A STAGE_SLOT (R60, R61, Table 10-5): context, queue, slot header and payload. A full queue discards it without an answer
(log entry 91). -/
def State.placeSlot (s : State) (t : RxXfer) (b : Bytes) : State :=
  let c := field t.hdr 0 1
  let q := field t.hdr 1 1
  if 4 ≤ q ∨ !inbound q ∨ s.ctxDead c ∨ s.qKind c q ≠ 2 then s.sendReceipt t.src t.xid { status := .queueDead }
  else if s.qCap c q ≤ (s.queue c q).held then (s.arrive c q ((t.hdr.drop 24).take 64) b).holdRx t.src t.xid
  else (s.arrive c q ((t.hdr.drop 24).take 64) b).sendReceipt t.src t.xid { count := b.length }

/-- The 16-bit codes of a body. -/
def codesOf (b : Bytes) : List (BitVec 16) :=
  (upFrom 0 (b.length / 2)).map fun i => BitVec.ofNat 16 (field b (2 * i) 2)

/-- An SNP_PUB (R251, R254; log entry 22): a publication, or a failure notice. -/
def State.placePub (s : State) (t : RxXfer) (b : Bytes) : State :=
  let c := field t.hdr 0 1
  let ver := BitVec.ofNat 16 (field t.hdr 2 2)
  let step := BitVec.ofNat 32 (field t.hdr 4 4)
  if field t.hdr 1 1 % 2 = 1 then (s.noticeArrive c ver step).sendReceipt t.src t.xid {}
  else
    let a : SnpPub := { sender := t.src, version := ver, step := step, stack := ⟨field t.hdr 8 4 % 8, by omega⟩, ix := field t.hdr 12 4
                        codes := codesOf b }
    (s.holdRx t.src t.xid).pubArrive c a t.xid

/-- A COLL DATA segment (Table 11-8). -/
def collOf (t : RxXfer) (b : Bytes) : CollData :=
  let h := t.hdr
  let f := field h 8 1
  { key := { job := ⟨f % 4, by omega⟩, cid := BitVec.ofNat 16 (field h 0 2), step := BitVec.ofNat 32 (field h 4 4) }
    src := t.src, xid := t.xid, kind := field h 2 1, op := field h 3 1, failed := bit f 2, comp := bit f 3, nonfin := bit f 4
    rank := field h 9 1, ifmt := field h 10 1, block := field h 12 4, alpha := BitVec.ofNat 32 (field h 16 4)
    count := field h 20 4, nr := field h 24 4, offset := 0, body := b }

/-- An AMSG (R355, R358, Table 11-8): an active message, or a contribution to a combining queue. -/
def State.placeMsg (s : State) (t : RxXfer) (b : Bytes) : State :=
  let h := t.hdr
  let m := parseAm (h.take 32) b
  let sub := field h 32 1
  let s := s.holdRx t.src t.xid
  if sub = 0 then s.amArrive m (.remote t.src t.xid)
  else if sub = 1 then
    let f := field h 35 1
    let d : DqMsg :=
      { queue := ⟨field h 33 1 % 64, by omega⟩, contrib := field h 34 1, fmt := f, entry := field h 36 4, job := m.job, src := m.src
        mb := m.mb, step := m.step, ver := m.ver, count := b.length / (match fmtOf f with | some x => fmtSize x | none => 1), body := b }
    s.dqArrive d (.remote t.src t.xid)
  else (s.driftViolation m.job 7 sub t.src).sendReceipt t.src t.xid (malformed 576)

/-- The MIRROR segment of a transfer (Table 16-4). -/
def mirrorOf (t : RxXfer) (b : Bytes) : MirrorSeg :=
  let h := t.hdr
  { src := t.src, xid := t.xid, job := ⟨field h 0 1 % 4, by omega⟩, restore := bit (field h 0 1) 2, part := field h 1 1
    stack := ⟨field h 2 1 % 8, by omega⟩, ctx := ⟨field h 3 1 % 256, by omega⟩, gen := BitVec.ofNat 32 (field h 4 4)
    step := BitVec.ofNat 32 (field h 8 4), first := field h 12 4, body := b }

/-- The outcome of an operation that always goes on. -/
def resState (r : Res) (s : State) : State :=
  match r with
  | .next t => t
  | _ => s

/-- A MGMT segment, whose header has passed its checks (R330, R486), acts as its MTYPE says (Table 16-4). -/
def State.placeMgmt (s : State) (t : RxXfer) : State :=
  let h := t.hdr
  let j : Fin 4 := ⟨field h 1 1 % 4, by omega⟩
  let gen := BitVec.ofNat 32 (field h 4 4)
  let step := BitVec.ofNat 32 (field h 8 4)
  let s := s.sendReceipt t.src t.xid {}
  match field h 0 1 with
  | 1 => resState (execHelloReceive j t.src (BitVec.ofNat 16 (field h 2 2)) s) s
  | 2 => resState (execPartnerAnswerReceive j t.src .accept s) s
  | 3 => resState (execPartnerAnswerReceive j t.src (.refuse (field h 12 1)) s) s
  | 4 => resState (execMirrorCommitReceive j t.src gen step (BitVec.ofNat 64 (field h 16 8)) s) s
  | 5 => resState (execMirrorCommittedReceive j t.src gen s) s
  | 6 => resState (execHeartbeatReceive j t.src s) s
  | _ => s.restoreReq j t.src gen.toNat ((h.drop 24).take 32)

/-- Places a transfer whose bytes have all arrived (R312, Table 10-5). -/
def State.place (s : State) (t : RxXfer) (b : Bytes) : State :=
  match t.typ with
  | 1 => s.placeSlot t b
  | 4 => s.placePub t b
  | 5 => s.collData (collOf t b)
  | 7 => s.placeMsg t b
  | 8 => s.mirrorSegment (mirrorOf t b)
  | 9 => s.sendReceipt t.src t.xid { count := t.total }
  | 10 => s.placeMgmt t
  | _ => s

/-- SEGMENT_PLACE (R312). -/
def execSegmentPlace (src xid : W32) (s : State) : Res :=
  .next (match s.fab.rx.find? fun t => t.src == src && t.xid == xid with
    | none => s
    | some t => match t.whole with
      | none => s
      | some b => s.stamped t.time fun s => s.place t b)

end Sys2Proof.Machine
end

