-- ==== Sys2Proof/Machine/Reserved.lean ====
section
/-! DEFINITION. Words of the reserved classes and with reserved opcodes: each completes MALFORMED at the lowest failing field, by the
unit that the words of its class complete at (R80, R82, R86, R150, R172, R175, R234, R339). -/
namespace Sys2Proof.Machine

/-- Is an OP of a VOP reserved (Table 6-8)? -/
def reservedVop (o : Nat) : Bool := (decide (0x0F ≤ o) && decide (o < 0x20)) || decide (0x27 ≤ o)

/-- Does a source selector break Table 6-7 whatever the OP? -/
def VCtx.badSelector (c : VCtx) (code : Nat) : Bool := code != 0xF && c.badSource 0 .one code

/-- The detail of a VOP with a reserved OP: its lowest failing field (R172, R174, R175; log entry 124). -/
def VCtx.reservedVopDetail (c : VCtx) (w : Nat) : Nat :=
  let d := c.stream (bits w 49 3)
  (lowest [(bits w 34 3 != 0, 34), (c.badSelector (bits w 37 4), 37), (c.badSelector (bits w 41 4), 41),
    (c.badSelector (bits w 45 4), 45), (!d.valid || d.mode != 0, 49), (true, 52)]).getD 52

/-- A MESSAGE word with a reserved OP (R339, Table 11-2): no record is read. -/
def messageReservedDetail (w : Nat) : Nat :=
  (lowest [(bits w 16 32 != 0, 16), (bits w 52 4 != 0, 52), (true, 56)]).getD 56

/-- RESERVED_CLASS_WORD (R80): a word of a reserved class, or with a reserved opcode, completes MALFORMED; another word is none. -/
def execReservedClassWord (g : ClusterId) (t : Thr) (w : BitVec 64) (s : State) : Res :=
  let k := threadKey g t
  let x := w.toNat
  let o := bits x 56 4
  let y := bits x 0 56
  .next (match bits x 60 4 with
    | 0 => s.when (decide (5 ≤ o)) fun s => s.issueMatrix k o y 0
    | 1 => s.when (bits x 58 2 == 2 && reservedVop (bits x 52 6)) fun s =>
      s.issueVector k 2 (bits x 0 58) fun s => (s, malformed ((s.vctx k).reservedVopDetail x))
    | 2 => s
    | 3 => s.when (decide (9 ≤ o)) fun s => s.issue k x fun s => s.reportWord k (malformed ((lowReserved y (2 ^ 56 - 1)).getD 56))
    | 4 => s.when (decide (4 ≤ o)) fun s => s.issue k x fun s => s.reportWord k (malformed (if bits x 48 3 = 0 then 56 else 48))
    | 5 => s.when (decide (6 ≤ o)) fun s => s.issueEngine k o y id
    | 6 => s.when (decide (3 ≤ o)) fun s => s.issue k x fun s => s.msgDone k (malformed (messageReservedDetail y))
    | _ => s.issue k x fun s => s.reportWord k (malformed 60))

end Sys2Proof.Machine
end

