-- ==== Sys2Proof/Machine/Dispatch.lean ====
section
/-! DEFINITION. The dispatch: one arm for every command, each a direct call of its meaning. -/
namespace Sys2Proof.Machine
open Sys2Proof

/-- The effect of a command on the state (every row of the table). -/
def exec (i : Instr) (s : State) : Host.Outcome State Fault Refusal :=
  match i with
  | .ctrlNop g t w => Sys2Proof.Machine.execCtrlNop g t w s
  | .ctrlEnd g t w => Sys2Proof.Machine.execCtrlEnd g t w s
  | .ctrlSeta g t w => Sys2Proof.Machine.execCtrlSeta g t w s
  | .ctrlAdda g t w => Sys2Proof.Machine.execCtrlAdda g t w s
  | .ctrlLoop g t w => Sys2Proof.Machine.execCtrlLoop g t w s
  | .ctrlGroup g t w => Sys2Proof.Machine.execCtrlGroup g t w s
  | .ctrlWait g t w => Sys2Proof.Machine.execCtrlWait g t w s
  | .commit g t w => Sys2Proof.Machine.execCommit g t w s
  | .commitExchangeEnd p t => Sys2Proof.Machine.execCommitExchangeEnd p t s
  | .layerdone g t w => Sys2Proof.Machine.execLayerdone g t w s
  | .programFetch g t => Sys2Proof.Machine.execProgramFetch g t s
  | .rowFetch p => Sys2Proof.Machine.execRowFetch p s
  | .partitionBarrier p => Sys2Proof.Machine.execPartitionBarrier p s
  | .earlyForward p => Sys2Proof.Machine.execEarlyForward p s
  | .layerUpdateRun g => Sys2Proof.Machine.execLayerUpdateRun g s
  | .fillSwitch p => Sys2Proof.Machine.execFillSwitch p s
  | .fillProgramEnd p => Sys2Proof.Machine.execFillProgramEnd p s
  | .fillOverrun p us => Sys2Proof.Machine.execFillOverrun p us s
  | .iterationOverrun p us => Sys2Proof.Machine.execIterationOverrun p us s
  | .tabStart p => Sys2Proof.Machine.execTabStart p s
  | .tabResume p => Sys2Proof.Machine.execTabResume p s
  | .tabStop p => Sys2Proof.Machine.execTabStop p s
  | .take g t w => Sys2Proof.Machine.execTake g t w s
  | .takeComplete c q => Sys2Proof.Machine.execTakeComplete c q s
  | .release g t w => Sys2Proof.Machine.execRelease g t w s
  | .fillBackComplete c q => Sys2Proof.Machine.execFillBackComplete c q s
  | .claim g t w => Sys2Proof.Machine.execClaim g t w s
  | .claimComplete c q => Sys2Proof.Machine.execClaimComplete c q s
  | .send g t w => Sys2Proof.Machine.execSend g t w s
  | .sendAdmit c q => Sys2Proof.Machine.execSendAdmit c q s
  | .sendComplete c q => Sys2Proof.Machine.execSendComplete c q s
  | .bindRequest c q => Sys2Proof.Machine.execBindRequest c q s
  | .bindAnswerReceive c q capacity pages => Sys2Proof.Machine.execBindAnswerReceive c q capacity pages s
  | .slotArrival c q a => Sys2Proof.Machine.execSlotArrival c q a s
  | .creditRecordRefresh c q => Sys2Proof.Machine.execCreditRecordRefresh c q s
  | .creditRecordReceive c q released => Sys2Proof.Machine.execCreditRecordReceive c q released s
  | .stageQueueStall c q us => Sys2Proof.Machine.execStageQueueStall c q us s
  | .ctxEnable c => Sys2Proof.Machine.execCtxEnable c s
  | .ctxDisable c => Sys2Proof.Machine.execCtxDisable c s
  | .ctxFinish c => Sys2Proof.Machine.execCtxFinish c s
  | .ctxDrained c => Sys2Proof.Machine.execCtxDrained c s
  | .copyWord g t w => Sys2Proof.Machine.execCopyWord g t w s
  | .copyDescriptorStart e ch => Sys2Proof.Machine.execCopyDescriptorStart e ch s
  | .copyReadIssue e ch => Sys2Proof.Machine.execCopyReadIssue e ch s
  | .copyReadReturn e ch k => Sys2Proof.Machine.execCopyReadReturn e ch k s
  | .copyReadTimeout e ch k => Sys2Proof.Machine.execCopyReadTimeout e ch k s
  | .itemRetire id => Sys2Proof.Machine.execItemRetire id s
  | .firnScrub g n found => Sys2Proof.Machine.execFirnScrub g n found s
  | .scrubOverrun g => Sys2Proof.Machine.execScrubOverrun g s
  | .hbmRequestAccept ks r => Sys2Proof.Machine.execHbmRequestAccept ks r s
  | .hbmRequestServe st n found => Sys2Proof.Machine.execHbmRequestServe st n found s
  | .pageIdleClose ks ch bank => Sys2Proof.Machine.execPageIdleClose ks ch bank s
  | .hbmRefresh ks ch bank => Sys2Proof.Machine.execHbmRefresh ks ch bank s
  | .hbmScrub ks n found => Sys2Proof.Machine.execHbmScrub ks n found s
  | .retConfirm o e => Sys2Proof.Machine.execRetConfirm o e s
  | .retirementTableSave => Sys2Proof.Machine.execRetirementTableSave s
  | .mcfg g t w => Sys2Proof.Machine.execMcfg g t w s
  | .mload g t w => Sys2Proof.Machine.execMload g t w s
  | .mstream g t w => Sys2Proof.Machine.execMstream g t w s
  | .mclr g t w => Sys2Proof.Machine.execMclr g t w s
  | .memit g t w => Sys2Proof.Machine.execMemit g t w s
  | .bowWait g k us => Sys2Proof.Machine.execBowWait g k us s
  | .vcfg g t w => Sys2Proof.Machine.execVcfg g t w s
  | .vstr g t w => Sys2Proof.Machine.execVstr g t w s
  | .vtbl g t w => Sys2Proof.Machine.execVtbl g t w s
  | .vmov g t w => Sys2Proof.Machine.execVmov g t w s
  | .vadd g t w => Sys2Proof.Machine.execVadd g t w s
  | .vsub g t w => Sys2Proof.Machine.execVsub g t w s
  | .vmul g t w => Sys2Proof.Machine.execVmul g t w s
  | .vfma g t w => Sys2Proof.Machine.execVfma g t w s
  | .vmax g t w => Sys2Proof.Machine.execVmax g t w s
  | .vmin g t w => Sys2Proof.Machine.execVmin g t w s
  | .vabs g t w => Sys2Proof.Machine.execVabs g t w s
  | .vneg g t w => Sys2Proof.Machine.execVneg g t w s
  | .vrcp g t w => Sys2Proof.Machine.execVrcp g t w s
  | .vrsq g t w => Sys2Proof.Machine.execVrsq g t w s
  | .vcrv g t w => Sys2Proof.Machine.execVcrv g t w s
  | .vdrop g t w => Sys2Proof.Machine.execVdrop g t w s
  | .vnrm g t w => Sys2Proof.Machine.execVnrm g t w s
  | .vsel g t w => Sys2Proof.Machine.execVsel g t w s
  | .rsum g t w => Sys2Proof.Machine.execRsum g t w s
  | .rmax g t w => Sys2Proof.Machine.execRmax g t w s
  | .rdot g t w => Sys2Proof.Machine.execRdot g t w s
  | .nstat g t w => Sys2Proof.Machine.execNstat g t w s
  | .rstat g t w => Sys2Proof.Machine.execRstat g t w s
  | .smxs g t w => Sys2Proof.Machine.execSmxs g t w s
  | .smxn g t w => Sys2Proof.Machine.execSmxn g t w s
  | .gacc g t w => Sys2Proof.Machine.execGacc g t w s
  | .opt g t w => Sys2Proof.Machine.execOpt g t w s
  | .vbegin g t w => Sys2Proof.Machine.execVbegin g t w s
  | .vbeginOpen c => Sys2Proof.Machine.execVbeginOpen c s
  | .snowpackSlotWait c n => Sys2Proof.Machine.execSnowpackSlotWait c n s
  | .vend g t w => Sys2Proof.Machine.execVend g t w s
  | .buildBecomesHead c => Sys2Proof.Machine.execBuildBecomesHead c s
  | .vendTimeout c => Sys2Proof.Machine.execVendTimeout c s
  | .vread g t w => Sys2Proof.Machine.execVread g t w s
  | .vpub g t w => Sys2Proof.Machine.execVpub g t w s
  | .snpArrival c a xid => Sys2Proof.Machine.execSnpArrival c a xid s
  | .failureNoticeReceive c ver step => Sys2Proof.Machine.execFailureNoticeReceive c ver step s
  | .compactionComplete c k => Sys2Proof.Machine.execCompactionComplete c k s
  | .snpReset c => Sys2Proof.Machine.execSnpReset c s
  | .snpAdopt c slot ver => Sys2Proof.Machine.execSnpAdopt c slot ver s
  | .nuUnstick g => Sys2Proof.Machine.execNuUnstick g s
  | .nuClrpend g => Sys2Proof.Machine.execNuClrpend g s
  | .coll g t w => Sys2Proof.Machine.execColl g t w s
  | .collStart ki => Sys2Proof.Machine.execCollStart ki s
  | .collGrantReceive k src m => Sys2Proof.Machine.execCollGrantReceive k src m s
  | .collDataReceive d => Sys2Proof.Machine.execCollDataReceive d s
  | .collTimeout ki => Sys2Proof.Machine.execCollTimeout ki s
  | .collComplete ki => Sys2Proof.Machine.execCollComplete ki s
  | .digestReceive k src d => Sys2Proof.Machine.execDigestReceive k src d s
  | .amsend g t w => Sys2Proof.Machine.execAmsend g t w s
  | .amPlace a => Sys2Proof.Machine.execAmPlace a s
  | .handlerStart g => Sys2Proof.Machine.execHandlerStart g s
  | .amsgStall g n => Sys2Proof.Machine.execAmsgStall g n s
  | .dqadd g t w => Sys2Proof.Machine.execDqadd g t w s
  | .dqaddArrival a => Sys2Proof.Machine.execDqaddArrival a s
  | .flowUnitSend l => Sys2Proof.Machine.execFlowUnitSend l s
  | .flowUnitReceive l u => Sys2Proof.Machine.execFlowUnitReceive l u s
  | .replayTimeout l => Sys2Proof.Machine.execReplayTimeout l s
  | .segmentPlace src xid => Sys2Proof.Machine.execSegmentPlace src xid s
  | .receiptReceive l t xid m => Sys2Proof.Machine.execReceiptReceive l t xid m s
  | .cancelReceive l x => Sys2Proof.Machine.execCancelReceive l x s
  | .bypassFallback l => Sys2Proof.Machine.execBypassFallback l s
  | .linkTrained l lanes speed session => Sys2Proof.Machine.execLinkTrained l lanes speed session s
  | .statusReceive l m => Sys2Proof.Machine.execStatusReceive l m s
  | .statusPeriodic l => Sys2Proof.Machine.execStatusPeriodic l s
  | .lnkRetrain l => Sys2Proof.Machine.execLnkRetrain l s
  | .drainEnd l timedOut => Sys2Proof.Machine.execDrainEnd l timedOut s
  | .laneLockLost l => Sys2Proof.Machine.execLaneLockLost l s
  | .retrainTimeout l => Sys2Proof.Machine.execRetrainTimeout l s
  | .graceExpired l => Sys2Proof.Machine.execGraceExpired l s
  | .downReceive l => Sys2Proof.Machine.execDownReceive l s
  | .timeReqSend => Sys2Proof.Machine.execTimeReqSend s
  | .timeReqReceive l t1 => Sys2Proof.Machine.execTimeReqReceive l t1 s
  | .timeRspReceive l t1 t2 t3 t4 depth sync => Sys2Proof.Machine.execTimeRspReceive l t1 t2 t3 t4 depth sync s
  | .ethFrameReceive l f => Sys2Proof.Machine.execEthFrameReceive l f s
  | .ethAckIdle l => Sys2Proof.Machine.execEthAckIdle l s
  | .ptpEventMessage l sent msg => Sys2Proof.Machine.execPtpEventMessage l sent msg s
  | .twiacPacketReceive n hdr data => Sys2Proof.Machine.execTwiacPacketReceive n hdr data s
  | .flitRetry n k => Sys2Proof.Machine.execFlitRetry n k s
  | .capabilityBlockReceive n b => Sys2Proof.Machine.execCapabilityBlockReceive n b s
  | .capabilityRerequest n => Sys2Proof.Machine.execCapabilityRerequest n s
  | .twiacClockLoss n => Sys2Proof.Machine.execTwiacClockLoss n s
  | .thermalReport n degC => Sys2Proof.Machine.execThermalReport n degC s
  | .throttleStepDown n => Sys2Proof.Machine.execThrottleStepDown n s
  | .doorbellReceive p word value => Sys2Proof.Machine.execDoorbellReceive p word value s
  | .doorbellPoll p => Sys2Proof.Machine.execDoorbellPoll p s
  | .readDataReceive p tag hostError data => Sys2Proof.Machine.execReadDataReceive p tag hostError data s
  | .sqNop p k => Sys2Proof.Machine.execSqNop p k s
  | .sqCopy p k => Sys2Proof.Machine.execSqCopy p k s
  | .sqFeed p k => Sys2Proof.Machine.execSqFeed p k s
  | .feedAdmit c q => Sys2Proof.Machine.execFeedAdmit c q s
  | .sqPost p k => Sys2Proof.Machine.execSqPost p k s
  | .sqTab p k => Sys2Proof.Machine.execSqTab p k s
  | .sqAmsg p k => Sys2Proof.Machine.execSqAmsg p k s
  | .mqRecordWrite p => Sys2Proof.Machine.execMqRecordWrite p s
  | .interruptHoldoffEnd p v => Sys2Proof.Machine.execInterruptHoldoffEnd p v s
  | .mgmtReq p tag offset write => Sys2Proof.Machine.execMgmtReq p tag offset write s
  | .adapterStatusReceive p session => Sys2Proof.Machine.execAdapterStatusReceive p session s
  | .portLightDetect p => Sys2Proof.Machine.execPortLightDetect p s
  | .portGraceExpired p => Sys2Proof.Machine.execPortGraceExpired p s
  | .plhPortEnable p en => Sys2Proof.Machine.execPlhPortEnable p en s
  | .plhSqEnable p k en => Sys2Proof.Machine.execPlhSqEnable p k en s
  | .plhMqEnable p en => Sys2Proof.Machine.execPlhMqEnable p en s
  | .pollCfgSend p => Sys2Proof.Machine.execPollCfgSend p s
  | .registerWrite o view offset d => Sys2Proof.Machine.execRegisterWrite o view offset d s
  | .registerReadClear o offset => Sys2Proof.Machine.execRegisterReadClear o offset s
  | .timNowRead o low => Sys2Proof.Machine.execTimNowRead o low s
  | .timSet t => Sys2Proof.Machine.execTimSet t s
  | .cfiUnlock o view key => Sys2Proof.Machine.execCfiUnlock o view key s
  | .cfiCommit domains learn => Sys2Proof.Machine.execCfiCommit domains learn s
  | .configSweep d => Sys2Proof.Machine.execConfigSweep d s
  | .epochAdvance o => Sys2Proof.Machine.execEpochAdvance o s
  | .epochDiscard => Sys2Proof.Machine.execEpochDiscard s
  | .epochUnitReport u => Sys2Proof.Machine.execEpochUnitReport u s
  | .epochCommit => Sys2Proof.Machine.execEpochCommit s
  | .epochTimeout => Sys2Proof.Machine.execEpochTimeout s
  | .eventLogDeliver => Sys2Proof.Machine.execEventLogDeliver s
  | .suppressionWindowEnd => Sys2Proof.Machine.execSuppressionWindowEnd s
  | .clusterIdlePs1 g => Sys2Proof.Machine.execClusterIdlePs1 g s
  | .clusterIdlePs2 g => Sys2Proof.Machine.execClusterIdlePs2 g s
  | .unassignedClusterSleep g => Sys2Proof.Machine.execUnassignedClusterSleep g s
  | .cirPmHold g req => Sys2Proof.Machine.execCirPmHold g req s
  | .clusterWake g => Sys2Proof.Machine.execClusterWake g s
  | .ps3Request d => Sys2Proof.Machine.execPs3Request d s
  | .dieWake d byPacket => Sys2Proof.Machine.execDieWake d byPacket s
  | .standbyRequest o => Sys2Proof.Machine.execStandbyRequest o s
  | .standbyWake w b => Sys2Proof.Machine.execStandbyWake w b s
  | .railSettled d mv => Sys2Proof.Machine.execRailSettled d mv s
  | .railSettleTimeout d => Sys2Proof.Machine.execRailSettleTimeout d s
  | .pllLocked p => Sys2Proof.Machine.execPllLocked p s
  | .clockLoss e b => Sys2Proof.Machine.execClockLoss e b s
  | .thermalForce d junction degC => Sys2Proof.Machine.execThermalForce d junction degC s
  | .forcedClear d => Sys2Proof.Machine.execForcedClear d s
  | .thermalTrip sensor degC dwelt => Sys2Proof.Machine.execThermalTrip sensor degC dwelt s
  | .powerOnReset b => Sys2Proof.Machine.execPowerOnReset b s
  | .packageWarmReset b => Sys2Proof.Machine.execPackageWarmReset b s
  | .singleDieReset x => Sys2Proof.Machine.execSingleDieReset x s
  | .clusterReset g => Sys2Proof.Machine.execClusterReset g s
  | .linkReset l => Sys2Proof.Machine.execLinkReset l s
  | .hostPortReset p => Sys2Proof.Machine.execHostPortReset p s
  | .railPgTimeout rail => Sys2Proof.Machine.execRailPgTimeout rail s
  | .vcoreFault d => Sys2Proof.Machine.execVcoreFault d s
  | .vfirnPgLoss => Sys2Proof.Machine.execVfirnPgLoss s
  | .vserdesPgLoss => Sys2Proof.Machine.execVserdesPgLoss s
  | .vhubPgLoss b => Sys2Proof.Machine.execVhubPgLoss b s
  | .hbmRailFault rail => Sys2Proof.Machine.execHbmRailFault rail s
  | .i2cRegRead offset => Sys2Proof.Machine.execI2cRegRead offset s
  | .i2cRegWrite offset value => Sys2Proof.Machine.execI2cRegWrite offset value s
  | .i2cWake b => Sys2Proof.Machine.execI2cWake b s
  | .i2cWarmReset key b => Sys2Proof.Machine.execI2cWarmReset key b s
  | .i2cStatus => Sys2Proof.Machine.execI2cStatus s
  | .i2cFlashRead offset len => Sys2Proof.Machine.execI2cFlashRead offset len s
  | .i2cFlashWrite offset data => Sys2Proof.Machine.execI2cFlashWrite offset data s
  | .i2cFlashErase offset => Sys2Proof.Machine.execI2cFlashErase offset s
  | .recoveryPoll => Sys2Proof.Machine.execRecoveryPoll s
  | .recoveryConfigure job => Sys2Proof.Machine.execRecoveryConfigure job s
  | .recoveryHalt job => Sys2Proof.Machine.execRecoveryHalt job s
  | .recoveryAttest job => Sys2Proof.Machine.execRecoveryAttest job s
  | .recoveryRestore job => Sys2Proof.Machine.execRecoveryRestore job s
  | .mirrorStart job => Sys2Proof.Machine.execMirrorStart job s
  | .mirrorCommitReceive job src gen step digest => Sys2Proof.Machine.execMirrorCommitReceive job src gen step digest s
  | .mirrorCommittedReceive job src gen => Sys2Proof.Machine.execMirrorCommittedReceive job src gen s
  | .mirrorCommitTimeout job => Sys2Proof.Machine.execMirrorCommitTimeout job s
  | .helloReceive job src feed => Sys2Proof.Machine.execHelloReceive job src feed s
  | .partnerAnswerReceive job src a => Sys2Proof.Machine.execPartnerAnswerReceive job src a s
  | .partnerAnswerTimeout job => Sys2Proof.Machine.execPartnerAnswerTimeout job s
  | .heartbeatSend job => Sys2Proof.Machine.execHeartbeatSend job s
  | .partnerLost job => Sys2Proof.Machine.execPartnerLost job s
  | .restoreReqReceive job src gen entry => Sys2Proof.Machine.execRestoreReqReceive job src gen entry s
  | .mirrorSegmentReceive m => Sys2Proof.Machine.execMirrorSegmentReceive m s
  | .bindRequestReceive c q => Sys2Proof.Machine.execBindRequestReceive c q s
  | .heartbeatReceive job src => Sys2Proof.Machine.execHeartbeatReceive job src s
  | .lctlRetrainReceive l width speed => Sys2Proof.Machine.execLctlRetrainReceive l width speed s
  | .pliandLaneLockLost p => Sys2Proof.Machine.execPliandLaneLockLost p s
  | .vcoreRestored d => Sys2Proof.Machine.execVcoreRestored d s
  | .ps3EntryComplete d => Sys2Proof.Machine.execPs3EntryComplete d s
  | .reservedClassWord g t w => Sys2Proof.Machine.execReservedClassWord g t w s

end Sys2Proof.Machine
end

