-- ==== Sys2Proof/Machine/Tick.lean ====
section
/-! DEFINITION. What passes while no command waits: one nanosecond of global time, and at each microsecond the counters of
microseconds (R22, R51, R99, R248, R366, R411, R449; log entry 3). -/
namespace Sys2Proof.Machine

/-- Counts one in register r where c holds. -/
def State.countIf (s : State) (c : Bool) (r : Nat) : State := s.when c fun s => s.bump r

/-- Waits operation o of queue q of context c under R51 (a resident slot, a stash entry), R53 (a free slot) or R58 (credit)? -/
def State.opWaits (s : State) (c q : Nat) (o : QOp) : Bool :=
  let y := s.queue c q
  s.ctxRuns c && match o.kind with
    | 0 => match y.slots.find? (fun x => !x.taken && !x.auto) with
      | none => true
      | some x =>
        let h := parseSlotHdr (s.slotHdr c q x.ix)
        let v := h.tag.ver.toNat
        let served := s.qKind c q == 3 || (s.snpFind c v).isSome || (s.buildOpen c && s.buildNum c == v)
        !x.resident || (q == 0 && !bit h.flags 0 && served && (s.freeEntry c).isNone)
    | 2 => !y.outFree y.nextClaim
    | 3 => (s.qKind c q == 1 || s.qKind c q == 2) && !y.dead && !s.hasCredit c q
    | _ => false

/-- Queues on which an operation waits (R51, R53, R58): STGQ_STALL. -/
def State.usQueues (s : State) : State :=
  s.each s.queues fun s e =>
    let (c, q) := (e.1 / 4, e.1 % 4)
    s.countIf (e.2.ops.any (s.opWaits c q)) (Reg.stgqStall c q)

/-- Is partition p in a bubble: every enabled stream waits on a queue or has ended, and one of them waits (R99)? -/
def State.bubble (s : State) (p : Nat) : Bool :=
  match (s.part p).row with
  | none => false
  | some r =>
    (s.part p).phase == .running && s.allWait p r &&
      (s.partClusters p).any fun g => [4 * g, 4 * g + 1, 4 * g + 2].any fun k => (s.thread k).prog != .idle

/-- Partitions in a bubble: STG_TAB_BUBBLE. -/
def State.usBubbles (s : State) : State := s.each (upFrom 0 64) fun s p => s.countIf (s.bubble p) (Reg.stgTabBubble p)

/-- VBEGINs that wait for a full slot (R248): SNP_CTX_WAIT. -/
def State.usBegins (s : State) : State :=
  s.each s.snps fun s e => s.countIf (e.2.begins != [] && !s.buildOpen e.1 && (s.buildRoom e.1).isNone) (Reg.snpCtxWait e.1)

/-- Completions that wait for a slot of their ring (R411): PLH_CQ_WAIT. -/
def State.usHost (s : State) : State :=
  s.each (upFrom 0 4) fun s p => s.countIf ((s.port p).rings.any fun r => r.2.cqWait != []) (Reg.plhCqWait p)

/-- Does an open block of a collective lack its next contribution in rank order (R366)? -/
def State.collLacks (s : State) (e : Nat × Coll) : Bool :=
  let op := (parseColl e.2.rcd).op
  e.2.state == 2 && (op == 0 || op == 2) && decide (e.2.written < blocksOf (e.2.size (s.collRank e.2))) &&
    (s.missingBlock e.2).isSome

/-- Has virtual channel v a unit to send, and no credit on any link (R366)? -/
def State.vcBlocked (s : State) (v : Nat) : Bool :=
  let on := (upFrom 0 32).filter fun l => s.linkState l == 3
  let mine := on.flatMap fun l => ((s.layer l).txq.filter fun g => g.vc == v && decide (g.pos < g.units.length)).map fun g => (l, g.ctr)
  mine != [] && mine.all fun x => !(s.layer x.1).credit x.2

/-- The waits of Table 11-10. -/
def State.usDrift (s : State) : State :=
  let s := s.countIf (s.drift.colls.any s.collLacks) Reg.drfCollWait
  let s := s.countIf (s.drift.rings.any fun r => r.2.waits != []) Reg.drfAmWait
  let s := s.countIf (s.drift.queues.any fun q => q.2.waits != []) Reg.drfDqHoldwait
  (s.countIf (s.vcBlocked 2) Reg.drfVc2Block).countIf (s.vcBlocked 4) Reg.drfVc4Block

/-- Clusters in PS1 and PS2: CIR_PM_TIME1 and CIR_PM_TIME2. -/
def State.usPower (s : State) : State :=
  s.each (upFrom 0 512) fun s g => (s.countIf (s.pmState g == 1) (Reg.cirPmTime1 g)).countIf (s.pmState g == 2) (Reg.cirPmTime2 g)

/-- A microsecond has passed. -/
def State.micro (s : State) : State := s.usQueues.usBubbles.usBegins.usHost.usDrift.usPower

/-- Wakes of dies end 10 µs after they began (R455; log entry 148). -/
def State.endWakes (s : State) : State :=
  s.each (s.power.waking.filter fun e => decide (e.2 + 10000 ≤ s.now.toNat + 1)) fun s e =>
    (s.setFld (Reg.pwrDie e.1) Fld.pwrDieWaking 0).setPower { s.power with waking := s.power.waking.put 0 e.1 0 }

/-- Writes of voltage targets that were not acknowledged are repeated every 10 µs (R504; log entry 146). -/
def State.repeatTargets (s : State) : State :=
  s.each (s.power.avs.filter fun e => decide (e.2 + 10000 ≤ s.now.toNat + 1)) fun s e => s.writeTarget e.1

/-- Global time goes on: by 1 ns, or by 100 ns on the Bridge's own clock in PS4 (R475; log entry 149). -/
def State.passTime (s : State) : State := if s.power.standby then s.setNow (s.now + 100) else s.tickTime

/-- What a step does where no command waits: a nanosecond passes, entries into PS1 and PS2 end, wakes of dies and writes of voltage targets go
on. A package whose hub has lost its H-links is reset first (R382). -/
def State.idle (s : State) : State :=
  let s := s.when s.hub.warmDue State.warmDown
  let t := ((s.passTime.each s.power.entries fun s e => s.settlePm e.1 e.2.1 e.2.2).endWakes).repeatTargets
  t.when (decide (s.now.toNat / 1000 < t.now.toNat / 1000)) State.micro

end Sys2Proof.Machine
end

