-- ==== Sys2Proof/Safety.lean ====
section
/-! DEFINITION. What a good state and a good step are, in the terms that statements use. -/
namespace Sys2Proof.Machine

/-- The canonical form that every step keeps: the memory and the flash list rising addresses and no byte that is zero, so that
equal contents are equal data. -/
abbrev State.Inv (s : State) : Prop := s.mem.wf = true ∧ s.flash.wf = true

/-- Thread k may issue word w: it is its turn and w stands at its pc (R79, R80), no dispatch jump stands before it (R275), and it is
no body word of a fill program (R274). -/
abbrev State.mayIssue (s : State) (k w : Nat) : Prop := s.dispatch k = none ∧ s.fillBody k = false ∧ s.canIssue k w = true

/-- Everything but the threads and the record of items is as before. -/
abbrev State.sameButThreads (s t : State) : Prop := t = { s with threads := t.threads, items := t.items }

/-- A word of thread k completes with c as it issues: the thread becomes x, the completion is reported for it, and nothing else
changes. -/
abbrev State.wordEnds (s t : State) (k : Nat) (x : Thread) (c : Completion) : Prop :=
  s.sameButThreads t ∧ t.thread k = x ∧ (∀ j, j ≠ k → t.thread j = s.thread j) ∧
    ∃ r : Retired, t.items = { s.items with next := s.items.next + 1, log := s.items.log ++ [r] } ∧ r.comp = c ∧
      r.item.owner = s.ownerOf k ∧ r.item.tag = (s.thread k).tag

/-- The 64-byte record that word w of thread k names lies in the slice of its cluster, in bytes of its job (R17), can be read, and holds b
(R233, R339). -/
abbrev State.recordAt (s : State) (k w : Nat) (b : Bytes) : Prop :=
  let o := bits w 0 16 * 64 + s.agAdd k (bits w 48 4)
  s.recordFault k o 64 = none ∧ s.badByte (firnAddr (k / 4) o) 64 = none ∧ s.bytes (firnAddr (k / 4) o) 64 = b

/-- The engine of stack st takes commands: its M-link is not isolated and carries MSG traffic (Tables 12-4, 12-5). -/
abbrev State.engineUp (s : State) (st : Nat) : Prop :=
  s.stackCut st = false ∧
    (s.fld (Reg.twiLstatus st) Fld.twiLstatusState = 3 → bit (s.fld (Reg.twiLneg st) Fld.twiLnegFeatures) 4 = true)

/-- The register at an offset is there: its die is not isolated, and neither in PS3 nor entering it (R384, R455). -/
abbrev State.regHere (s : State) (off : Nat) : Prop := s.regGone off = false ∧ s.wakeByAccess off = s

/-- The item numbered id has got result r. -/
abbrev State.itemEnds (s t : State) (id : Nat) (r : Completion) : Prop :=
  ∀ i ∈ s.items.live, i.id = id → i.comp = none → ∃ v, { i with comp := some r, since := v } ∈ t.items.live

/-- An item with result r, of unit n, owner and tag of thread k, has been accepted under the next number. -/
abbrev State.itemBegun (s t : State) (k n : Nat) (r : Option Completion) : Prop :=
  ∃ i ∈ t.items.live, i.id = s.nextId ∧ i.unit = n ∧ i.owner = s.ownerOf k ∧ i.tag = (s.thread k).tag ∧ i.comp = r

/-- Exactly one event has been raised, with this code. -/
def State.logsOne (s t : State) (code : Nat) : Prop := ∃ e, t.log.raised = s.log.raised ++ [e] ∧ e.code = code

/-- The VOP words of a thread with their codes (Table 6-8). -/
def vopWords (g : ClusterId) (t : Thr) (w : BitVec 52) : List (Nat × Instr) :=
  [(0x00, .vmov g t w), (0x01, .vadd g t w), (0x02, .vsub g t w), (0x03, .vmul g t w), (0x04, .vfma g t w), (0x05, .vmax g t w),
   (0x06, .vmin g t w), (0x07, .vabs g t w), (0x08, .vneg g t w), (0x09, .vrcp g t w), (0x0A, .vrsq g t w), (0x0B, .vcrv g t w),
   (0x0C, .vdrop g t w), (0x0D, .vnrm g t w), (0x0E, .vsel g t w), (0x20, .rsum g t w), (0x21, .rmax g t w), (0x22, .rdot g t w),
   (0x23, .nstat g t w), (0x24, .rstat g t w), (0x25, .smxs g t w), (0x26, .smxn g t w)]

/-- The operands a, b and c of a VOP word of thread k (Tables 6-5, 6-8). -/
def State.vopSources (s : State) (k op w : Nat) : List (Option VSrc) :=
  let src := fun (u : Use) (lo : Nat) => if u = .no then none else (s.vctx k).source (BitVec.ofNat 32 w) u (bits w lo 4)
  [src (opUse op).1 45, src (opUse op).2.1 41, src (opUse op).2.2 37]

/-- A VOP word of thread k passes every check of R170 to R175 and finds its operands readable (R182). -/
abbrev State.vopRuns (s : State) (k op w : Nat) : Prop :=
  let x := s.vctx k
  let d := x.stream (bits w 49 3)
  let used := streamsOf (s.vopSources k op w)
  let n := outCount op x.vl
  s.vopFault k op w = none ∧ x.vl ≠ 0 ∧ d.aligned = true ∧ (∀ q ∈ used, q.2.aligned = true) ∧
    (op = 0x0C → x.epos + x.vl ≤ 2 ^ 32) ∧ (∀ q ∈ used, rangesAgree x.vl n d q.2 = true) ∧
    (∀ r ∈ d.range n :: used.map (fun q => q.2.range (q.2.count x.vl)), s.rangeFault (s.threadJob k) r.1 r.2 = none) ∧
    ∀ q ∈ used, s.srcBad x.vl q.2 = none

/-- The entry of ring k of port p at index ix with bytes b has started as the next item, with result r. -/
abbrev State.entryBegun (s t : State) (p k ix : Nat) (b : Bytes) (r : Option Completion) : Prop :=
  ∃ i ∈ t.items.live, i.id = s.nextId ∧ i.owner = .entry p k ix (field b 2 2) (bit (field b 1 1) 1) ∧ i.comp = r

/-- The commands that start a submission entry, with the OP of each (Table 13-6). -/
def entryCommands (p k : HostPortId) : List (Nat × Instr) :=
  [(0, .sqNop p k), (1, .sqCopy p k), (2, .sqFeed p k), (3, .sqPost p k), (4, .sqTab p k), (5, .sqAmsg p k)]

/-- The words of the sequencer that change threads alone (R81, R82, R84). -/
def controlWords (g : ClusterId) (t : Thr) (w : BitVec 56) : List Instr :=
  [.ctrlNop g t w, .ctrlSeta g t w, .ctrlAdda g t w, .ctrlGroup g t w, .ctrlWait g t w, .ctrlLoop g t w]

/-- The CONTROL words but LOOP, each with its opcode and its reserved bits (Table 3-4). -/
def maskedWords (g : ClusterId) (t : Thr) (w : BitVec 56) : List (Nat × Nat × Instr) :=
  [(0, 2 ^ 56 - 1, .ctrlNop g t w), (1, 2 ^ 56 - 1, .ctrlEnd g t w), (2, setaReserved, .ctrlSeta g t w),
   (3, setaReserved, .ctrlAdda g t w), (5, (2 ^ 53 - 1) * 8, .ctrlGroup g t w), (6, (2 ^ 48 - 1) * 256, .ctrlWait g t w),
   (8, (2 ^ 40 - 1) * 2 ^ 16, .layerdone g t w)]

/-- Commands of a fabric link that store nothing. -/
def linkCommands (l : LinkId) (n : Nat) (b : Bytes) : List Instr :=
  [.statusPeriodic l, .lnkRetrain l, .laneLockLost l, .retrainTimeout l, .timeReqReceive l n, .ptpEventMessage l true b,
   .ptpEventMessage l false b, .ethAckIdle l]

end Sys2Proof.Machine
end

