-- ==== Sys2Proof/Certificates/Slice0/Obligations.lean ====
section
/-! DEFINITION. The statements: what a step, a reset and every command of the table do, by the numbered rules of the spec. A
statement about a command gives, under conditions on the state and the operands alone, the next state that the command answers. -/
open Sys2Proof Sys2Proof.Machine


/-! ## Words of the sequencer (Tables 3-4, R78 to R84) -/

/-- Rule R82: where it is the thread's turn, NOP, SETA, ADDA and GROUP without a reserved bit set complete DONE and send the thread on
to the next word; SETA writes its immediate to address register d, ADDA adds it modulo 2^32, GROUP writes the completion group, and
nothing else changes. A CONTROL word but COMMIT and LOOP with a reserved bit set completes MALFORMED with the offset of the lowest such
bit, and the thread goes on with no other effect. Rules R80, R82 and R86: a word of a reserved class completes MALFORMED with detail 60;
one of CONTROL with a reserved opcode with the lowest bit set below it, or 56 where none is; one of QUEUE with a reserved opcode with
detail 48 where [50:48] is not zero, else 56: the thread goes on, and nothing else changes. Rules R172, R175, R234 and R339: a VOP with
a reserved OP, a MORAINE word with a reserved OP that names a stack outside a fill program, and a MESSAGE word with a reserved OP become
items with status MALFORMED and the lowest failing field. Rule R150: a MATRIX word with a reserved opcode goes to the cores of the
cluster. Any other word changes nothing. -/
def Obligations.ControlWordsAct : Prop :=
  (∀ (z : State) (g : ClusterId) (t : Thr) (w : BitVec 56),
    let k := threadKey g t
    let s := z.atStart k
    let x := s.thread k
    let d := bits w.toNat 48 3
    let imm := BitVec.ofNat 32 w.toNat
    let n := stepPc x.loops x.pc
    let y : Thread := { x with pc := n.1, loops := n.2 }
    (w = 0 → z.mayIssue k (progWord 3 0 w.toNat) → ∃ u : State, exec (.ctrlNop g t w) z = .next u ∧ s.wordEnds u k y {}) ∧
    (lowReserved w.toNat setaReserved = none →
      (z.mayIssue k (progWord 3 2 w.toNat) →
        ∃ u : State, exec (.ctrlSeta g t w) z = .next u ∧ s.wordEnds u k { y with ag := x.ag.put 0 d imm } {}) ∧
      (z.mayIssue k (progWord 3 3 w.toNat) →
        ∃ u : State, exec (.ctrlAdda g t w) z = .next u ∧ s.wordEnds u k { y with ag := x.ag.put 0 d (x.ag.get 0 d + imm) } {})) ∧
    (lowReserved w.toNat ((2 ^ 53 - 1) * 8) = none → z.mayIssue k (progWord 3 5 w.toNat) →
      ∃ u : State, exec (.ctrlGroup g t w) z = .next u ∧ s.wordEnds u k { y with grp := bits w.toNat 0 3 } {}) ∧
    ∀ c ∈ maskedWords g t w, ∀ e, lowReserved w.toNat c.2.1 = some e → z.mayIssue k (progWord 3 c.1 w.toNat) →
      ∃ u : State, exec c.2.2 z = .next u ∧ s.wordEnds u k y (malformed e)) ∧
  (∀ (z : State) (g : ClusterId) (t : Thr) (w : BitVec 64),
    let k := threadKey g t
    let s := z.atStart k
    let x := s.thread k
    let n := stepPc x.loops x.pc
    let y : Thread := { x with pc := n.1, loops := n.2 }
    let c := bits w.toNat 60 4
    let o := bits w.toNat 56 4
    (7 ≤ c ∨ c = 3 ∧ 9 ≤ o ∨ c = 4 ∧ 4 ≤ o → z.mayIssue k w.toNat →
      ∃ u : State, exec (.reservedClassWord g t w) z = .next u ∧
        s.wordEnds u k y (malformed (if 7 ≤ c then 60 else if c = 3 then (lowReserved (bits w.toNat 0 56) (2 ^ 56 - 1)).getD 56
          else if bits w.toNat 48 3 = 0 then 56 else 48))) ∧
    (c = 1 → bits w.toNat 58 2 = 2 → reservedVop (bits w.toNat 52 6) = true → z.mayIssue k w.toNat →
      ∃ u : State, exec (.reservedClassWord g t w) z = .next u ∧ (u.thread k).pc = n.1 ∧ u.mem = s.mem ∧
        s.itemBegun u k 0x0101 (some (malformed ((s.vctx k).reservedVopDetail w.toNat)))) ∧
    (c = 6 → 3 ≤ o → z.mayIssue k w.toNat →
      ∃ u : State, exec (.reservedClassWord g t w) z = .next u ∧ (u.thread k).pc = n.1 ∧ u.mem = s.mem ∧
        s.itemBegun u k 0x0103 (some (malformed (if bits w.toNat 16 32 ≠ 0 then 16 else if bits w.toNat 52 4 ≠ 0 then 52 else 56)))) ∧
    (c = 5 → 6 ≤ o → (s.thread k).prog ≠ .fill → bits w.toNat 52 4 < 8 → z.mayIssue k w.toNat →
      ∃ u : State, exec (.reservedClassWord g t w) z = .next u ∧ (u.thread k).pc = n.1 ∧ u.mem = s.mem ∧
        s.itemBegun u k 0x0201 (some (malformed (if bits w.toNat 16 32 ≠ 0 then 16 else 56)))) ∧
    (c = 0 → 5 ≤ o → z.mayIssue k w.toNat →
      exec (.reservedClassWord g t w) z = .next ((s.matrixWord k o (bits w.toNat 0 56) 0).advance k)) ∧
    (c = 2 ∨ c = 1 ∧ (bits w.toNat 58 2 ≠ 2 ∨ reservedVop (bits w.toNat 52 6) = false) ∨ c = 0 ∧ o < 5 ∨ c = 3 ∧ o < 9 ∨ c = 4 ∧ o < 4 ∨ c = 5 ∧ o < 6 ∨ c = 6 ∧ o < 3 → exec (.reservedClassWord g t w) z = .next z))

/-- Rules R81, R83 and R84: where it is the thread's turn and no reserved bit is set, WAIT holds the thread while an item of a group that
it names is in execution and lets it go on otherwise; LOOP with a body of at least one word, a count (its own, or that of the address register it
names) that is not zero and fewer than four loops open opens its body; END waits while an item of the thread is in execution, and ends
the program at once otherwise. -/
def Obligations.WaitLoopEndAct : Prop :=
  ∀ (z : State) (g : ClusterId) (t : Thr) (w : BitVec 56),
    let k := threadKey g t
    let s := z.atStart k
    let x := s.thread k
    let n := stepPc x.loops x.pc
    let y : Thread := { x with pc := n.1, loops := n.2 }
    let groups := bits w.toNat 0 8
    let body := bits w.toNat 16 16
    let count := if bit w.toNat 52 then (x.ag.get 0 (bits w.toNat 48 3)).toNat else bits w.toNat 0 16
    (lowReserved w.toNat ((2 ^ 48 - 1) * 256) = none → z.mayIssue k (progWord 3 6 w.toNat) →
      ∃ u : State, exec (.ctrlWait g t w) z = .next u ∧
        s.wordEnds u k (if s.items.live.any (inGroups k groups) then { y with wait := .groups groups } else y) {}) ∧
    (lowReserved w.toNat (0x7 * 2 ^ 53 + 2 ^ 51 + 0xFFFF * 2 ^ 32) = none → body ≠ 0 → count ≠ 0 → x.loops.length < 4 →
      z.mayIssue k (progWord 3 4 w.toNat) →
      ∃ u : State, exec (.ctrlLoop g t w) z = .next u ∧
        s.wordEnds u k { x with pc := x.pc + 8, loops := { first := x.pc + 8, last := x.pc + 8 * body, left := count } :: x.loops } {}) ∧
    (w = 0 → s.items.live.any (ownedBy k) = true → z.mayIssue k (progWord 3 1 w.toNat) →
      ∃ u : State, exec (.ctrlEnd g t w) z = .next u ∧ s.wordEnds u k { y with wait := .ending } {}) ∧
    (w = 0 → s.items.live.any (ownedBy k) = false → z.mayIssue k (progWord 3 1 w.toNat) →
      ∃ u : State, exec (.ctrlEnd g t w) z = .next u ∧ (u.thread k).prog = .idle ∧ (u.thread k).ended = true ∧
        (x.prog = .handler → (u.drift.rings.get {} g.val).recs = (s.drift.rings.get {} g.val).recs.drop 1))

/-- Rule R84: a LOOP whose body length is zero completes MALFORMED with detail 16 whatever its count, and the thread goes on behind it.
Otherwise, without a reserved bit set, one whose count (the word's own, or that of the address register that it names) is zero skips its
body, and one that would exceed the depth of four completes MALFORMED with detail 56 and skips its body; one with a reserved bit set completes
MALFORMED with the offset of the lowest and skips its body. -/
def Obligations.LoopCornersAct : Prop :=
  ∀ (z : State) (g : ClusterId) (t : Thr) (w : BitVec 56), z.mayIssue (threadKey g t) (progWord 3 4 w.toNat) →
    let k := threadKey g t
    let s := z.atStart k
    let x := s.thread k
    let n := bits w.toNat 16 16
    let count := if bit w.toNat 52 then (s.ag k (bits w.toNat 48 3)).toNat else bits w.toNat 0 16
    let low := lowReserved w.toNat (0x7 * 2 ^ 53 + 2 ^ 51 + 0xFFFF * 2 ^ 32)
    let behind := stepPc x.loops x.pc
    let past := stepPc x.loops (x.pc + 8 * n)
    let y : Thread := { x with pc := past.1, loops := past.2 }
    (n = 0 → ∃ u : State, exec (.ctrlLoop g t w) z = .next u ∧
      s.wordEnds u k { x with pc := behind.1, loops := behind.2 } (malformed 16)) ∧
    (n ≠ 0 → ∀ e, low = some e → ∃ u : State, exec (.ctrlLoop g t w) z = .next u ∧ s.wordEnds u k y (malformed e)) ∧
    (n ≠ 0 → low = none → count = 0 → ∃ u : State, exec (.ctrlLoop g t w) z = .next u ∧ s.wordEnds u k y { status := .empty }) ∧
    (n ≠ 0 → low = none → count ≠ 0 → 4 ≤ x.loops.length →
      ∃ u : State, exec (.ctrlLoop g t w) z = .next u ∧ s.wordEnds u k y (malformed 56))

/-! ## Tablatures, programs and COMMIT (R77, R83, R91 to R104, R273, R276, R279) -/

/-- Rule R97: START, where nothing forbids it, runs the tablature from its entry row with every trip count at its initial value, no forward
credit and both lists empty; otherwise it is ignored with an event. RESUME of a stopped tablature runs it on, with the next iteration
where one is left and the end of the row otherwise; of another it is ignored with an event. STOP of a running tablature is pending
until the iteration ends, and of another changes nothing. -/
def Obligations.TablatureCommandsAct : Prop :=
  ∀ (s : State) (p : PartId),
    (s.startBad p = false → ∃ u : State, exec (.tabStart p) s = .next u ∧ u.tab p = 1 ∧ (u.part p).fetchDue = true ∧ (u.part p).ready = [] ∧
      (u.part p).pendingW = [] ∧ (∀ n < 4, u.fld (Reg.stgTabTc p n) Fld.stgTabTcCount = s.fld (Reg.stgTabTc p n) Fld.stgTabTcInit ∧
        u.fwdCredit p n = 0) ∧
      u.fld (Reg.stgTabStatus p) Fld.stgTabStatusRow = s.fld (Reg.stgTabCtrl p) Fld.stgTabCtrlEntry ∧ u.mem = s.mem) ∧
    (s.startBad p = true → ∃ u : State, exec (.tabStart p) s = .next u ∧ u.regs = s.regs ∧ u.parts = s.parts ∧
      ∃ e, u.log.raised = s.log.raised ++ [e] ∧ e.code = 0x0004) ∧
    (s.tab p = 2 → 0 < s.fld (Reg.stgTabIter p) Fld.stgTabIterLeft → exec (.tabResume p) s = .next ((s.setTab p 1).startIter p)) ∧
    (s.tab p = 2 → s.fld (Reg.stgTabIter p) Fld.stgTabIterLeft = 0 → exec (.tabResume p) s = .next ((s.setTab p 1).endRow p)) ∧
    (s.tab p ≠ 2 → ∃ u : State, exec (.tabResume p) s = .next u ∧ u.regs = s.regs ∧ u.parts = s.parts ∧ u.threads = s.threads ∧
      ∃ e, u.log.raised = s.log.raised ++ [e] ∧ e.code = 0x0004) ∧
    (s.tab p = 1 → ∃ u : State, exec (.tabStop p) s = .next u ∧ (u.part p).pendingStop = true ∧ u.regs = s.regs ∧ u.mem = s.mem) ∧
    (s.tab p ≠ 1 → exec (.tabStop p) s = .next s)

/-- Rule R83: a thread that runs, waits for nothing and has not fetched the line of its pc fetches it where the line can be read. Rule R95: a
tablature that is due a row whose copies lie in the slices and can be read fetches it, runs it where every check passes, and enters FAULT
with the code of the lowest check that fails, with a row-fault event.
Where it meets a choice of the model: log entries 2 and 14. -/
def Obligations.FetchesAct : Prop :=
  (∀ (s : State) (g : ClusterId) (t : Thr), let k := threadKey g t; let x := s.thread k
    let a := firnAddr (k / 4) (x.pc / 64 * 64)
    x.prog ≠ .idle → x.wait = .none → x.pc < sliceSize → x.fetched = false → s.badByte a 64 = none →
      ∃ u : State, exec (.programFetch g t) s = .next u ∧ u.thread k = { x with lines := x.lines ++ [(x.pc / 64, s.bytes a 64)] } ∧
        u.mem = s.mem ∧ u.regs = s.regs ∧ u.items = s.items) ∧
  (∀ (s : State) (p : PartId),
    let i := s.fld (Reg.stgTabStatus p) Fld.stgTabStatusRow
    let off := s.afld (Reg.stgTabBase p) Fld.stgTabBaseRow0 * 32 + i * 32
    let x := leNat (s.bytes (firnAddr (s.leadCluster p) off) 32)
    let e := rowCode x (s.afld (Reg.stgTabLen p) Fld.stgTabLenRows) i (s.afld (Reg.stgPartCtrl p) Fld.stgPartCtrlVstages)
    s.tab p = 1 → (s.part p).fetchDue = true → off + 32 ≤ sliceSize → s.badByte (firnAddr (s.leadCluster p) off) 32 = none →
      (∀ g ∈ s.partClusters p, s.badByte (firnAddr g off) 32 = none) →
      (e = 0 → exec (.rowFetch p) s = .next (s.runRow p off (parseRow x))) ∧
      (e ≠ 0 → ∃ u : State, exec (.rowFetch p) s = .next u ∧ u.tab p = 4 ∧ u.fld (Reg.stgTabStatus p) Fld.stgTabStatusFault = e % 16 ∧
        ∃ v, u.log.raised = s.log.raised ++ [v] ∧ v.code = 0x0104 ∧ v.arg1 = e))

/-- Rules R94 and R97: at the barrier of an iteration with no row fault and no failed step the iteration count falls by one; a pending
STOP stops the tablature there, otherwise the next iteration starts while one is left, and the row ends with the last. Rules R103, R91
and R68: a fill program, an iteration or a queue operation that has run longer than its limit, and whose overrun or stall event has not
been logged, logs it (0x0105, 0x0107 or 0x0103); registers, memory and threads stay. Where it meets a choice of the model: log entry 13.
-/
def Obligations.BarriersAndOverrunsAct : Prop :=
  (∀ (s : State) (p : PartId) (r : Row), (s.part p).row = some r → s.tab p = 1 → (s.part p).phase = .running → s.atBarrier p r = true →
    (s.part p).fault = 0 → (s.part p).failed = [] →
    let left := s.fld (Reg.stgTabIter p) Fld.stgTabIterLeft
    let v := s.setFld (Reg.stgTabIter p) Fld.stgTabIterLeft (left - 1)
    ((s.part p).pendingStop = true → ∃ u : State, exec (.partitionBarrier p) s = .next u ∧ u.tab p = 2 ∧ (u.part p).pendingStop = false ∧
      u.fld (Reg.stgTabIter p) Fld.stgTabIterLeft = left - 1) ∧
    ((s.part p).pendingStop = false → 1 < left → exec (.partitionBarrier p) s = .next (v.startIter p)) ∧
    ((s.part p).pendingStop = false → left = 1 → exec (.partitionBarrier p) s = .next (v.endRow p))) ∧
  ((∀ (s : State) (p : PartId) (us : Nat), (s.part p).phase = .filling → s.fld (Reg.stgTabFill p) Fld.stgTabFillLimit ≠ 0 →
      s.fld (Reg.stgTabFill p) Fld.stgTabFillLimit < us → (s.part p).fillLogged = false →
      ∃ u : State, ∃ e, exec (.fillOverrun p us) s = .next u ∧ u.log.raised = s.log.raised ++ [e] ∧ e.code = 0x0105 ∧ u.regs = s.regs ∧
        u.mem = s.mem ∧ u.threads = s.threads ∧ (u.part p).fillLogged = true) ∧
  (∀ (s : State) (p : PartId) (us : Nat) (r : Row), (s.part p).row = some r → (s.part p).phase = .running → r.limit ≠ 0 → r.limit < us →
      (s.part p).iterLogged = false →
      ∃ u : State, ∃ e, exec (.iterationOverrun p us) s = .next u ∧ u.log.raised = s.log.raised ++ [e] ∧ e.code = 0x0107 ∧ u.regs = s.regs ∧
        u.mem = s.mem ∧ u.threads = s.threads ∧ (u.part p).iterLogged = true) ∧
  (∀ (s : State) (c : CtxId) (q : QueueId) (us : Nat) (o : QOp), (s.queue c q).ops.find? (fun o => !o.logged) = some o →
      s.fld (Reg.stgCtxCtrl c) Fld.stgCtxCtrlWaitLimit ≠ 0 → s.fld (Reg.stgCtxCtrl c) Fld.stgCtxCtrlWaitLimit < us →
      ∃ u : State, ∃ e, exec (.stageQueueStall c q us) s = .next u ∧ u.log.raised = s.log.raised ++ [e] ∧ e.code = 0x0103 ∧ u.regs = s.regs ∧
        u.mem = s.mem ∧ u.threads = s.threads))

/-- Rule R100: where a row of WAIT 0b01 stalls with every F thread ended, a slot waiting and a stash entry free, an early forward raises the
forward credit by one and starts the F programs. Rule R101: the oldest ready layer that a cluster has not started runs the
cluster's update program with the layer's index in ag0, where the step is not marked failed. Rules R102 to R104: a bubble that is due
a fill program clears the partition and starts the program at HEAD of the ring on every F thread; once all have ended, the clear is
repeated, HEAD moves on by one modulo 1,024 and the fill is counted. -/
def Obligations.BubblesAct : Prop :=
  (∀ (s : State) (p : PartId) (r : Row), (s.part p).row = some r →
    let c := 4 * p.val + r.fVst
    let credit := s.fwdCredit p r.fVst
    r.fVst < 4 → s.tab p = 1 → (s.part p).phase = .running → r.wait = 1 → r.fEn = true → s.allWait p r = true →
      (∀ g ∈ s.partClusters p, (s.thread (4 * g)).prog = .idle ∧ (s.thread (4 * g)).ended = true) →
      credit < min 64 (s.fld (Reg.stgTabWaitcfg p) Fld.stgTabWaitcfgFcMax) → s.slotWaiting c 0 = true → (s.freeEntry c).isSome →
      ∃ u : State, exec (.earlyForward p) s = .next u ∧ u.fwdCredit p r.fVst = credit + 1 ∧
        ∀ g ∈ s.partClusters p, (u.thread (4 * g)).prog = .early ∧ (u.thread (4 * g)).pc = (s.progs.get {} g).f) ∧
  (∀ (s : State) (g : ClusterId) (p : Nat) (r : Row) (e : LayerReady), s.partOf g = some p → (s.part p).row = some r →
    (s.part p).ready.find? (fun e => !e.started.contains g.val) = some e → s.tab p = 1 → (s.part p).phase = .running →
      (s.thread (4 * g.val + 2)).prog = .idle → (r.uEn = true ∨ r.wait = 2 ∧ s.allWait p r = true) →
      s.isFailed p (s.reg (Reg.stgTabStep p)) = false →
      ∃ u : State, exec (.layerUpdateRun g) s = .next u ∧ (u.thread (4 * g.val + 2)).prog = .pass ∧
        (u.thread (4 * g.val + 2)).pc = (s.progs.get {} g).u ∧ (u.thread (4 * g.val + 2)).ag.get 0 0 = BitVec.ofNat 32 e.layer ∧
        (u.thread (4 * g.val + 2)).tag.step = s.reg (Reg.stgTabStep p)) ∧
  (∀ (s : State) (p : PartId) (h n : Nat), s.tab p = 1 → (s.part p).phase = .fillDue → s.fillRing p = some (h, n) →
      let c := s.each (s.partClusters p) fun s g => s.clearCluster g
      ∃ u : State, exec (.fillSwitch p) s = .next u ∧ (u.part p).phase = .filling ∧ u.cores = c.cores ∧
        ∀ g ∈ s.partClusters p, (u.thread (4 * g)).prog = .fill ∧
          (u.thread (4 * g)).pc = bits (leNat (c.bytes (c.ringAddr p (64 + h * 8)) 8)) 0 19 * 8) ∧
  (∀ (s : State) (p : PartId) (h n : Nat), (s.part p).phase = .filling → (∀ g ∈ s.partClusters p, (s.thread (4 * g)).prog = .idle) →
      let c := s.each (s.partClusters p) fun s g => s.clearCluster g
      c.fillRing p = some (h, n) →
      exec (.fillProgramEnd p) s =
        .next (((c.store (c.ringAddr p 0) (leBytes 4 ((h + 1) % 1024))).bump (Reg.stgTabFills p)).startIter p))

/-- Rule R101: LAYERDONE counts its cluster for the layer, and the layer becomes ready once every cluster of the partition has counted. Rule
R273: COMMIT of a pass program becomes an item that its thread waits for. Rule R273 and Table 9-3: once every cluster has joined with
one layer and a valid entry, and no non-finite result counted, the exchange ends every COMMIT with the outcome of the partition-wide
sums: each thread goes on, at level k + 1 after a replay and at level 0 otherwise, and its item gets the outcome's completion. Rule R276: UNSTICK returns the widen level of every valid STICKY 0b10 unit to 0 and leaves the others. Rule R279: CLRPEND
clears the pending counters of the 64 sets, and waits while a COMMIT of the cluster is in an exchange. -/
def Obligations.CommitsAct : Prop :=
  (∀ (z : State) (g : ClusterId) (t : Thr) (w : BitVec 56) (p : Nat),
    let k := threadKey g t
    let s := z.atStart k
    let x := s.part p
    let layer := bits w.toNat 0 16
    let l := ((x.doneBy.find? fun e => e.1 == layer).map Prod.snd).getD []
    lowReserved w.toNat ((2 ^ 40 - 1) * 2 ^ 16) = none →
    (s.partOf g = some p → g.val ∉ l → z.mayIssue k (progWord 3 8 w.toNat) →
      (l.length + 1 = (s.partClusters p).length → ∃ u : State, exec (.layerdone g t w) z = .next u ∧
        (u.part p).ready = x.ready ++ [{ layer := layer }] ∧ u.mem = s.mem ∧ u.regs = s.regs) ∧
      (l.length + 1 ≠ (s.partClusters p).length → ∃ u : State, exec (.layerdone g t w) z = .next u ∧ (u.part p).ready = x.ready ∧
        (layer, l ++ [g.val]) ∈ (u.part p).doneBy ∧ u.mem = s.mem ∧ u.regs = s.regs)) ∧
    ((s.thread k).prog = .pass → z.mayIssue k (progWord 3 7 w.toNat) →
      ∃ u : State, exec (.commit g t w) z = .next u ∧ (u.thread k).wait = .commit s.nextId layer ∧ s.itemBegun u k 0x0106 none)) ∧
  (∀ (s : State) (p : PartId) (t : Thr),
    let n := thrNat t
    let l := (s.part p).joined n
    let sat := sumBy (fun j => sumBy SetSnap.sat j.snap) l
    let nonfin := sumBy (fun j => sumBy SetSnap.nonfin j.snap) l
    s.partClusters p ≠ [] → (∀ g ∈ s.partClusters p, l.any (fun j => j.g == g) = true) → (∀ i ∈ l, ∀ j ∈ l, i.layer = j.layer) →
      (∀ j ∈ l, (j.entry.bind parseEntry).isSome) → (∀ i ∈ l, ∀ j ∈ l, i.item = j.item → i = j) →
      (∀ j ∈ l, j.layer < 1024 ∧ ∀ x ∈ j.snap, x.set < 64) →
      (∀ g ∈ s.partClusters p, ∀ e, (s.thread (4 * g + n)).stash = some e → e.1 < 256) → nonfin = 0 →
      ∃ u : State, exec (.commitExchangeEnd p t) s = .next u ∧ (u.part p).joined n = [] ∧
        ∀ g ∈ s.partClusters p, ∀ j e, l.find? (fun j => j.g == g) = some j → j.entry.bind parseEntry = some e →
          let k := (s.thread (4 * g + n)).level
          let o := outcomeOf e (s.fld (Reg.cirNuCtrl g) Fld.cirNuCtrlReplay == 1) k sat nonfin
          (u.thread (4 * g + n)).wait = .none ∧ (u.thread (4 * g + n)).level = (if o = .replay then k + 1 else 0) ∧
            s.itemEnds u j.item (outcomeComp o k)) ∧
  (∀ (s : State) (g : ClusterId), ∃ u : State, exec (.nuUnstick g) s = .next u ∧ u.mem = s.mem ∧ ∀ l < 1024,
    u.widenLevel g l = (match (s.readEntry g l).2 with
      | some e => if e.sticky = 2 then 0 else s.widenLevel g l
      | none => s.widenLevel g l)) ∧
  (∀ (s : State) (g : ClusterId), s.inExchange g = false →
    ∃ u : State, exec (.nuClrpend g) s = .next u ∧ u.mem = s.mem ∧ ∀ n < 64, u.reg (Reg.cirRimeConv g n) = 0 ∧ u.reg (Reg.cirRimeZero g n) = 0 ∧
      u.reg (Reg.cirRimeSat g n) = 0 ∧ u.reg (Reg.cirRimeNonfin g n) = 0) ∧
  (∀ (s : State) (g : ClusterId), s.inExchange g = true → ∃ u : State, exec (.nuClrpend g) s = .next u ∧ g.val ∈ u.clrpend ∧ u.regs = s.regs)



/-! ## Stage queues (R44 to R68, R86 to R90) and contexts (R40 to R43, R516) -/

/-- Rules R51 to R54, R86 and R89: where it is the thread's turn, a QUEUE word that R87 pairs, with [50:48] zero, becomes an operation
of its queue that the thread waits for: any of the four on a context in BINDING; on a context that is not dead and a queue of a KIND,
TAKE, CLAIM, and a SEND of a claimed slot with a length that the slot holds. There RELEASE of a taken slot, on a queue with no spill
that is not REMOTE, frees it and counts RELEASED, and a SEND of length 0 with a slot claimed ends EMPTY; both complete at once. Rule
R87: in a pass program (or its early forward), F may TAKE from and RELEASE AIN (queue 0) and CLAIM and SEND AOUT (1), and B the same of
GIN (2) and GOUT (3) but in a weight-gradient pass; any other pairing, with [50:48] zero, reports MALFORMED with detail 54, and the
thread goes on with no other effect. -/
def Obligations.QueueWordsAct : Prop :=
  (∀ (z : State) (g : ClusterId) (t : Thr) (w : BitVec 56) (c : Nat),
    let k := threadKey g t
    let s := z.atStart k
    let q := bits w.toNat 54 2
    let id := s.items.next
    let x := s.queue c q
    let may := fun kind => s.pairOk k kind q = true ∧ z.mayIssue k (progWord 4 kind w.toNat)
    let waits := fun (kind : Nat) (u : State) => (u.thread k).wait = .item id ∧ u.regs = s.regs ∧ u.mem = s.mem ∧
      s.itemBegun u k 0x0031 none ∧
      ∃ o, (u.queue c q).ops = x.ops ++ [o] ∧ o.kind = kind ∧ o.item = id ∧ o.key = k ∧ o.d = bits w.toNat 51 3 ∧
        o.len = bits w.toNat 0 32 ∧ o.fmt = bits w.toNat 32 8 ∧ o.flags = bits w.toNat 40 8
    let live := s.ctxDead c = false ∧ s.ctxState c ≠ 1 ∧ s.qKind c q ≠ 0
    let len := bits w.toNat 0 32
    s.ctxOf k = some c → bits w.toNat 48 3 = 0 →
    (may 0 → s.ctxState c = 1 ∨ live → ∃ u : State, exec (.take g t w) z = .next u ∧ waits 0 u) ∧
    (may 2 → s.ctxState c = 1 ∨ live → ∃ u : State, exec (.claim g t w) z = .next u ∧ waits 2 u) ∧
    (may 3 → s.ctxState c = 1 ∨
        (live ∧ x.claimed ≠ [] ∧ bits w.toNat 44 4 = 0 ∧ 0 < len ∧ len ≤ s.qBytes c q ∧ x.dead = false) →
      ∃ u : State, exec (.send g t w) z = .next u ∧ waits 3 u) ∧
    (may 3 → live → x.claimed ≠ [] → bits w.toNat 44 4 = 0 → len = 0 →
      ∃ u : State, exec (.send g t w) z = .next u ∧ (u.thread k).wait = .none ∧ (u.queue c q).sent = x.sent ∧
        ∃ i ∈ u.items.live, i.id = id ∧ i.comp = some { status := .empty }) ∧
    (may 1 → s.ctxState c = 1 → ∃ u : State, exec (.release g t w) z = .next u ∧ waits 1 u) ∧
    (may 1 → live → s.qKind c q ≠ 2 → ∀ y r, x.slots = y :: r → y.taken = true → y.auto = false →
      (∀ z ∈ r, z.auto = false) → x.spill = [] →
      ∃ u : State, exec (.release g t w) z = .next u ∧ (u.thread k).wait = .none ∧ (u.queue c q).released = x.released + 1 ∧
        (u.queue c q).slots = r ∧ u.mem = s.mem ∧ ∃ i ∈ u.items.live, i.id = id ∧ i.comp = some {})) ∧
  (∀ (z : State) (g : ClusterId) (t : Thr) (w : BitVec 56) (kind : Nat) (c : Instr),
    let k := threadKey g t
    let s := z.atStart k
    let x := s.thread k
    let n := stepPc x.loops x.pc
    let weights := ∃ r, s.rowOf k = some r ∧ r.bPart = 2
    let pairs := if t = .F then [(0, 0), (1, 0), (2, 1), (3, 1)] else if t = .B ∧ ¬weights then [(0, 2), (1, 2), (2, 3), (3, 3)] else []
    (kind, c) ∈ [(0, Instr.take g t w), (1, .release g t w), (2, .claim g t w), (3, .send g t w)] →
    z.mayIssue k (progWord 4 kind w.toNat) → bits w.toNat 48 3 = 0 →
    ¬((x.prog = .pass ∨ x.prog = .early) ∧ (kind, bits w.toNat 54 2) ∈ pairs) →
    ∃ u : State, exec c z = .next u ∧ s.wordEnds u k { x with pc := n.1, loops := n.2 } (malformed 54))

/-- Rules R51 and R70: a TAKE that meets a resident slot with a readable, good header on GIN takes the slot whose tag matches a stash entry (in a
row with EVAL, or with FLAGS.EVAL 0), with that tag, the entry and the payload's offset in its address register, and by rule R23 its own
item gets that tag too. Rules R51, R69 and R255: one on a
LOCAL or REMOTE AIN, in a row without EVAL and with FLAGS.EVAL 0, takes the slot whose version is held, with a stash entry that is free and
one more pin on the version. Rule R57: on a queue that is not REMOTE a bad header field rejects the slot with MALFORMED, the field's offset and
one event.
Where it meets a choice of the model: log entry 12. -/
def Obligations.TakeCompletes : Prop :=
  ∀ (s : State) (c : CtxId) (q : QueueId) (o : QOp) (x : InSlot),
    let h := parseSlotHdr (s.slotHdr c q x.ix)
    let eval := match (s.part (c.val / 4)).row with | some r => r.eval | none => false
    let taken := fun u : State => ∀ i ∈ s.items.live, i.id = o.item → i.comp = none →
      ∃ v, { i with tag := h.tag, comp := some {}, since := v } ∈ u.items.live
    (s.queue c q).op 0 = some o → (s.queue c q).slots.find? (fun y => !y.taken && !y.auto) = some x → s.ctxRuns c = true →
      x.resident = true → x.badHdr = none → s.badByte (s.hdrAddr c q x.ix) 64 = none →
    (badField q h = none → q = 2 → bit h.flags 0 = false ∨ eval = true → ∀ e, (upFrom 0 64).find? (fun e => let y := s.stashAt c e
        y.used && y.tag.mb == h.tag.mb && y.tag.step == h.tag.step) = some e → (s.stashAt c e).tag.ver = h.tag.ver →
      ∃ u : State, exec (.takeComplete c q) s = .next u ∧ (u.thread o.key).tag = h.tag ∧ (u.thread o.key).stash = some (c.val, e) ∧
        (u.thread o.key).ag.get 0 o.d = BitVec.ofNat 32 (s.payAddr c q x.ix - firnBase) ∧ (u.thread o.key).wait = .none ∧
        taken u ∧ u.mem = s.mem ∧ u.regs = s.regs) ∧
    (badField q h = none → q = 0 → s.qKind c q ≠ 3 → bit h.flags 0 = false → eval = false →
      ∀ k e, s.snpFind c h.tag.ver.toNat = some k → s.freeEntry c = some e →
      ∃ u : State, exec (.takeComplete c q) s = .next u ∧ (u.thread o.key).tag = h.tag ∧ (u.thread o.key).stash = some (c.val, e) ∧
        u.stashAt c e = { used := true, order := o.item, tag := h.tag } ∧ u.pinsOf c k = s.pinsOf c k + 1 ∧
        (u.thread o.key).wait = .none ∧ taken u) ∧
    (∀ d, badField q h = some d → s.qKind c q ≠ 2 →
      ∃ u : State, exec (.takeComplete c q) s = .next u ∧ s.itemEnds u o.item (malformed d) ∧ s.logsOne u 0x0100 ∧ u.mem = s.mem)

/-- Rule R53: a CLAIM on a context that runs takes the slot next in ring order once it is free, writes the thread's tag into the slot's
header and the payload's Firn-window offset into its address register, and completes. -/
def Obligations.ClaimCompletes : Prop :=
  ∀ (s : State) (c : CtxId) (q : QueueId) (o : QOp),
    let x := s.queue c q
    let tag := (s.thread o.key).tag
    let a := s.hdrAddr c q x.nextClaim
    x.op 2 = some o → s.ctxRuns c = true → x.outFree x.nextClaim = true →
    ∃ u : State, exec (.claimComplete c q) s = .next u ∧ (u.queue c q).claimed = x.claimed ++ [(x.nextClaim, tag)] ∧
      (u.queue c q).nextClaim = (x.nextClaim + 1) % s.qSlots c q ∧ (u.thread o.key).wait = .none ∧
      (u.thread o.key).ag.get 0 o.d = BitVec.ofNat 32 (s.payAddr c q x.nextClaim - firnBase) ∧ s.itemEnds u o.item {} ∧
      u.mem = (s.store a (leBytes 4 tag.mb.toNat ++ leBytes 4 tag.step.toNat ++ leBytes 2 tag.ver.toNat)).mem

/-- Rules R54, R56 and R58: a SEND on a LOCAL queue that is not dead, to a context that is not dead, is admitted where there is credit: SENT
counts it, its slot is in flight and its thread goes on; without credit it waits and nothing changes. Rule R408: one on a HOST queue with a
buffer is admitted into the oldest; where none is in flight before it and the window is there, header and readable payload go into the
buffer. A SEND whose payload could be read completes once the consumer has placed the slot, with the status DONE and the length as its
count, and its slot is free again; where no other one of the queue waits for a host buffer, nothing else changes.
Where it meets a choice of the model: log entries 10 and 153. -/
def Obligations.SendsAct : Prop :=
  (∀ (s : State) (c : CtxId) (q : QueueId) (o : QOp) (i : Nat) (tag : Tag) (r : List (Nat × Tag)), (s.queue c q).op 3 = some o →
    s.ctxRuns c = true → s.sendCheck c q o = none → (s.queue c q).claimed = (i, tag) :: r → (s.queue c q).dead = false →
    s.qKind c q = 1 → s.ctxDead (s.peerCtx c q) = false →
    (s.hasCredit c q = true →
      ∃ u : State, exec (.sendAdmit c q) s = .next u ∧ (u.queue c q).sent = (s.queue c q).sent + 1 ∧ (u.queue c q).claimed = r ∧
        (u.thread o.key).wait = .none ∧ u.items = s.items ∧
        ∃ f, (u.queue c q).flights = (s.queue c q).flights ++ [f] ∧ f.slot = i ∧ f.len = o.len ∧ f.item = o.item) ∧
    (s.hasCredit c q = false → exec (.sendAdmit c q) s = .next s)) ∧
  (∀ (s : State) (c : CtxId) (q : QueueId) (o : QOp) (i : Nat) (tag : Tag) (r : List (Nat × Tag)) (b : PostBuf) (l : List PostBuf),
    (s.queue c q).op 3 = some o → s.ctxRuns c = true → s.sendCheck c q o = none → (s.queue c q).claimed = (i, tag) :: r →
    (s.queue c q).dead = false → s.qKind c q = 3 → (s.queue c q).posts = b :: l →
    let h := s.sendHdr c q o tag (s.queue c q).sent.toNat
    let m := s.store (s.hdrAddr c q i) h
    ∃ u : State, exec (.sendAdmit c q) s = .next u ∧ (u.queue c q).sent = (s.queue c q).sent + 1 ∧ (u.queue c q).claimed = r ∧
      (u.queue c q).posts = l ∧ (u.thread o.key).wait = .none ∧
      (∃ f ∈ (u.queue c q).flights, f.slot = i ∧ f.item = o.item ∧ f.len = o.len ∧ f.buf = some b) ∧
      ((s.queue c q).flights = [] → s.mem.ue = [] → s.mem.ce = [] → s.hostHeld b.addr = false → s.hostGone b.addr = false →
        m.badByte (s.payAddr c q i) o.len = none →
        u.mem = ((m.store b.addr h).store (b.addr + 64) (m.bytes (s.payAddr c q i) o.len)).mem)) ∧
  (∀ (s : State) (c : CtxId) (q : QueueId) (f : Flight) (r : Completion), r.status = .done → f.bad = none →
    (s.queue c q).flights.find? (fun f => f.result.isSome) = some f → f.result = some r →
    (∀ x ∈ (s.queue c q).flights, ∀ b, x.buf = some b → b.item ≠ f.item) →
    ∃ u : State, exec (.sendComplete c q) s = .next u ∧ s.itemEnds u f.item { r with count := f.len } ∧
      ((∀ x ∈ (s.queue c q).flights, x.slot ≠ f.slot → x.buf = none) → u.mem = s.mem ∧ u.regs = s.regs ∧
        (u.queue c q).flights = (s.queue c q).flights.filter fun x => x.slot != f.slot))

/-- Rule R64: the fill-back of the oldest spilled slot makes it resident and frees its spill slot; where no error is met and both writes
reach plain memory, header and payload are copied into the Firn slot. Rules R60, R61 and R63: a slot from the fabric beyond the capacity
of its REMOTE queue is dropped with one event; one with the expected SEQ and without FLAGS.SKIP goes into the next Firn slot where one
is free and nothing is spilled, else into the next spill slot, and is counted. By rule R64 one that finds every spill position in use,
one of them by a slot in fill-back, follows the other spilled slots. Rules R56, R61 and R515: a LOCAL arrival places the producer's
oldest flight, with what the read of its payload meets, where the queue has room, and drops it otherwise. Rule R405: a FEED whose data
are there and can be read completes with its length, and is counted where there is room. Rules R405, R406 and R416: of the FEEDs of a
running queue with room the wait of the first ends; the FEED whose wait ended first is admitted with the next SEQ, waits while the port
of its data is in GRACE, and ends ADDRESS_FAULT where that port is gone. Where it meets a choice of the model: log entries 23, 44 and
91. -/
def Obligations.ArrivalsAct : Prop :=
  (∀ (s : State) (c : CtxId) (q : QueueId) (y : InSlot) (j : Nat) (r : List Nat),
    (s.queue c q).slots.find? (fun y => !y.resident) = some y → (s.queue c q).spill = j :: r → (s.queue c q).filling = true →
    let sh := s.spillHdr c q j
    let hdr := s.bytes sh 64
    let n := min (s.qBytes c q) (field hdr 20 4)
    ∃ u : State, exec (.fillBackComplete c q) s = .next u ∧ (u.queue c q).spill = r ∧
      (∃ z ∈ (u.queue c q).slots, z.ix = y.ix ∧ z.resident = true) ∧
      (s.mem.ue = [] → s.mem.ce = [] → s.badByte sh 64 = none → s.badByte (s.spillPay c q j) n = none →
        s.plainWrite (s.hdrAddr c q y.ix) 64 = true → s.plainWrite (s.payAddr c q y.ix) n = true →
        u.mem = (s.mem.put (s.hdrAddr c q y.ix) hdr).put (s.payAddr c q y.ix) (s.bytes (s.spillPay c q j) n))) ∧
  ((∀ (s : State) (c : CtxId) (q : QueueId) (hdr pay : Bytes), inbound q = true → s.ctxDead c = false → s.qKind c q = 2 → hdr.length = 64 →
    let x := s.queue c q
    (s.qCap c q ≤ x.held →
      ∃ u : State, exec (.slotArrival c q (.fromFabric hdr pay)) s = .next u ∧ s.logsOne u 0x0101 ∧ u.mem = s.mem) ∧
    (x.held < s.qCap c q → field hdr 32 4 = x.arrived.toNat → bit (field hdr 11 1) 1 = false →
      (x.slots.length < s.qSlots c q → x.spill = [] →
        ∃ u : State, exec (.slotArrival c q (.fromFabric hdr pay)) s = .next u ∧ (u.queue c q).slots = x.slots ++ [{ ix := x.nextIn }] ∧
          (u.queue c q).arrived = x.arrived + 1 ∧ (u.queue c q).spill = [] ∧ (s.mem.ue = [] → u.log = s.log) ∧
          u.mem = ((s.store (s.hdrAddr c q x.nextIn) hdr).store (s.payAddr c q x.nextIn) pay).mem) ∧
      (x.filling = true → s.qSpill c q ≤ x.spill.length → ∀ y j r, x.slots.find? (fun y => !y.resident) = some y → x.spill = j :: r →
        ∃ u : State, exec (.slotArrival c q (.fromFabric hdr pay)) s = .next u ∧ (u.queue c q).arrived = x.arrived + 1 ∧
          (∃ z ∈ (u.queue c q).slots, z.ix = y.ix ∧ z.resident = true) ∧ (r ≠ [] → (u.queue c q).spill = r ++ [x.nextSpill])) ∧
      (¬(x.slots.length < s.qSlots c q ∧ x.spill = []) → (x.filling = true → x.spill.length < s.qSpill c q) →
        ∃ u : State, exec (.slotArrival c q (.fromFabric hdr pay)) s = .next u ∧ (u.queue c q).slots = x.slots ∧
          (u.queue c q).arrived = x.arrived + 1 ∧ (u.queue c q).spill = x.spill ++ [x.nextSpill] ∧ (s.mem.ue = [] → u.log = s.log) ∧
          u.mem = ((s.store (s.spillHdr c q x.nextSpill) hdr).store (s.spillPay c q x.nextSpill) pay).mem))) ∧
  (∀ (s : State) (c pc : CtxId) (q pq : QueueId) (f : Flight), inbound q = true → s.ctxDead c = false → s.qKind c q = 1 →
    s.qKind pc pq = 1 → inbound pq = false → s.peerCtx pc pq = c.val → peerQueue pq = q.val →
    (s.queue pc pq).flights.find? (fun f => f.result == none && !f.dropped) = some f →
    ∃ u : State, exec (.slotArrival c q (.fromLocal pc pq)) s = .next u ∧
      ((s.queue c q).held < s.qCap c q → (u.queue c q).arrived = (s.queue c q).arrived + 1 ∧
        ∀ x ∈ (u.queue pc pq).flights, x.slot = f.slot → x.result = some {} ∧ x.bad = s.payloadFault (s.payAddr pc pq f.slot) f.len) ∧
      (s.qCap c q ≤ (s.queue c q).held → (u.queue c q).arrived = (s.queue c q).arrived ∧
        ∀ x ∈ (u.queue pc pq).flights, x.slot = f.slot → x.dropped = true)) ∧
  (∀ (s : State) (c : CtxId) (q : QueueId) (f : Feed), inbound q = true → s.ctxDead c = false → s.qKind c q = 3 →
    (s.queue c q).feeds.find? Feed.started = some f → s.hostBusy f.addr f.len = false → s.hostHeld f.addr = false →
    s.badByte f.addr f.len = none → bit f.flags 1 = false →
    ∃ u : State, exec (.slotArrival c q .fromFeed) s = .next u ∧ (∀ x ∈ (u.queue c q).feeds, x.item ≠ f.item) ∧
      (∀ i ∈ s.items.live, i.id = f.item → i.comp = none → ∃ j ∈ u.items.live, j.id = f.item ∧ j.comp = some { count := f.len }) ∧
      ((s.queue c q).held < s.qCap c q → (u.queue c q).arrived = (s.queue c q).arrived + 1)) ∧
  (∀ (s : State) (c : CtxId) (q : QueueId),
    let t := s.settleFeeds c q
    let x := t.queue c q
    let first := fun (l : List Feed) => l.find? fun f => f.ready && !f.started;
    (∀ f, first (s.queue c q).feeds = none → s.ctxRuns c = true → nextFeed (s.queue c q).feeds = some f →
      (s.queue c q).held + ((s.queue c q).feeds.filter Feed.started).length < s.qCap c q → first x.feeds = some { f with ready := true }) ∧
    (first x.feeds = none → exec (.feedAdmit c q) s = .next t) ∧
    (∀ f, first x.feeds = some f →
      (s.hostGone f.addr = true → ∃ u : State, exec (.feedAdmit c q) s = .next u ∧ s.itemEnds u f.item (addressFault f.addr) ∧
        (u.queue c q).feeds = x.feeds.filter fun y => y.item != f.item) ∧
      (s.hostHeld f.addr = true → exec (.feedAdmit c q) s = .next t) ∧
      (s.hostGone f.addr = false → s.hostHeld f.addr = false →
        ∃ u : State, ∃ f', exec (.feedAdmit c q) s = .next u ∧ f' ∈ (u.queue c q).feeds ∧ f'.item = f.item ∧ f'.started = true ∧
          f'.seq = x.fed.toNat ∧ f'.time = s.now ∧ (u.queue c q).fed = x.fed + 1 ∧ u.mem = s.mem ∧ u.regs = s.regs))))

/-- Rule R47: in BINDING an unbound REMOTE producer's request goes to its peer, and an unbound LOCAL one whose peer can answer and whose
slots are no larger than the peer's is bound with its peer at once, with the peer's capacity. An answer to a REMOTE one binds it with
the capacity where the slots are no larger, and otherwise sets CFG_ERR to 5 and leaves it unbound (with no operation waiting on a queue
of either context). A REMOTE producer's request to an inbound queue that can answer and is bound is answered with its capacity and slot
pages. Rules R58 and R59: a credit record that a REMOTE producer receives replaces the RELEASED count that it sees; a REMOTE inbound
queue whose count differs from the last value sent sends it in a message of its own. Where it meets a choice of the model: log entries 9
and 96. -/
def Obligations.BindingsAndCreditsAct : Prop :=
  (∀ (s : State) (c : CtxId) (q : QueueId), let pc := s.peerCtx c q; let pq := peerQueue q
    (s.ctxState c = 1 → inbound q = false → s.isBound c q = false →
      (s.qKind c q = 2 → exec (.bindRequest c q) s = .next (s.send (.bindRequest c q))) ∧
      (s.qKind c q = 1 → s.answers pc pq 1 = true → s.fld (Reg.stgqSlot c q) Fld.stgqSlotPages ≤ s.fld (Reg.stgqSlot pc pq) Fld.stgqSlotPages →
        (∀ i < 4, (s.queue c i).ops = [] ∧ (s.queue pc i).ops = []) →
        ∃ u : State, exec (.bindRequest c q) s = .next u ∧ u.isBound c q = true ∧ u.isBound pc pq = true ∧ (u.queue c q).peerCap = s.qCap pc pq) ∧
      (∀ cap pages, s.qKind c q = 2 → s.fld (Reg.stgqSlot c q) Fld.stgqSlotPages ≤ pages → (∀ i < 4, (s.queue c i).ops = []) →
        ∃ u : State, exec (.bindAnswerReceive c q cap pages) s = .next u ∧ u.isBound c q = true ∧ (u.queue c q).peerCap = cap) ∧
      (∀ cap pages, s.qKind c q = 2 → pages < s.fld (Reg.stgqSlot c q) Fld.stgqSlotPages →
        ∃ u : State, exec (.bindAnswerReceive c q cap pages) s = .next u ∧ u.fld (Reg.stgCtxStatus c) Fld.stgCtxStatusCfgErr = 5 ∧
          u.isBound c q = false ∧ (u.queue c q).peerCap = (s.queue c q).peerCap ∧ u.mem = s.mem)) ∧
    (s.answers c q 2 = true → s.isBound c q = true →
      exec (.bindRequestReceive c q) s =
        .next (s.send (.bindAnswer c q (s.qCap c q) (s.fld (Reg.stgqSlot c q) Fld.stgqSlotPages))))) ∧
  (∀ (s : State) (c : CtxId) (q : QueueId), s.qKind c q = 2 →
    (∀ r, inbound q = false → ∃ u : State, exec (.creditRecordReceive c q r) s = .next u ∧ (u.queue c q).seen = r ∧ u.releasedSeen c q = r ∧
      u.regs = s.regs ∧ u.mem = s.mem) ∧
    (inbound q = true → (s.queue c q).released.setWidth 16 ≠ (s.queue c q).reported →
      ∃ u : State, exec (.creditRecordRefresh c q) s = .next u ∧ (u.queue c q).reported = (s.queue c q).released.setWidth 16 ∧
        u.fab.nextXid = s.fab.nextXid + 1 ∧ u.regs = s.regs ∧ u.mem = s.mem))

/-- Rules R40, R41 and R516: ENABLE in IDLE, where no check fails, no queue is bound and no operation waits, enters BINDING where a queue is
LOCAL or REMOTE and RUNNING otherwise; where a check fails it leaves IDLE and shows the lowest code. FINISH leaves RUNNING for FINISHING; a
drained context in FINISHING is FINISHED; clearing ENABLE in FINISHED or RESET makes it IDLE with its queues empty. -/
def Obligations.ContextsAct : Prop :=
  ∀ (s : State) (c : CtxId),
    (s.ctxState c = 0 → s.ctxCfgErr c = [] → s.fld (Reg.stgCtxStatus c) Fld.stgCtxStatusBound = 0 → (∀ i < 4, (s.queue c i).ops = []) →
      ∃ u : State, exec (.ctxEnable c) s = .next u ∧ u.fld (Reg.stgCtxCtrl c) Fld.stgCtxCtrlEnable = 1 ∧
        u.ctxState c = (if [0, 1, 2, 3].any (fun q => s.qKind c q == 1 || s.qKind c q == 2) then 1 else 2)) ∧
    (s.ctxState c = 0 → s.ctxCfgErr c ≠ [] →
      exec (.ctxEnable c) s = .next (s.setFld (Reg.stgCtxStatus c) Fld.stgCtxStatusCfgErr ((s.ctxCfgErr c).foldl min 15))) ∧
    (s.ctxState c = 2 → ∃ u : State, exec (.ctxFinish c) s = .next u ∧ u.ctxState c = 3 ∧ u.fld (Reg.stgCtxCtrl c) Fld.stgCtxCtrlFinish = 1 ∧
      u.queues = s.queues ∧ u.mem = s.mem) ∧
    (s.ctxState c = 3 → s.drained c = true → ∃ u : State, exec (.ctxDrained c) s = .next u ∧ u.ctxState c = 4 ∧ u.mem = s.mem) ∧
    (s.ctxState c = 4 ∨ s.ctxState c = 5 → ∃ u : State, exec (.ctxDisable c) s = .next u ∧ u.ctxState c = 0 ∧ (∀ i < 4, u.queue c i = {}) ∧
      u.fld (Reg.stgCtxCtrl c) Fld.stgCtxCtrlEnable = 0 ∧ u.fld (Reg.stgCtxCtrl c) Fld.stgCtxCtrlFinish = 0 ∧ u.mem = s.mem)

/-! ## Copies (R203 to R216) and items (R18) -/

/-- Rules R85 and R208: where it is the thread's turn, a COPY word with no reserved bit set and a COUNT above 0 feeds its descriptors,
in address order, to the channels that they name until one of these is full; a single readable descriptor for a channel with room
becomes its last, as an item of the thread. Rules R203, R206 and R207: the next descriptor of a channel with a field that fails check 1,
the only one of the channel, completes MALFORMED with the field's offset (64 further on in a hub engine, behind the submission entry's
head); a COPY or FILL without AFTER, with LEN and ROWS above 0, whose fields and ranges pass the checks, is cut into its requests in
byte order and its channel goes on. -/
def Obligations.CopiesStart : Prop :=
  (∀ (z : State) (g : ClusterId) (t : Thr) (w : BitVec 60),
    let k := threadKey g t
    let s := z.atStart k
    let off := bits w.toNat 0 17 * 32
    let n := bits w.toNat 32 8
    let b := s.bytes (firnAddr g off) 32
    let ch := (parseDesc b).ch
    z.mayIssue k (2 * 2 ^ 60 + w.toNat) → bits w.toNat 17 15 = 0 → bits w.toNat 40 20 = 0 → n ≠ 0 →
    exec (.copyWord g t w) z = .next ((State.feedCopy k off n s).advance k) ∧
    (n = 1 → s.recordFault k off 32 = none → s.badByte (firnAddr g off) 32 = none → (s.chan g ch).queue.length < 16 →
      ∃ u : State, exec (.copyWord g t w) z = .next u ∧ (u.thread k).wait = .none ∧ u.mem = s.mem ∧ u.regs = s.regs ∧
        (u.chan g ch).queue = (s.chan g ch).queue ++ [{ item := s.items.next, desc := b, job := s.threadJob k }] ∧
        s.itemBegun u k 0x0102 none)) ∧
  (∀ (s : State) (e : CopyEngineId) (ch : Fin 8) (d : CopyDesc),
    let x := parseDesc d.desc
    let q := (s.chan e ch).queue
    q.find? (fun d => !d.started) = some d →
    (∀ o, descFault d.desc = some o → q = [d] →
      ∃ u : State, exec (.copyDescriptorStart e ch) s = .next u ∧ (u.chan e ch).queue = [] ∧ u.mem = s.mem ∧
        s.itemEnds u d.item (malformed (if e.val < 512 then o else o + 64))) ∧
    (descFault d.desc = none → x.len ≠ 0 → x.rows ≠ 0 → x.after = false → x.list = none → s.rowsFault d.job x = none →
      s.spansMeet x = false →
      exec (.copyDescriptorStart e ch) s = .next (State.pump e ch (s.setChan e ch { s.chan e ch with
        queue := putFirst { d with started := true, reqs := s.cutDesc x } q }))))

/-- Rules R210 to R212: where a request slot is free in the channel and in that of the oldest read united with it, and the bank is below its cap,
the channel issues the read that the sorter chooses, as the next read of that channel, and remembers its page. Rule R214: an issued read
that returns, and one that times out where a timeout is set, whose data no host port holds back, leaves none of its requests waiting. -/
def Obligations.CopyReadsAct : Prop :=
  ∀ (s : State) (e : CopyEngineId) (ch : Fin 8),
    (∀ r aged, s.slotsUsed e ch < ceSlots e → s.chooseRead e ch = some (r, aged) → s.hostHeld r.src = false → s.hostGone r.src = false →
      let own := s.readOwner e ch r
      s.slotsUsed e own < ceSlots e → s.bankUse e own r.src < s.bankCap e →
      ∃ u : State, exec (.copyReadIssue e ch) s = .next u ∧ (u.chan e own).reads = (s.chan e own).reads + 1 ∧
        (u.chan e ch).lastPage = s.pageOf r.src ∧ u.mem = s.mem) ∧
    (∀ k x, s.issuedRead e ch k = some x →
      (((s.engineReqs e).filter fun r => r.rd == some x && r.st == .issued).any fun r => s.hostWaits r.src || s.hostBusy r.src r.len) =
        false →
      ∃ u : State, exec (.copyReadReturn e ch k) s = .next u ∧ ∀ r ∈ u.engineReqs e, r.rd = some x → r.st ≠ .issued) ∧
    (∀ k x, s.issuedRead e ch k = some x → 512 ≤ e.val ∨ s.fld (Reg.cirCeCfg e) Fld.cirCeCfgTmo ≠ 0 →
      (((s.engineReqs e).filter fun r => r.rd == some x && r.st == .issued).any fun r => s.hostWaits r.src) = false →
      ∃ u : State, exec (.copyReadTimeout e ch k) s = .next u ∧ ∀ r ∈ u.engineReqs e, r.rd = some x → r.st ≠ .issued)

/-- Rules R18 and R20: an item that is complete, and before which none of its stream is left where its unit reports in order, is reported with
its result at the global time, or at that of its reception or of its unit's latest completion where that is later. Rule R79: a thread that
waits for it, where it is no copy and no other command waits in its engine, goes on, and the item is no longer live.
Where it meets a choice of the model: log entry 8. -/
def Obligations.ItemsRetire : Prop :=
  ∀ (s : State) (id : Nat) (it : Item) (c : Completion), s.item id = some it → it.comp = some c → s.mayRetire it = true →
    (∃ u : State, exec (.itemRetire id) s = .next u ∧ ⟨it, c, s.stampOf it⟩ ∈ u.items.log) ∧
    (∀ k grp, it.owner = .thread k grp → it.unit ≠ 0x0102 → (it.unit = 0x0201 → (s.stack it.index).cmds = []) → (s.thread k).wait = .item id →
      ∃ u : State, exec (.itemRetire id) s = .next u ∧ (u.thread k).wait = .none ∧ u.items.live = s.items.live.filter (fun i => i.id != id) ∧
        u.mem = (s.digestLog id (s.stampOf it)).mem)

/-! ## Memory: scrubbing, controllers and retirement (R200 to R229) -/

/-- Rules R200 and R202: with a PERIOD above 0, the Firn scrubber leaves a granule without errors alone, counts a corrected one and
writes it back, and marks, records and logs a word with an uncorrectable error where the granule holds no other; it reports an overrun
of its period. Rule R220: a request to a stack that is not isolated, with none waiting before it, enters the controller's window while
that holds less than 256 and waits at its port otherwise. Rule R221: the controller serves the request that is next for its AGE: a write
stores its bytes, a read is answered and leaves memory alone (no error anywhere, no CONFIRM and no request waiting). Rule R222: a read
within one page leaves that page open; an idle page closes, and a refreshed bank has none open. Rules R224 and R226: with no request
ready, a scrub of a burst outside retired pages counts a corrected error for its page, marks an uncorrectable one, and leaves a clean
burst alone. Rule R228: CONFIRM, written by an opener that may and whose lock is open, to an entry of a stack that is there, retires a
RETIRING entry at once where the controller holds no request and after those that it holds otherwise; for another entry it is ignored
with an event; with the lock closed no entry changes. Rule R229: a save with a table that has changed writes all tables over the older
of two copies in flash, as the newest one, and leaves the rest of the flash. Where it meets a choice of the model: log entry 143. Where
it meets a choice of the model: log entries 19 and 20. -/
def Obligations.MemoryErrorsAct : Prop :=
  (∀ (s : State) (g : ClusterId) (n : BitVec 17) (w : Fin 4), let a := firnAddr g (n.toNat * 32)
    s.fld (Reg.cirFpScrub g) Fld.cirFpScrubPeriod ≠ 0 →
    ((∀ o ∈ [0, 8, 16, 24], a + o ∉ s.mem.ue) → (∀ m ∈ s.mem.ce, overlaps a 32 m 8 = false) →
      exec (.firnScrub g n ⟨w, .corrected⟩) s = .next (s.bump (Reg.cirFpCe g)) ∧ exec (.firnScrub g n ⟨w, .clean⟩) s = .next s) ∧
    ((∀ o ∈ [0, 8, 16, 24], a + o ∉ s.mem.ue) → s.mem.ce = [a + 8 * w.val] → s.retiredPages = [] →
      exec (.firnScrub g n ⟨w, .clean⟩) s = .next ((s.bump (Reg.cirFpCe g)).setMem { s.mem with ce := [] })) ∧
    ((∀ o ∈ [0, 8, 16, 24], o ≠ 8 * w.val → a + o ∉ s.mem.ue) → (∀ m ∈ s.mem.ce, overlaps a 32 m 8 = true → a ≤ m) →
      ∃ u : State, exec (.firnScrub g n ⟨w, .uncorrectable⟩) s = .next u ∧ s.logsOne u 0x0301 ∧ u.mem.cells = s.mem.cells ∧
        a + 8 * w.val ∈ u.mem.ue ∧ (s.cutByte (a + 8 * w.val) = false → u.fld (Reg.cirFpErraddr g) Fld.cirFpErraddrValid = 1)) ∧
    (∃ u : State, ∃ e, exec (.scrubOverrun g) s = .next u ∧ u.log.raised = s.log.raised ++ [e] ∧ e.code = 0x0300 ∧
      e.arg0 = s.fld (Reg.cirFpScrub g) Fld.cirFpScrubPeriod ∧ u.regs = s.regs ∧ u.mem = s.mem)) ∧
  ((∀ (s : State) (st : StackId) (r : HbmReq), s.stackCut st = false → (s.stack st).waiting = [] → 0 < r.len → r.addr + r.len ≤ 2 ^ 37 →
    ((s.stack st).window.length < 256 → ∃ u : State, ∃ q : WinReq, exec (.hbmRequestAccept st r) s = .next u ∧ u.mem = s.mem ∧ u.regs = s.regs ∧
      (u.stack st).window = (s.stack st).window ++ [q] ∧ q.addr = r.addr ∧ q.len = r.len ∧ q.write = r.write.map (·.take r.len) ∧
      q.fromEngine = r.fromEngine ∧ q.time = s.now) ∧
    (256 ≤ (s.stack st).window.length → ∃ u : State, exec (.hbmRequestAccept st r) s = .next u ∧ u.mem = s.mem ∧
      (u.stack st).window = (s.stack st).window ∧ (u.stack st).waiting.length = 1)) ∧
  (∀ (s : State) (st : StackId) (i n : Nat) (r : WinReq), let x := s.stack st
    x.next s.now.toNat (s.fld (Reg.morCtlCfg st) Fld.morCtlCfgAge) = some (i, r) → x.confirm = [] → x.waiting = [] →
    s.mem.ue = [] → s.mem.ce = [] →
    (∀ b, r.write = some b → ∃ u : State, exec (.hbmRequestServe st n .clean) s = .next u ∧
      u.mem = ((s.setStack st { x with window := x.window.eraseIdx i }).storeL st (b.length / 4096 + 2) r.addr b).mem ∧
      (u.stack st).window.map WinReq.addr = (x.window.eraseIdx i).map WinReq.addr) ∧
    (r.write = none → (∀ b ∈ burstsOf r.addr r.len, s.badByte (s.hbmAddr st b) 64 = none) →
      ∃ u : State, exec (.hbmRequestServe st n .clean) s = .next u ∧ u.mem = s.mem ∧ (u.stack st).window = x.window.eraseIdx i ∧
        u.out = s.out ++ [.hbmRead st r.addr r.data] ∧
        (0 < r.len → (r.addr + r.len - 1) / 2048 = r.addr / 2048 → (u.stack st).hit r.addr = true))) ∧
  (∀ (s : State) (st : StackId) (ch : Fin 16) (bank : Fin 64),
    ∃ u : State, exec (.pageIdleClose st ch bank) s = .next u ∧ exec (.hbmRefresh st ch bank) s = .next u ∧
      (u.stack st).openRow.get 0 (ch * 64 + bank) = 0 ∧ (∀ k ≠ ch.val * 64 + bank.val, (u.stack st).openRow.get 0 k = (s.stack st).openRow.get 0 k) ∧
      u.mem = s.mem ∧ u.regs = s.regs) ∧
  (∀ (s : State) (st : StackId) (n : BitVec 31), let a := s.hbmAddr st (n.toNat * 64)
    readyReqs (s.stack st).window = [] → (s.retiredPages.any fun p => p ≤ a && a < p + 2048) = false →
    (a ∉ s.mem.ue → a ∉ s.mem.ce → exec (.hbmScrub st n .clean) s = .next s ∧
      ∃ u : State, exec (.hbmScrub st n .corrected) s = .next u ∧ u.mem = s.mem ∧
        (u.stack st).ces.get 0 (n.toNat * 64 / 2048) = (s.stack st).ces.get 0 (n.toNat * 64 / 2048) + 1) ∧
    (∃ u : State, exec (.hbmScrub st n .uncorrectable) s = .next u ∧ a ∈ u.mem.ue ∧ u.mem.cells = s.mem.cells))) ∧
  ((∀ (s : State) (o : Opener) (st : StackId) (ix : Fin 512), let x := s.stack st; let off := Reg.morRetCtrl st
    s.mayAccess (openerNat o) off true = true → s.regHere off →
    (s.lockOpen (openerNat o) = true →
      ((x.ret.get {} ix).state = 1 → x.window = [] → ∃ u : State, exec (.retConfirm o ⟨st, ix⟩) s = .next u ∧
        (u.stack st).ret.get {} ix = { page := (x.ret.get {} ix).page, state := 2 } ∧ u.fld off Fld.morRetCtrlIndex = ix ∧ u.mem = s.mem) ∧
      ((x.ret.get {} ix).state = 1 → x.window ≠ [] → ∃ u : State, exec (.retConfirm o ⟨st, ix⟩) s = .next u ∧
        (u.stack st).ret = x.ret ∧ (u.stack st).confirm = x.confirm ++ [(ix.val, x.window)] ∧ u.mem = s.mem) ∧
      ((x.ret.get {} ix).state ≠ 1 → ∃ u : State, exec (.retConfirm o ⟨st, ix⟩) s = .next u ∧ s.logsOne u 0x0004 ∧
        u.stackTab = s.stackTab ∧ u.mem = s.mem)) ∧
    (s.lockOpen (openerNat o) = false → ∃ u : State, exec (.retConfirm o ⟨st, ix⟩) s = .next u ∧ u.stackTab = s.stackTab ∧ u.mem = s.mem)) ∧
  (∀ (s : State), ((upFrom 0 8).any fun st => (s.stack st).retDirty) = true →
    ∃ u : State, exec .retirementTableSave s = .next u ∧ u.mem = s.mem ∧ (∀ st < 8, (u.stack st).retDirty = false) ∧
      u.retSave = { slot := 1 - s.retSave.slot, ver := s.retSave.ver + 1 } ∧
      (s.flash.wf = true → s.retBody.length + 128 ≤ 0x10000 → let a := imageSlot 7 (1 - s.retSave.slot)
        u.flashBytes a (s.retBody.length + 128) = retImage (s.retSave.ver + 1) s.retBody ∧
        ∀ o n, o + n ≤ a ∨ a + 0x10000 ≤ o → u.flashBytes o n = s.flashBytes o n)))

/-! ## Matrix cores (chapter 5) -/

/-- Rules R79 and R150: where it is the thread's turn, a MATRIX word of a pass or fill program becomes one item with a part for each
enabled core of the cluster, and the thread goes on; with no core enabled it ends EMPTY, and from a handler MALFORMED with detail 60, with no
other effect. -/
def Obligations.MatrixWordsIssue : Prop :=
  ∀ (z : State) (g : ClusterId) (t : Thr) (w : BitVec 56) (op : Nat) (c : Instr),
    (op, c) ∈ [(0, Instr.mcfg g t w), (1, .mload g t w), (2, .mstream g t w), (3, .mclr g t w), (4, .memit g t w)] →
    let k := threadKey g t
    let s := z.atStart k
    let x := s.thread k
    let n := stepPc x.loops x.pc
    let y : Thread := { x with pc := n.1, loops := n.2 }
    let on := (upFrom (8 * g) 8).filter s.coreOn
    z.mayIssue k (progWord 0 op w.toNat) →
    (x.prog = .handler → ∃ u : State, exec c z = .next u ∧ s.wordEnds u k y (malformed 60)) ∧
    (x.prog ≠ .handler → on = [] → ∃ u : State, exec c z = .next u ∧ s.wordEnds u k y { status := .empty }) ∧
    (x.prog ≠ .handler → on ≠ [] →
      ∃ u : State, exec c z = .next u ∧ u = (s.matrixWord k op w.toNat (if op = 0 ∨ op = 3 then 0 else s.agAdd k (bits w.toNat 48 4))).advance k ∧
        (u.thread k).pc = n.1 ∧ ∃ i ∈ u.items.live, i.id = s.nextId ∧ i.unit = 0x0100 ∧ i.owner = s.ownerOf k ∧ i.parts = on.length)

/-- Rules R149, R150 and R152 to R155: on a cluster whose one enabled core leads itself alone and is idle, a word that passes its checks
and meets no error: MCFG writes the named parameter; MLOAD of some lanes and elements, aligned and owned, fills the bank's lanes and
records its state; MSTREAM of some columns and a reduction length, on a valid bank, accumulates the streamed columns; MCLR zeroes the
named accumulators and takes their poison away; MEMIT of one lane and at most eight accumulators without poison writes them, converted,
to Firn. Where it meets a choice of the model: log entries 15, 24 and 25. Rule R159: with a BOW_LIMIT above 0, a member whose oldest
MSTREAM has waited for its stream longer than the limit, with no unit to take, logs it once, and not before; a leader whose feeder is
held by a member with 32 units outstanding logs it too. -/
def Obligations.MatrixCoresAct : Prop :=
  (∀ (z : State) (g : ClusterId) (t : Thr) (w : BitVec 56) (c : Nat),
    let k := threadKey g t
    let s := z.atStart k
    let v := w.toNat
    let m := s.core c
    let ag := s.agAdd k (bits v 48 4)
    let bank := bits v 55 1
    let r := Reg.cirMcBank (c / 8) (c % 8) bank
    let n := bits v 35 7
    let a0 := bits v 42 6
    let may := fun op => z.mayIssue k (progWord 0 op v)
    (s.thread k).prog ≠ .handler → (upFrom (8 * g) 8).filter s.coreOn = [c] → s.coreLeader c = c → m.fifo = [] → m.hdrs = [] →
    s.members c = [] →
    (may 0 → mcfgFault v = none → ∃ u : State, exec (.mcfg g t w) z = .next u ∧ u.mem = s.mem ∧
      (u.core c).loadStride = (if bits v 54 2 = 0 then bits v 0 32 else m.loadStride) ∧
      (u.core c).emitStride = (if bits v 54 2 = 1 then bits v 0 32 else m.emitStride) ∧
      (u.core c).rime = (if bits v 54 2 = 2 then bits v 0 32 else m.rime)) ∧
    (∀ f, may 1 → mloadFault v = none → operandFmt (bits v 52 3) = some f → bits v 41 7 ≠ 0 → bits v 31 10 ≠ 0 →
      let a := (bits v 0 31 + ag + s.fld (Reg.cirMcLoff (c / 8) (c % 8)) Fld.cirMcLoffOff) % 2 ^ 31
      let starts := (upFrom 0 (bits v 41 7)).map fun n => a + n * m.loadStride
      (∀ x ∈ starts, x % 16 = 0) → s.lanesFault (s.threadJob k) starts (bits v 31 10 * fmtSize f) = none →
      (∀ x ∈ starts, s.badByte (firnBase + x) (bits v 31 10 * fmtSize f) = none) →
      ∃ u : State, exec (.mload g t w) z = .next u ∧ u.mem = s.mem ∧ (u.reg r).toNat = bits v 41 7 + bits v 52 3 * 2 ^ 7 + bits v 31 10 * 2 ^ 10 + 2 ^ 20 ∧
        (u.core c).store = ((State.loadLanes c bank f (bits v 31 10 * fmtSize f) starts 0 s).1.core c).store ∧ (u.core c).acc = m.acc) ∧
    (∀ f, may 2 → s.gstate c ≠ 2 → s.mstreamFault c v = none → operandFmt (bits v 52 3) = some f → n ≠ 0 → bits v 25 10 ≠ 0 →
      let a := firnBase + bits v 0 25 * 64 + ag + s.fld (Reg.cirMcSoff (c / 8) (c % 8)) Fld.cirMcSoffOff * 64
      let u16 := n * unitsOf f (bits v 25 10)
      s.rangeFault (s.threadJob k) a (u16 * 16) = none → s.badByte a (u16 * 16) = none → s.fld r Fld.cirMcBankValid ≠ 0 →
      ∃ u : State, exec (.mstream g t w) z = .next u ∧ u.mem = s.mem ∧
        (u.core c).acc = (m.stream (s.fld r Fld.cirMcBankLanes) bank f a0 n (bits v 25 10) 0 u16 (s.bytes a (u16 * 16))).acc) ∧
    (may 3 → mclrFault v = none → n ≠ 0 → ∃ u : State, exec (.mclr g t w) z = .next u ∧ u.mem = s.mem ∧
      (∀ lane < 96, ∀ a < 64, (u.core c).accOf (lane * 64 + a) = if a0 ≤ a ∧ a < a0 + n then 0 else m.accOf (lane * 64 + a)) ∧
      (u.core c).poison = m.poison.filter fun x => !(a0 ≤ x % 64 && x % 64 < a0 + n)) ∧
    (∀ f, may 4 → memitFault v = none → fmtOf (bits v 52 3) = some f → n ≠ 0 → n ≤ 8 → bits v 28 7 = 1 →
      let a := (bits v 0 28 * 8 + ag + s.fld (Reg.cirMcEoff (c / 8) (c % 8)) Fld.cirMcEoffOff) % 2 ^ 31
      a % fmtSize f = 0 → s.rangeFault (s.threadJob k) (firnBase + a) (n * fmtSize f) = none →
      (m.poison.any fun x => x / 64 < 1 && a0 ≤ x % 64 && x % 64 < a0 + n) = false →
      ∃ u : State, exec (.memit g t w) z = .next u ∧
        u.mem = (s.store (firnBase + a) (convertAll f ((upFrom a0 n).map fun x => val32 (m.accOf x))).1).mem)) ∧
  (∀ (s : State) (g : ClusterId) (j : Fin 8) (us : Nat), let c := 8 * g.val + j.val
    let lim := s.fld (Reg.cirMcCtrl g j) Fld.cirMcCtrlBowLimit
    s.coreOn c = true → lim ≠ 0 →
    (∀ i, s.coreLeader c ≠ c → (s.core c).fifo.find? (fun i => i.op == 2 && i.result == none) = some i → i.logged = false →
      s.outstanding c = 0 →
      (lim < us → ∃ u : State, exec (.bowWait g j us) s = .next u ∧ s.logsOne u 0x0201 ∧ u.mem = s.mem ∧ u.regs = s.regs ∧
        exec (.bowWait g j us) u = .next u) ∧
      (us ≤ lim → exec (.bowWait g j us) s = .next s)) ∧
    (∀ x, s.coreLeader c = c → s.slowest (s.members c) = some x → (s.core c).hdrs ≠ [] → 32 ≤ s.outstanding x → (s.core c).heldLog = false →
      lim < us → ∃ u : State, exec (.bowWait g j us) s = .next u ∧ s.logsOne u 0x0201 ∧ u.mem = s.mem ∧ u.regs = s.regs))

/-! ## Vector engines (chapter 6) -/

/-- Rules R167, R173 and R184: where it is the thread's turn and the word passes its checks, VCFG writes the parameter that it names of the
thread's vector context and leaves its others, VSTR writes the stream that it names, valid, and leaves the others, and VTBL, with an aligned
address and a table that can be read and passes its checks, loads the curve slot that it names.
Where it meets a choice of the model: log entry 26. -/
def Obligations.VectorContextsAct : Prop :=
  ∀ (z : State) (g : ClusterId) (t : Thr) (w : BitVec 58), let k := threadKey g t; let s := z.atStart k; let v := w.toNat
    let x := s.vctx k
    let may := fun kind => z.mayIssue k (2 ^ 60 + kind * 2 ^ 58 + v)
    (may 0 → vcfgFault v = none → ∃ u : State, exec (.vcfg g t w) z = .next u ∧ u.mem = s.mem ∧
      (u.vctx k).vl = (if bits v 54 4 = 0 then bits v 0 32 else x.vl) ∧ (u.vctx k).rime = (if bits v 54 4 = 1 then bits v 0 32 else x.rime) ∧
      (u.vctx k).site = (if bits v 54 4 = 2 then bits v 0 32 else x.site) ∧
      (u.vctx k).epos = (if bits v 54 4 = 3 then bits v 0 32 else x.epos) ∧
      (u.vctx k).thresh = (if bits v 54 4 = 4 then bits v 0 32 else x.thresh) ∧ (u.vctx k).streams = x.streams) ∧
    (∀ f, may 1 → vstrFault v = none → fmtOf (bits v 52 3) = some f → ∃ u : State, exec (.vstr g t w) z = .next u ∧ u.mem = s.mem ∧
      (u.vctx k).vl = x.vl ∧ (∀ j ≠ bits v 55 3, (u.vctx k).stream j = x.stream j) ∧ (u.vctx k).stream (bits v 55 3) =
        { ptr := (bits v 0 31 + s.agAdd k (bits v 31 4)) % 2 ^ 31, fmt := f, mode := bits v 50 2, adv := bit v 49, valid := true }) ∧
    (let a := bits v 0 31 + s.agAdd k (bits v 31 4)
     let n := curveNlog (s.bytes (firnBase + a) 32)
     may 3 → a % 32 = 0 → bits v 35 21 = 0 → n ≤ 8 → s.rangeFault (s.threadJob k) (firnBase + a) 32 = none →
      s.badByte (firnBase + a) 32 = none → s.rangeFault (s.threadJob k) (firnBase + a) (curveSize n) = none →
      s.badByte (firnBase + a) (curveSize n) = none → curveFault (s.bytes (firnBase + a) (curveSize n)) = none →
      ∃ u : State, exec (.vtbl g t w) z = .next u ∧ u.mem = s.mem ∧ (u.curve g (bits v 56 2)).bytes = s.bytes (firnBase + a) (curveSize n))

/-- Rules R170, R171, R175 and R182: where it is the thread's turn, a VOP word whose fields and ranges pass every check and whose operands
can be read writes the results of its operation, converted to the destination's format, to the destination and nothing else to memory,
and completes DONE with the count VL.
Where it meets a choice of the model: log entries 16 and 27. -/
def Obligations.VopWordsAct : Prop :=
  ∀ (z : State) (g : ClusterId) (t : Thr) (w : BitVec 52) (op : Nat) (i : Instr), (op, i) ∈ vopWords g t w →
    let k := threadKey g t
    let s := z.atStart k
    let x := s.vctx k
    let d := x.stream (bits w.toNat 49 3)
    z.mayIssue k (2 ^ 60 + 2 * 2 ^ 58 + (op * 2 ^ 52 + w.toNat)) → s.vopRuns k op w.toNat →
    ∀ a b c, s.vopSources k op w.toNat = [a, b, c] →
    let out := convertAll d.fmt (s.vopResults k op w.toNat x.vl a b c)
    exec i z = .next (((s.vopRun k op w.toNat x.vl a b c).veDone k { count := x.vl }).advance k) ∧
    ∃ u : State, exec i z = .next u ∧ (out.1 ≠ [] → u.mem = (s.store (firnBase + d.ptr) out.1).mem) ∧ (out.1 = [] → u.mem = s.mem) ∧
      s.itemBegun u k 0x0101 (some { count := x.vl })

/-- Rules R119, R176, R186 and R188: element i of the result of each elementwise VOP is the operation that Table 6-8 names on the operands'
elements i, each arithmetic one exact and rounded once to FP32; VDROP takes +0 for the operand b of an element that its random value drops. -/
def Obligations.ElementwiseResults : Prop :=
  ∀ (s : State) (k w n i : Nat) (a b c : Option VSrc) (va vb vc : Val), i < n → (s.srcVals n a)[i]? = some va →
    (s.srcVals n b)[i]? = some vb → (s.srcVals n c)[i]? = some vc →
    let r := fun op => (s.vopResults k op w n a b c)[i]?
    r 0x00 = some va ∧ r 0x01 = some (arith (sumVals [va, vb])) ∧ r 0x02 = some (arith (sumVals [va, vb.neg])) ∧
    r 0x03 = some (arith (va.mul vb)) ∧ r 0x04 = some (arith (sumVals [va.mul vb, vc])) ∧ r 0x05 = some (arith (maxVal va vb)) ∧
    r 0x06 = some (arith (minVal va vb)) ∧ r 0x07 = some (arith (if va.sign then va.neg else va)) ∧
    r 0x08 = some (arith va.neg) ∧ r 0x09 = some (arith ((Val.fin false 1 0).div va)) ∧
    r 0x0A = some (arith (sumVals [va, vb]).rsqrt) ∧ r 0x0E = some (if zeroVal.lt vc then va else vb) ∧
    r 0x0B = some (val32 (curveEval (s.curve (k / 4) (bits w 32 2)).bytes (arith (sumVals [va.mul vb, vc])))) ∧
    r 0x0C = some (arith (va.mul (if s.dropped k i then zeroVal else vb))) ∧
    r 0x0D = some (nrmResult (s.pairVals b).1 (s.pairVals b).2 va vc)

/-! ## Moraine engines and Snowpack (chapter 8) -/

/-- Rules R233 to R239, R244, R250 and R260: a GACC, OPT, VREAD or VPUB word at its turn, with a record that can be read and that
passes every check, and with sources that can be read: a GACC writes its results and completes DONE with COUNT; an OPT writes what R244 names
and completes DONE with COUNT; a VREAD of a held version writes its elements in the target format and completes DONE with COUNT; a VPUB becomes
an item of COUNT elements and stores nothing. Rules R237, R239 and R393: where no other command waits in the engine, that is at once; a GACC or an
OPT that reads a host window first waits in its engine for the data.
Where it meets a choice of the model: log entry 28. -/
def Obligations.MoraineCommandsAct : Prop :=
  ∀ (z : State) (g : ClusterId) (t : Thr) (w : BitVec 56) (b : Bytes),
    let k := threadKey g t
    let s := z.atStart k
    let v := w.toNat
    let st := bits v 52 4
    let c := s.morCtx k
    let r := parseMorRec b
    let job := s.threadJob k
    let may := fun op => z.mayIssue k (progWord 5 op v) ∧ s.morWordFault op v c = none
    let sz := setSize r.sel r.count
    let waits := fun (op : Nat) (i : Instr) => ∃ u : State, exec i z = .next u ∧ s.itemBegun u k 0x0201 none ∧ u.mem = s.mem ∧
      ∃ m, (u.stack st).cmds = [m] ∧ m.item = s.nextId ∧ m.op = op ∧ m.rcd = b
    (s.thread k).prog ≠ .fill → s.engineUp st → s.recordAt k v b → morReserved b = none → r.count ≠ 0 → (s.stack st).cmds = [] →
    (∀ f, may 0 → r.rime ≤ 63 → gaccFmt r.sel = some f → s.rangeFault job r.a0 (r.count * fmtSize f) = none →
      s.rangeFault job r.a1 (4 * r.count) = none → r.a0 % 4 = 0 → r.a1 % 4 = 0 → s.localTo st r.a1 (4 * r.count) = true →
      (hostPortOf r.a0 ≠ none → waits 0 (.gacc g t w)) ∧ (hostPortOf r.a0 = none → s.badByte r.a0 (r.count * fmtSize f) = none → (r.init = false → s.badByte r.a1 (r.count * 4) = none) →
      ∃ u : State, exec (.gacc g t w) z = .next u ∧ s.itemBegun u k 0x0201 (some { count := r.count }) ∧
        u.mem = (s.store r.a1 ((gaccResults f r.init r.count (s.bytes r.a0 (r.count * fmtSize f)) (s.bytes r.a1 (4 * r.count))).flatMap
          fun x => leBytes 4 x.toNat)).mem)) ∧
    (may 1 → r.rime ≤ 63 → r.sel ≤ 2 → s.rangeFault job r.a0 (4 * r.count) = none → s.rangeFault job r.a1 sz = none →
      s.rangeFault job r.a2 sz = none → s.rangeFault job r.a3 64 = none → r.ix + r.count ≤ s.elems c →
      r.a0 % 4 = 0 → s.localTo st r.a0 (4 * r.count) = true → r.a1 % 64 = 0 → s.localTo st r.a1 sz = true → r.a2 % 64 = 0 →
      s.localTo st r.a2 sz = true → r.a3 % 64 = 0 → (hostPortOf r.a3 ≠ none → waits 1 (.opt g t w)) ∧ (hostPortOf r.a3 = none →
      s.badByte r.a3 64 = none → (∀ x ∈ s.optArrays c st r, s.badByte x.1 (r.count * x.2) = none) →
      let x := s.morCtl k
      let y := ((s.chargeRange r.a3 64).readArrays (s.optArrays c st r) r.count).optWrite x st r (s.optOuts x st r.count r)
      ∃ u : State, exec (.opt g t w) z = .next u ∧ s.itemBegun u k 0x0201 (some { count := r.count }) ∧ u.mem = y.mem ∧ u.snps = y.snps)) ∧
    (∀ f slot, may 4 → s.hostHeld r.a0 = false → r.rime ≤ 63 → vreadFmt r.sel = some f →
      s.snpFind c (if r.tagv then (s.thread k).tag.ver.toNat else r.version) = some slot →
      s.rangeFault job r.a0 (r.count * fmtSize f) = none → r.ix + r.count ≤ s.elems c →
      s.versionBad c st slot r.ix r.count (s.wfmt c == some f && f != .w16) = none →
      ∃ u : State, exec (.vread g t w) z = .next u ∧ s.itemBegun u k 0x0201 (some { count := r.count }) ∧
        u.mem = (s.store r.a0 (s.versionBytes c st slot r.ix r.count f).1).mem) ∧
    (may 5 → r.version = s.buildNum c → r.ix + r.count ≤ s.elems c →
      s.badByte (s.slotAddr c st (s.buildSlot c) + 2 * r.ix) (2 * r.count) = none →
      ∃ u : State, exec (.vpub g t w) z = .next u ∧ u.mem = s.mem ∧ ∃ i ∈ u.items.live, i.id = s.nextId ∧ i.unit = 0x0201 ∧
        i.index = st ∧ i.owner = s.ownerOf k ∧ i.whole = r.count ∧ i.info = 1 + c)

/-- Rules R248 and R252: at its turn and past its word's checks, a VBEGIN that no mirror point holds back completes DONE where a build
is open, and opens one and completes DONE where none is open and a slot is free; it waits, with its thread, where a mirror point holds
it back, and where no build is open and no slot is free. A VEND starts the end of the build and waits for it. A VBEGIN that waits opens
its build once it can; where nothing waits or no slot is free nothing happens; and each VBEGIN whose wait passes SLOT_LIMIT logs its
event, once. Rule R252: a build whose every element is written becomes HEAD once VEND has been issued, and every VEND that waits
completes DONE; as long as VEND has not been issued, or a stack's part is not written, nothing happens. A VEND that waits too long
completes with TIMEOUT and an event. Where it meets a choice of the model: log entries 28 and 29. -/
def Obligations.BuildsAct : Prop :=
  ((∀ (z : State) (g : ClusterId) (t : Thr) (w : BitVec 56), let k := threadKey g t; let s := z.atStart k; let c := s.morCtx k
    let held := s.mirrorHold c (s.thread k).tag.step
    (s.thread k).prog ≠ .fill → s.engineUp 0 → c < 256 →
    (z.mayIssue k (progWord 5 2 w.toNat) → s.morWordFault 2 w.toNat c = none →
      (held = false → s.buildOpen c = true → ∃ u : State, exec (.vbegin g t w) z = .next u ∧ u.regs = s.regs ∧ u.mem = s.mem ∧
        (u.thread k).wait = .none ∧ s.itemBegun u k 0x0201 (some {})) ∧
      (∀ slot, held = false → s.buildOpen c = false → s.buildRoom c = some slot → (s.snp c).begins = [] → (s.snp c).waits = [] →
        ∃ u : State, exec (.vbegin g t w) z = .next u ∧ u.buildOpen c = true ∧ u.buildNum c = (s.headNum c + 1) % 0x10000 ∧
          u.buildSlot c = slot ∧ u.slotState c slot = 1 ∧ u.reg (Reg.snpCtxBstep c) = (s.thread k).tag.step ∧ u.mem = s.mem ∧
          s.itemBegun u k 0x0201 (some {})) ∧
      (held = true ∨ (s.buildOpen c = false ∧ s.buildRoom c = none) →
        ∃ u : State, exec (.vbegin g t w) z = .next u ∧ u.regs = s.regs ∧ u.mem = s.mem ∧ (u.thread k).wait = .item s.nextId ∧
          s.itemBegun u k 0x0201 none ∧
          (u.snp c).begins = (s.snp c).begins ++ [{ item := s.nextId, key := k, step := (s.thread k).tag.step }])) ∧
    (z.mayIssue k (progWord 5 3 w.toNat) → s.morWordFault 3 w.toNat c = none →
      ∃ u : State, exec (.vend g t w) z = .next u ∧ u.mem = s.mem ∧ s.itemBegun u k 0x0201 none ∧
        u.fld (Reg.snpCtxBuild c) Fld.snpCtxBuildState = 2 ∧ (u.snp c).vends = (s.snp c).vends ++ [s.nextId])) ∧
  (∀ (s : State) (c : CtxId),
    let l := (s.snp c).begins.filter fun b => !s.mirrorHold c b.step
    (s.buildOpen c = true → exec (.vbeginOpen c) s = .next (s.endBegins c)) ∧
    (∀ slot b r, s.buildOpen c = false → s.buildRoom c = some slot → l = b :: r →
      exec (.vbeginOpen c) s = .next (s.beginBuild c slot b.step)) ∧
    (∀ slot w r, s.buildOpen c = false → s.buildRoom c = some slot → l = [] → (s.snp c).waits = w :: r →
      exec (.vbeginOpen c) s = .next (s.beginBuild c slot w.pub.step)) ∧
    (s.buildOpen c = false → (s.buildRoom c = none ∨ (l = [] ∧ (s.snp c).waits = [])) → exec (.vbeginOpen c) s = .next s)) ∧
  (∀ (s : State) (c : CtxId) (n : Nat), let lim := s.fld (Reg.snpCtxTmo c) Fld.snpCtxTmoSlotLimit
    let due := fun b => lim ≠ 0 ∧ lim < s.beginWait b ∧ b.logged = false
    ((∀ b, (s.snp c).begins[n]? = some b → ¬due b) → exec (.snowpackSlotWait c n) s = .next s) ∧
    (∀ b, (s.snp c).begins[n]? = some b → due b → ∃ (u : State) (e : Event), exec (.snowpackSlotWait c n) s = .next u ∧
      u.log.raised = s.log.raised ++ [e] ∧ e.code = 0x0305 ∧ e.arg1 = s.beginWait b % 2 ^ 64 ∧ u.regs = s.regs ∧ u.mem = s.mem ∧
      exec (.snowpackSlotWait c n) u = .next u))) ∧
  (∀ (s : State) (c : CtxId),
    let made := s.fld (Reg.snpCtxBuild c) Fld.snpCtxBuildState = 2 ∧ ∀ st < 8, s.elems c ≤ (s.snp c).counts.get 0 st
    (made → (s.snp c).waits = [] →
      ∃ u : State, exec (.buildBecomesHead c) s = .next u ∧ u.hasHead c = true ∧ u.headNum c = s.buildNum c ∧
        u.fld (Reg.snpCtxHead c) Fld.snpCtxHeadSlot = s.buildSlot c ∧ u.buildOpen c = false ∧
        (u.snp c).vends = [] ∧ (∀ id ∈ (s.snp c).vends, s.itemEnds u id {}) ∧ u.mem = s.mem) ∧
    (¬made → exec (.buildBecomesHead c) s = .next s) ∧
    (∀ id r, s.fld (Reg.snpCtxTmo c) Fld.snpCtxTmoVend ≠ 0 → (s.snp c).vends = id :: r →
      ∃ u : State, exec (.vendTimeout c) s = .next u ∧ s.itemEnds u id { status := .timeout } ∧ (u.snp c).vends = r ∧ s.logsOne u 0x0308 ∧
        u.buildNum c = s.buildNum c ∧ u.mem = s.mem))

/-- Rules R251, R254, R258 and R259: a publication arrival is written, discarded or a stray at once, or waits for a slot; a failure
notice of the open build, of a step that the counter has not passed, marks its step failed and discards the build. A compaction whose
elements can be read and whose exceptions fit frees its full slot; one that cannot be completed frees its delta slot, ends on the full
slot, is counted, and stores nothing; where none runs nothing happens. Rule R262: RESET of a context that is IDLE or RESET frees every
slot and clears the head, and is ignored otherwise; ADOPT that passes its checks makes its slot the head, and otherwise shows the code
of the lowest check that failed, with no other effect. Where it meets a choice of the model: log entries 22 and 29. -/
def Obligations.SnowpackAct : Prop :=
  (∀ (s : State) (c : CtxId),
    (∀ a xid, s.pubFate c a ≠ .wait → exec (.snpArrival c a xid) s = .next (s.endPub c a xid (s.pubFate c a))) ∧
    (∀ a xid, s.pubFate c a = .wait → s.buildRoom c = none → ∃ u : State, exec (.snpArrival c a xid) s = .next u ∧
      (u.snp c).waits = (s.snp c).waits ++ [⟨a, xid⟩] ∧ u.regs = s.regs ∧ u.mem = s.mem) ∧
    (∀ ver step, s.buildOpen c = true → s.buildNum c = ver.toNat → s.reg (Reg.snpCtxBstep c) = step →
      (s.reg (Reg.stgTabStep (c / 4))).toNat ≤ step.toNat + 1 →
      ∃ u : State, exec (.failureNoticeReceive c ver step) s = .next u ∧ u.isFailed (c / 4) step = true ∧ u.buildOpen c = false) ∧
    (∀ (k : Fin 8) (d : Nat), s.compacting c k = true → s.fld (Reg.snpSlot c k) Fld.snpSlotKind = 0 →
      (upFrom 0 8).find? (fun d => s.compacting c d && s.fld (Reg.snpSlot c d) Fld.snpSlotKind == 1 && s.slotVer c d == s.slotVer c k) = some d →
      let fits := s.compactFits c k (s.fld (Reg.snpSlot c d) Fld.snpSlotRef)
      (fits = true → ∃ u : State, exec (.compactionComplete c k) s = .next u ∧ u = s.endCompact c k ∧ u.slotState c k = 0) ∧
      (fits = false → ∃ u : State, exec (.compactionComplete c k) s = .next u ∧ u.reg (Reg.snpSlot c d) = 0 ∧
        u.fld (Reg.snpSlot c k) Fld.snpSlotCompact = 0 ∧ u.mem = s.mem ∧
        u.reg (Reg.snpCtxOver c) = BitVec.ofNat 32 (min 0xFFFFFFFF ((s.reg (Reg.snpCtxOver c)).toNat + 1)))) ∧
    (∀ k : Fin 8, s.compacting c k = false → exec (.compactionComplete c k) s = .next s)) ∧
  (∀ (s : State) (c : CtxId),
    (s.ctxState c = 0 ∨ s.ctxState c = 5 → ∃ u : State, exec (.snpReset c) s = .next u ∧ u.hasHead c = false ∧ u.buildOpen c = false ∧
      (∀ k < 8, u.slotState c k = 0) ∧ u.snp c = {}) ∧
    (s.ctxState c ≠ 0 → s.ctxState c ≠ 5 → ∃ u : State, exec (.snpReset c) s = .next u ∧ u.snps = s.snps ∧ u.mem = s.mem) ∧
    (∀ (slot : Fin 8) (ver : BitVec 16), s.adoptErr c slot = 0 → (s.snp c).waits = [] →
      ∃ u : State, exec (.snpAdopt c slot ver) s = .next u ∧ u.hasHead c = true ∧ u.headNum c = ver.toNat ∧ u.slotState c slot = 2 ∧
        u.slotVer c slot = ver.toNat ∧ u.fld (Reg.snpCtxStatus c) Fld.snpCtxStatusErr = 0 ∧ u.mem = s.mem) ∧
    (∀ (slot : Fin 8) (ver : BitVec 16), s.adoptErr c slot ≠ 0 →
      exec (.snpAdopt c slot ver) s = .next (s.setFld (Reg.snpCtxStatus c) Fld.snpCtxStatusErr (s.adoptErr c slot))))

/-! ## The Drift store (chapter 11) -/

/-- Rules R339, R341, R354 and R358: at its turn, and with a record that can be read and passes its checks, a MESSAGE word becomes an item: an
AMSEND with one part for each destination cluster, whose messages wait at those clusters or go as transfers, a DQADD with one part, or a COLL that
takes a free entry, or waits for one. None of them stores anything as it issues.
Where it meets a choice of the model: log entry 34. -/
def Obligations.MessageWordsAct : Prop :=
  ∀ (z : State) (g : ClusterId) (t : Thr) (w : BitVec 56) (b : Bytes),
    let k := threadKey g t
    let s := z.atStart k
    let x := leNat b
    let n := bits x 80 16
    let pay := bits x 128 48
    let may := fun op => z.mayIssue k (progWord 6 op w.toNat)
    let item := fun (u : State) (parts : Nat) => ∃ i ∈ u.items.live, i.id = s.nextId ∧ i.unit = 0x0103 ∧ i.index = g.val ∧
      i.owner = s.ownerOf k ∧ i.parts = parts
    bits w.toNat 16 32 = 0 → bits w.toNat 52 4 = 0 → (s.thread k).prog ≠ .fill → s.recordAt k w.toNat b →
    (may 1 → amsendFault b = none → n ≠ 0 → s.rangeFault (s.threadJob k) pay (bits x 64 16) = none → s.badByte pay (bits x 64 16) = none →
      (BitVec.ofNat 32 x ≠ s.ownAddr → ∃ u : State, exec (.amsend g t w) z = .next u ∧ item u n ∧ u.fab.nextXid = s.fab.nextXid + BitVec.ofNat 32 n ∧
        u.mem = s.mem) ∧
      (BitVec.ofNat 32 x = s.ownAddr → ∃ u : State, exec (.amsend g t w) z = .next u ∧ item u n ∧ u.mem = s.mem ∧
        ∀ i < n, ∃ m, (u.ring (bits x 32 9 + i)).waits = (s.ring (bits x 32 9 + i)).waits ++ [m] ∧ m.teller = .item s.nextId i ∧
          m.msg.payload = s.bytes pay (bits x 64 16) ∧ m.msg.handler = bits x 48 10 ∧ m.msg.mb = (s.thread k).tag.mb)) ∧
    (∀ f, may 2 → dqaddFault b = none → fmtOf (bits x 48 8) = some f → bits x 96 16 ≠ 0 →
      s.rangeFault (s.threadJob k) pay (bits x 96 16 * fmtSize f) = none → s.badByte pay (bits x 96 16 * fmtSize f) = none →
      ∃ u : State, exec (.dqadd g t w) z = .next u ∧ item u 1 ∧ u.mem = s.mem ∧
        (BitVec.ofNat 32 x ≠ s.ownAddr → u.fab.nextXid = s.fab.nextXid + 1)) ∧
    (∀ key, may 0 → collFault b = none → (parseColl b).count ≠ 0 →
      key = { job := ⟨(s.threadJob k).getD 0 % 4, by omega⟩, cid := BitVec.ofNat 16 (parseColl b).cid, step := (s.thread k).tag.step } →
      s.collCheck k b key = none →
      (∀ i, ((upFrom 0 16).find? fun i => !(s.drift.colls.any fun e => e.1 == i)) = some i →
        ∃ u : State, exec (.coll g t w) z = .next u ∧ item u 1 ∧ u.mem = s.mem ∧
          ∃ c, u.drift.colls = s.drift.colls ++ [(i, c)] ∧ c.key = key ∧ c.state = 1 ∧ c.item = s.nextId ∧ c.rcd = b) ∧
      (((upFrom 0 16).find? fun i => !(s.drift.colls.any fun e => e.1 == i)) = none →
        ∃ u : State, exec (.coll g t w) z = .next u ∧ item u 1 ∧ u.mem = s.mem ∧
          ∃ c, u.drift.collWait = s.drift.collWait ++ [c] ∧ c.key = key ∧ c.item = s.nextId ∧ c.rcd = b))

/-- Rules R355, R356, R362 and R366: the oldest message that waits for a cluster is written into its ring where its handler entry is valid and
the ring has room, waits where it has none, and is not placed where its job is dead there, which is counted, or where its handler entry does not take
it. A message from the fabric waits behind those that wait, and is placed at once where none does. Thread H, when idle, runs the handler of the oldest
record with the address registers and the tag of the message. Each message that has waited longer than AM_LIMIT logs the event once. -/
def Obligations.MessagesArePlaced : Prop :=
  (∀ (s : State) (g : ClusterId) (q : AmWait) (r : List AmWait), (s.ring g).waits = q :: r → q.msg.dcl = g.val →
    (∀ n e x, q.teller ≠ .queue n e x) →
    (s.amDead q.msg = true → ∃ u : State, exec (.amPlace (.waiting g)) s = .next u ∧ (u.ring g).waits = r ∧ (u.ring g).recs = (s.ring g).recs ∧
      u.reg Reg.drfAmDead = BitVec.ofNat 32 (min 0xFFFFFFFF ((s.reg Reg.drfAmDead).toNat + 1)) ∧ u.mem = s.mem) ∧
    (s.amDead q.msg = false → s.msgOff g = false →
      (∀ c, s.amEntry q.msg = .inl c → ∃ u : State, exec (.amPlace (.waiting g)) s = .next u ∧ (u.ring g).waits = r ∧
        (u.ring g).recs = (s.ring g).recs ∧ u.mem = s.mem) ∧
      (∀ pc, s.amEntry q.msg = .inr pc →
        let room := ringRoom (s.ring g) (s.ringSpace q.msg.job).2 (recSize q.msg.payload.length)
        (room = none → exec (.amPlace (.waiting g)) s = .next s) ∧
        (∀ off size, room = some (off, size) →
          let a := firnAddr g ((s.ringSpace q.msg.job).1 + off)
          ∃ u : State, exec (.amPlace (.waiting g)) s = .next u ∧ (u.ring g).waits = r ∧
            (u.ring g).recs = (s.ring g).recs ++ [⟨off, size, q.msg, pc⟩] ∧
            u.mem = ((s.store a (amHdr q.msg)).when (!q.msg.payload.isEmpty) fun s => s.store (a + 32) q.msg.payload).mem)))) ∧
  (∀ (s : State) (xid : W32) (m : AmMsg),
    ((s.ring m.dcl).waits = [] → exec (.amPlace (.fabric xid m)) s = .next ((s.amQueue m (.remote m.src xid)).amPlaceFront m.dcl)) ∧
    ((s.ring m.dcl).waits ≠ [] → exec (.amPlace (.fabric xid m)) s = .next (s.amQueue m (.remote m.src xid)))) ∧
  (∀ (s : State) (g : ClusterId) (r : AmRec) (l : List AmRec), let k := 4 * g.val + 3
    let pay := g.val * sliceSize + (s.ringSpace r.msg.job).1 + r.off + 32
    (s.thread k).prog = .idle → (s.ring g).recs = r :: l →
    ∃ u : State, exec (.handlerStart g) s = .next u ∧ (u.thread k).prog = .handler ∧ (u.thread k).pc = r.pc ∧
      u.ag k 0 = BitVec.ofNat 32 pay ∧ u.ag k 1 = BitVec.ofNat 32 r.msg.payload.length ∧ u.ag k 2 = r.msg.src ∧
      u.ag k 3 = BitVec.ofNat 32 r.msg.scl ∧ u.ag k 4 = BitVec.ofNat 32 r.msg.arg.toNat ∧ u.ag k 5 = BitVec.ofNat 32 (r.msg.arg.toNat / 2 ^ 32) ∧
      (u.thread k).tag = { mb := r.msg.mb, step := r.msg.step, ver := r.msg.ver } ∧ u.mem = s.mem ∧ u.regs = s.regs) ∧
  (∀ (s : State) (g : ClusterId) (n : Nat), let l := (s.ring g).waits
    ((∀ w, l[n]? = some w → s.amStalled w = false) → exec (.amsgStall g n) s = .next s) ∧
    (∀ w, l[n]? = some w → s.amStalled w = true → ∃ (u : State) (e : Event), exec (.amsgStall g n) s = .next u ∧ u.mem = s.mem ∧
      u.regs = s.regs ∧ u.log.raised = s.log.raised ++ [e] ∧ e.code = 0x0413 ∧ (u.ring g).waits = l.set n { w with logged := true } ∧
      exec (.amsgStall g n) u = .next u))

/-- Rules R359 to R362: with no contribution waiting at its queue, one from the fabric that its queue's checks pass is summed into its entry
where its turn has come, and the entry that it fills is delivered to the reader as a message; one out of turn is held where there is room, and waits
where there is none. One for a queue that is dead discards the queue's rounds and what it holds. At a queue where contributions wait, the oldest that
need not go on waiting are taken.
Where it meets a choice of the model: log entry 33. -/
def Obligations.ContributionsAreCombined : Prop :=
  (∀ (s : State) (xid : W32) (m : DqMsg), let q := m.queue.val; let x := s.dq q; let e := x.entries.get {} m.entry
    let turn := dqTurn (s.dqCfg q Fld.drfDqCfgMode == 0) e m.contrib
    x.waits = [] →
    (s.dqDead q = false → s.dqFault m = none →
      (turn = true → x.held = [] →
        (e.by_.length ≠ s.dqCfg q Fld.drfDqCfgKm1 →
          ∃ u : State, exec (.dqaddArrival (.fabric xid m)) s = .next u ∧ (u.dq q).entries.get {} m.entry = dqSum e m ∧ u.mem = s.mem) ∧
        (e.by_.length = s.dqCfg q Fld.drfDqCfgKm1 →
          ∃ u : State, exec (.dqaddArrival (.fabric xid m)) s = .next u ∧ (u.dq q).entries.get {} m.entry = { dqSum e m with delivering := true } ∧
            let c := s.fld (Reg.drfDqReader q) Fld.drfDqReaderCluster
            ∃ y, (u.ring c).waits = (s.ring c).waits ++ [y] ∧ y.teller = .queue q m.entry x.gen ∧ y.msg.dcl = c ∧
              y.msg.handler = s.fld (Reg.drfDqReader q) Fld.drfDqReaderHandler)) ∧
      (turn = false → s.dqRoom q = true →
        ∃ u : State, exec (.dqaddArrival (.fabric xid m)) s = .next u ∧ (u.dq q).held = x.held ++ [m] ∧ (u.dq q).entries = x.entries ∧
          u.mem = s.mem) ∧
      (turn = false → s.dqRoom q = false →
        ∃ u : State, exec (.dqaddArrival (.fabric xid m)) s = .next u ∧ (u.dq q).held = x.held ∧ (u.dq q).entries = x.entries ∧
          (u.dq q).waits = [{ msg := m, teller := .remote m.src xid }] ∧ u.mem = s.mem)) ∧
    (s.dqDead q = true →
      ∃ u : State, exec (.dqaddArrival (.fabric xid m)) s = .next u ∧ (u.dq q).entries = [] ∧ (u.dq q).held = [] ∧ u.mem = s.mem)) ∧
  (∀ (s : State) (q : Fin 64), exec (.dqaddArrival (.waiting q)) s = .next (State.dqTake q ((s.dq q).waits.length) s))

/-- Rules R344, R345, R347, R348 and R364: a collective that has an entry starts where its window fits the job's pool, and waits
otherwise; a started one whose output is written, whose segments have their RECEIPTs and that exchanges no digests completes with its
status; one whose timer expires completes with TIMEOUT and its done count. A GRANT of the rank of its sender raises what may be sent to
it; one with another rank, or that moves the grant back, is logged and changes no collective, where nothing more could be sent. A DATA
segment that passes the checks is accepted; one of no collective, open or closed, is logged and changes none. Where it meets a choice of
the model: log entries 30 to 32. Rules R353 and R364: the DIGEST of a rank of an open collective is kept, and one that differs from the
digest of what was received from that rank is counted and logged; one for an unknown collective is logged and changes no collective. -/
def Obligations.CollectivesAct : Prop :=
  ((∀ (s : State) (i : Fin 16) (c : Coll), s.coll i = some c →
    (c.state = 1 → c.pages ≤ s.fld (Reg.drfPool c.key.job) Fld.drfPoolPages - s.poolUsed c.key.job →
      ∃ u : State, ∃ d, exec (.collStart i) s = .next u ∧ u.coll i = some d ∧ d.state = 2 ∧ d.start = s.now ∧ d.key = c.key) ∧
    (c.state = 1 → s.fld (Reg.drfPool c.key.job) Fld.drfPoolPages - s.poolUsed c.key.job < c.pages → exec (.collStart i) s = .next s) ∧
    (c.state = 2 → c.result = none → s.outputDone c = true → s.sendsDone i c = true → (parseColl c.rcd).dx = false →
      ∃ u : State, exec (.collComplete i) s = .next u ∧ s.itemEnds u c.item (s.collStatus c)) ∧
    (2 ≤ c.state → s.fld (Reg.drfTmo c.key.job) Fld.drfTmoColl ≠ 0 →
      ∃ u : State, exec (.collTimeout i) s = .next u ∧ s.itemEnds u c.item { status := .timeout, count := c.elems })) ∧
  (∀ (s : State) (k : CollKey) (src : W32) (r lim i : Nat) (c : Coll), s.collFind k = some (i, c) → s.coll i = some c →
    (axisIx src (parseColl c.rcd).axis = r → c.gIn.get 0 r ≤ lim →
      ∃ u : State, ∃ d, exec (.collGrantReceive k src ⟨r, lim⟩) s = .next u ∧ u.coll i = some d ∧ d.gIn.get 0 r = lim) ∧
    (axisIx src (parseColl c.rcd).axis ≠ r ∨ lim < c.gIn.get 0 r → (∀ x, s.collNext c = some x → c.gIn.get 0 x.2 ≤ x.1) →
      ∃ u : State, exec (.collGrantReceive k src ⟨r, lim⟩) s = .next u ∧ s.logsOne u 0x0414 ∧ u.drift = s.drift)) ∧
  (∀ (s : State) (d : CollData) (i : Nat) (c : Coll), s.collFind d.key = some (i, c) → d.kind = 0 →
    axisIx d.src (parseColl c.rcd).axis = d.rank → s.dataDiffers c d = none → 2 ≤ c.state → s.blockOk c d = true →
    (c.got.any fun x => x.1 == d.rank && x.2.1 == d.block) = false →
    exec (.collDataReceive d) s = .next (s.acceptData i c d)) ∧
  (∀ (s : State) (d : CollData), s.collFind d.key = none → d.kind = 0 → (s.drift.closed.find? fun c => c.key == d.key) = none →
    ∃ u : State, exec (.collDataReceive d) s = .next u ∧ s.logsOne u 0x0414 ∧ u.drift = s.drift ∧ u.mem = s.mem)) ∧
  (∀ (s : State) (k : CollKey) (src : W32) (d : W64),
    (∀ (i : Nat) (c : Coll), s.collFind k = some (i, c) → s.coll i = some c →
      let r := axisIx src (parseColl c.rcd).axis
      ∃ u : State, exec (.digestReceive k src d) s = .next u ∧ u.coll i = some { c with digests := c.digests ++ [(r, d)] } ∧ u.mem = s.mem ∧
        (c.rxPeer.get 0 r = d → u.log = s.log ∧ u.regs = s.regs) ∧
        (c.rxPeer.get 0 r ≠ d → s.logsOne u 0x0411 ∧ u.reg Reg.drfDigmis = BitVec.ofNat 32 (min 0xFFFFFFFF ((s.reg Reg.drfDigmis).toNat + 1)))) ∧
    (s.collFind k = none → ∃ u : State, exec (.digestReceive k src d) s = .next u ∧ s.logsOne u 0x0414 ∧ u.drift = s.drift ∧ u.mem = s.mem))

/-! ## Fabric links (chapter 10) -/

/-- Rules R298 to R304, R307 to R309, R315 and R335: a layer that is up, and not of a link in Ethernet mode, sends again what its partner has not
acknowledged, then link-control messages, then DATA, and otherwise an IDLE unit, one unit of 256 bytes at a time; a link in INIT sends STATUS. In Ethernet
mode the units leave in one frame. A unit whose CRC fails is dropped and asks once for a replay; one that passes it takes its acknowledgement and
its credit report, and then acts by its kind.
Where it meets a choice of the model: log entries 35 and 36. -/
def Obligations.FlowUnitsAct : Prop :=
  ∀ (s : State) (l : LayerId), let x := s.layer l; let i := (x.next + 0x10000 - x.acked) % 0x10000
    let eth := decide (l.val < 32) && s.ethPort (l / 4)
    (s.layerUp l = true → eth = false →
      (∀ h, x.held[i]? = some h → ∃ u : State, ∃ b, exec (.flowUnitSend l) s = .next u ∧ u.out = s.out ++ [.unit l b] ∧ b.length = 256 ∧
        (u.layer l).next = (x.next + 1) % 0x10000 ∧ (u.layer l).held = x.held ∧ u.mem = s.mem) ∧
      (∀ p r, x.held[i]? = none → x.lctl = p :: r → ∃ u : State, ∃ b, exec (.flowUnitSend l) s = .next u ∧ u.out = s.out ++ [.unit l b] ∧
        b.length = 256 ∧ (u.layer l).lctl = r ∧ (u.layer l).next = x.next) ∧
      (∀ g, x.held[i]? = none → x.lctl = [] → x.held.length < 1024 → (l.val ≥ 32 ∨ s.linkState l = 3) → s.pickSeg l = some g →
        exec (.flowUnitSend l) s = .next (s.sendData l g)) ∧
      (x.held[i]? = none → x.lctl = [] → (s.pickSeg l = none ∨ 1024 ≤ x.held.length ∨ (l.val < 32 ∧ s.linkState l ≠ 3)) →
        ∃ u : State, ∃ b, exec (.flowUnitSend l) s = .next u ∧ u.out = s.out ++ [.unit l b] ∧ b.length = 256 ∧
          (u.layer l).next = x.next ∧ (u.layer l).held = x.held)) ∧
    (eth = true → (s.layerUp l = true ∧ (x.held[i]?.isSome = true ∨ x.lctl ≠ [])) ∨ s.linkState l = 2 →
      ∃ u : State, ∃ f, exec (.flowUnitSend l) s = .next u ∧ u.out = s.out ++ [.frame l f]) ∧
    (l.val < 32 → s.linkState l = 2 → eth = false → ∃ u : State, ∃ b, exec (.flowUnitSend l) s = .next u ∧ u.out = s.out ++ [.unit l b] ∧
      b.length = 256 ∧ (u.layer l).lctl = x.lctl.tail) ∧
    (s.layerUp l = true → eth = false → ∀ b,
      (b.length ≠ 256 ∨ crc64 (leBytes 2 x.e ++ b.take 248) ≠ field b 248 8 →
        (x.nakOut = true → exec (.flowUnitReceive l b) s = .next s) ∧
        (x.nakOut = false → ∃ u : State, exec (.flowUnitReceive l b) s = .next u ∧ (u.layer l).nakDue = some 0 ∧ (u.layer l).nakOut = true ∧
          (u.layer l).e = x.e ∧ u.mem = s.mem)) ∧
      (let w := leNat (b.take 8); let t := (s.takeAck l w).takeCredit l w; let raw := (b.drop 8).take 240
       b.length = 256 → crc64 (leBytes 2 x.e ++ b.take 248) = field b 248 8 → bits w 37 5 ≤ 16 → bits w 58 6 = 0 →
        (bit w 5 = true → bits w 2 3 + bits w 6 1 = 0) →
        (bits w 0 2 = 1 → bits w 9 8 = 0 → exec (.flowUnitReceive l b) s = .next (t.atE l)) ∧
        (bits w 0 2 = 2 → 1 ≤ bits w 9 8 → bits w 9 8 ≤ 240 → exec (.flowUnitReceive l b) s = .next ((t.atE l).lctlUnit l raw)) ∧
        (bits w 0 2 = 0 → t.layerUp l = true → exec (.flowUnitReceive l b) s = .next (t.dataUnit l w raw))))

/-- Rules R305 and R313: a replay timeout sends again from the oldest unit that is not acknowledged, and after MAXREPLAY replays without
an advance retrains a link and puts a Pliand port in GRACE; with nothing unacknowledged nothing happens. A single-unit segment of a type
with that right and without credit falls back to the bypass channel. Rules R21, R312, R320 and R330: a transfer whose bytes have all
arrived is placed, with stamps after the time of its sending. A RECEIPT ends its own transfer, and one that names none is counted and
discarded; one with a later time than the own is counted, and leaves the own time as it is. A CANCEL of a transfer placed DONE is
answered as its placement was, one of a transfer in reception abandons it and is answered LINK_LOST, and one that names none is counted
and discarded. Where it meets a choice of the model: log entries 21, 37 and 39. -/
def Obligations.TransfersEnd : Prop :=
  (∀ (s : State) (l : LayerId), let x := s.layer l
    let m := if l.val < 32 then max 1 (s.fld (Reg.lnkTmr l) Fld.lnkTmrMaxreplay) else 8
    s.layerUp l = true →
    (x.held = [] → exec (.replayTimeout l) s = .next s) ∧
    (x.held ≠ [] → x.replays < m → ∃ u : State, exec (.replayTimeout l) s = .next u ∧ (u.layer l).next = x.acked ∧
      (u.layer l).replays = x.replays + 1 ∧ (u.layer l).held = x.held) ∧
    (x.held ≠ [] → m ≤ x.replays → l.val < 32 → ∃ u : State, exec (.replayTimeout l) s = .next u ∧ u.linkState l = 5 ∧ s.logsOne u 0x0404) ∧
    (x.held ≠ [] → m ≤ x.replays → 32 ≤ l.val → ∃ u : State, exec (.replayTimeout l) s = .next u ∧
      u.fld (Reg.plhStatus (l - 32)) Fld.plhStatusState = 3) ∧
    (x.txq ≠ [] → ∃ u : State, exec (.bypassFallback l) s = .next u ∧ (u.layer l).txq.length = x.txq.length ∧ u.mem = s.mem ∧ u.regs = s.regs ∧
      ∀ g ∈ x.txq, (g.typ = 2 ∨ g.typ = 6 ∨ g.typ = 10) → g.units.length = 1 → g.closed = true → g.pos = 0 → x.credit g.ctr = false →
        { g with vc := 8, half := 0 } ∈ (u.layer l).txq)) ∧
  ((∀ (s : State) (src xid : W32) (t : RxXfer) (b : Bytes), (s.fab.rx.find? fun t => t.src == src && t.xid == xid) = some t →
    t.whole = some b → exec (.segmentPlace src xid) s = .next (s.stamped t.time fun s => s.place t b)) ∧
  (∀ (s : State) (l : LinkId) (t : W64) (xid : W32) (st : Fin 11) (d : BitVec 16) (n : Nat),
    let c : Completion := { status := statusOf st, detail := d.toNat, count := n }
    (¬(s.now < t + 1) →
      (s.xfer xid = none → exec (.receiptReceive l t xid ⟨st, d, n⟩) s = .next (s.lnkProto l)) ∧
      (∀ x, s.xfer xid = some x → x.cancelled = none → x.admitted = false →
        exec (.receiptReceive l t xid ⟨st, d, n⟩) s = .next (s.endXfer xid c))) ∧
    (s.now < t + 1 → s.xfer xid = none → ∃ u : State, exec (.receiptReceive l t xid ⟨st, d, n⟩) s = .next u ∧ u.now = s.now ∧ u.mem = s.mem ∧
      u.reg (Reg.lnkClamp l) = BitVec.ofNat 32 (min 0xFFFFFFFF ((s.reg (Reg.lnkClamp l)).toNat + 1)))) ∧
  (∀ (s : State) (l : LinkId) (src xid : W32),
    (∀ p, (s.fab.placed.find? fun p => p.1 == src && p.2.1 == xid) = some p → p.2.2.status = .done →
      exec (.cancelReceive l ⟨src, xid⟩) s = .next (s.sendReceipt src xid p.2.2)) ∧
    ((s.fab.placed.find? fun p => p.1 == src && p.2.1 == xid) = none →
      (∀ t, (s.fab.rx.find? fun t => t.src == src && t.xid == xid) = some t → t.typ ≠ 9 →
        exec (.cancelReceive l ⟨src, xid⟩) s = .next ((s.dropWaits src xid).sendReceipt src xid { status := .linkLost })) ∧
      ((s.fab.rx.find? fun t => t.src == src && t.xid == xid) = none → exec (.cancelReceive l ⟨src, xid⟩) s = .next (s.lnkProto l)))))

/-- Rules R306 and R314 to R322: how a link changes its state: training gives INIT with a new session, or UP again after a retrain in the same
session; a right STATUS gives UP, a wrong one MISWIRED, and one on a link with more units allocated than its buffers hold leaves it in INIT; RETRAIN
drains and retrains; a lost lane, GRACE and its end; DOWN and a link reset.
Where it meets a choice of the model: log entries 36 and 40. -/
def Obligations.LinkStatesChange : Prop :=
  ∀ (s : State) (l : LinkId), let st := s.linkState l; let x := s.layer l
    (∀ lanes speed session, lanes ≠ 0 → (st = 1 ∨ st = 7 ∨ st = 8) → ∃ u : State, exec (.linkTrained l lanes speed session) s = .next u ∧
      u.linkState l = 2 ∧ (u.layer l).session = s.newSession l session ∧
      u.fld (Reg.lnkStatus l) Fld.lnkStatusSession = (s.newSession l session).toNat ∧ (u.layer l).next = 0 ∧ (u.layer l).lctl.length = 1) ∧
    (∀ lanes speed session, lanes ≠ 0 → (st = 5 ∨ st = 6) →
      (session.toNat = s.fld (Reg.lnkStatus l) Fld.lnkStatusSession → ∃ u : State, exec (.linkTrained l lanes speed session) s = .next u ∧
        u.linkState l = 3 ∧ (u.layer l).next = x.acked ∧ (u.layer l).held = x.held) ∧
      (session.toNat ≠ s.fld (Reg.lnkStatus l) Fld.lnkStatusSession → exec (.linkTrained l lanes speed session) s = .next s)) ∧
    (∀ m, st = 2 →
      (1024 < s.allocSum l → ∃ u : State, exec (.statusReceive l m) s = .next u ∧ u.linkState l = 2 ∧ s.logsOne u 0x0005) ∧
      (s.allocSum l ≤ 1024 → (s.ethPort (l / 4) = true → s.fld (Reg.lnkEthUdp l) Fld.lnkEthUdpSport ≠ 0 ∧
          s.fld (Reg.lnkEthUdp l) Fld.lnkEthUdpDport ≠ 0) →
        (s.wiredRight l m = true → ∃ u : State, exec (.statusReceive l m) s = .next u ∧ u.linkState l = 3 ∧ u.reg (Reg.lnkPeer l) = m.addr) ∧
        (s.wiredRight l m = false → ∃ u : State, exec (.statusReceive l m) s = .next u ∧ u.linkState l = 8 ∧ u.reg (Reg.lnkPeer l) = m.addr))) ∧
    (st = 3 → (∃ u : State, exec (.statusPeriodic l) s = .next u ∧ (u.layer l).lctl = x.lctl ++ [s.statusBytes l] ∧ u.regs = s.regs) ∧
      (∃ u : State, exec (.lnkRetrain l) s = .next u ∧ u.linkState l = 4 ∧ s.logsOne u 0x0404) ∧
      (∃ u : State, exec (.laneLockLost l) s = .next u ∧ u.linkState l = 5 ∧ s.logsOne u 0x0404 ∧ u.layers = s.layers)) ∧
    (∀ late, st = 4 → x.held = [] ∨ late = true → ∃ u : State, ∃ m, exec (.drainEnd l late) s = .next u ∧ u.linkState l = 5 ∧
      u.out = s.out ++ [m] ∧ (s.ethPort (l / 4) = false → ∃ b, m = .unit l b) ∧ (s.ethPort (l / 4) = true → ∃ f, m = .frame l f)) ∧
    (∀ w v, st = 3 ∨ st = 4 → ∃ u : State, exec (.lctlRetrainReceive l w v) s = .next u ∧ u.linkState l = 5 ∧ (u.layer l).capWidth = w.val ∧
      (u.layer l).capSpeed = v.val) ∧
    (st = 5 → ∃ u : State, exec (.retrainTimeout l) s = .next u ∧ u.linkState l = 6 ∧ s.logsOne u 0x0404) ∧
    (st = 6 → ∃ u : State, exec (.graceExpired l) s = .next u ∧ u.linkState l = 7) ∧
    (2 ≤ st → ∃ u : State, exec (.downReceive l) s = .next u ∧ u.linkState l = (if s.afld (Reg.lnkCtrl l) Fld.lnkCtrlEn = 0 then 0 else 1)) ∧
    (∃ u : State, exec (.linkReset l) s = .next u ∧ (∀ r ∈ linkRegs l, u.reg r = BitVec.ofNat 32 (resetAt r)) ∧
      ∃ e, u.log.raised.getLast? = some e ∧ e.code = 0x0702 ∧ e.arg0 = 5 ∧ e.arg1 = l.val)

/-- Rules R331 and R332: a child asks its parent for the time, a device answers, and each message takes the time of its sending as its
unit leaves, where the link is in UP or DRAIN; of an answer in synchrony, with the child's own time at its arrival, an offset past a
microsecond ahead sets the time at once, a smaller one slews it, and one past a microsecond behind holds it. Rules R334 to R336: on a
port in Ethernet mode a frame that fails the filter is counted and dropped, and one for a PTP port, or whose datagram's header is not as
R335 has it, has no other effect; a datagram out of sequence asks for a replay, and one in sequence has its units act in order; a link
with no DATA to send and something outstanding acknowledges in one frame. With PTP on, a Sync or Delay_Req of the own domain is stamped
and handed on, a Sync sent is followed by a Follow_Up and a Delay_Req at a master port by a Delay_Resp, and any other message is not
handled. Where it meets a choice of the model: log entry 118. Where it meets a choice of the model: log entries 36, 41 and 42. -/
def Obligations.TimeAndEthernetAct : Prop :=
  ((∀ (s : State) (l : Nat), s.timeLink = some l → s.timeChild = true → ∃ u : State, exec .timeReqSend s = .next u ∧
    (u.layer l).lctl = (s.layer l).lctl ++ [2 :: leBytes 9 0] ∧ u.regs = s.regs) ∧
  (∀ (s : State) (l : LinkId) (t1 : Nat), s.linkState l = 3 ∨ s.linkState l = 4 → ∃ u : State, ∃ p, exec (.timeReqReceive l t1) s = .next u ∧
    (u.layer l).lctl = (s.layer l).lctl ++ [3 :: leBytes 9 t1 ++ leBytes 9 (s.now.toNat * 256) ++ p] ∧ u.regs = s.regs) ∧
  (∀ (s : State) (l : LinkId) (r : List Bytes), let x := s.layer l
    s.linkState l = 3 ∨ s.linkState l = 4 → s.ethPort (l / 4) = false → x.held[(x.next + 0x10000 - x.acked) % 0x10000]? = none → x.lctl = (2 :: leBytes 9 0) :: r →
    ∃ u : State, ∃ b, exec (.flowUnitSend ⟨l.val, by omega⟩) s = .next u ∧ u.out = s.out ++ [.unit l b] ∧ field b 9 9 = s.now.toNat * 256) ∧
  (∀ (s : State) (l : LinkId) (t1 t2 t3 t4 depth : Nat), s.timeChild = true → s.timeLink = some l.val →
    let th := timeOffset t1 t2 t3 (s.arrivalTime t4)
    ∃ u : State, exec (.timeRspReceive l t1 t2 t3 t4 depth true) s = .next u ∧
      u.fld Reg.lnkTimeStatus Fld.lnkTimeStatusDepth = min 127 (depth + 1) ∧
      (256000 < th → u.now = s.now + BitVec.ofNat 64 (th / 256).toNat) ∧
      (-256000 ≤ th → th ≤ 256000 → u.now = s.now ∧ u.fab.slew = th / 256) ∧
      (th < -256000 → u.now = s.now ∧ u.fab.hold = (-(th / 256)).toNat - 1000))) ∧
  (∀ (s : State) (l : LinkId), s.ethPort (l / 4) = true →
    (∀ f, 2 ≤ s.linkState l → s.linkState l ≤ 4 →
      let peer := if s.linkState l = 2 then none else some (s.fld (Reg.lnkPeerid l) Fld.lnkPeeridSession)
      (s.frameTake l f = none → exec (.ethFrameReceive l f) s = .next (s.bump (Reg.lnkEthDrop l))) ∧
      (∀ pay, s.frameTake l f = some (true, pay) → exec (.ethFrameReceive l f) s = .next s) ∧
      (∀ pay, s.frameTake l f = some (false, pay) →
        (datagramTake peer pay = none → exec (.ethFrameReceive l f) s = .next s) ∧
        (∀ q us, datagramTake peer pay = some (q, us) →
          (q = (s.layer l).e → exec (.ethFrameReceive l f) s = .next (s.datagramUnits l q us)) ∧
          (q ≠ (s.layer l).e → exec (.ethFrameReceive l f) s = .next (s.nak l 2))))) ∧
    (s.layerUp l = true → (s.layer l).again = none → s.nextSeg l = none →
      ((s.layer l).owes = true → ∃ u : State, ∃ f, exec (.ethAckIdle l) s = .next u ∧ u.out = s.out ++ [.frame l f] ∧
        (u.layer l).next = (s.layer l).next) ∧
      ((s.layer l).owes = false → exec (.ethAckIdle l) s = .next s)) ∧
    (∀ sent msg, s.fld Reg.lnkPtpCfg Fld.lnkPtpCfgEn = 1 →
      (s.ptpMine msg = true → ∃ u : State, exec (.ptpEventMessage l sent msg) s = .next u ∧
        u.out = s.out ++ .ptp l sent s.now msg ::
          (if sent = true ∧ field msg 0 1 % 16 = 0 then [.ptpReply l 8 s.now msg]
            else if sent = false ∧ field msg 0 1 % 16 = 1 ∧ Config.ptpState s.free l = 0 then [.ptpReply l 9 s.now msg] else []) ∧
        u.reg (if sent then Reg.lnkPtpTx l 0 else Reg.lnkPtpRx l 0) = s.now.setWidth 32 ∧
        u.reg (if sent then Reg.lnkPtpTx l 1 else Reg.lnkPtpRx l 1) = (s.now >>> 32).setWidth 32) ∧
      (s.ptpMine msg = false → exec (.ptpEventMessage l sent msg) s = .next s)))

/-! ## Twiac, resets and isolation (chapters 12 and 15) -/

/-- Rules R371, R372, R374, R376 and R455: over an active Twiac link a packet for a die in PS3 wakes it. Where none is woken, a good
READ of memory is answered with the bytes, or with RESP_ERR where they cannot be read, a good WRITE stores its bytes, and a masked one
those that its mask picks; a packet that addresses no memory is answered with RESP_ERR or has no effect. A bad packet is counted, logged
and, if a READ, answered with RESP_ERR. A flit that fails its check is sent again, the first 8 times. Rules R377, R378, R382 and R387: a
capability block whose CHECK fails is requested again; a good one makes the link ACTIVE, or REJOINING after an isolation; the loss of
its clock isolates the base die of an M-link. With no bad block, nothing is requested again. Where it meets a choice of the model: log
entries 51 to 55. -/
def Obligations.TwiacAct : Prop :=
  (∀ (s : State) (n : TwiId), s.twiState n = 3 →
    (∀ hdr data, hdr.length = 16 →
      let v := leNat hdr
      let a := bits v 64 48
      let k := bits v 112 12 + 1
      let masked := maskedData 64 k data
      (∀ d : DieId, field hdr 4 2 / 4096 = d → s.inPs3 d = true → s.power.entering.contains d.val = false →
        ∃ u : State, exec (.twiacPacketReceive n hdr data) s = .next u ∧ u.inPs3 d = false) ∧
      (s.wakeByPacket n (field hdr 4 2) = s →
      (s.packetBad n hdr = true → ∃ u : State, exec (.twiacPacketReceive n hdr data) s = .next u ∧ s.logsOne u 0x0500 ∧ u.mem = s.mem ∧
        u.reg (Reg.twiLproto n) = BitVec.ofNat 32 (min 0xFFFFFFFF ((s.reg (Reg.twiLproto n)).toNat + 1)) ∧
        (bits v 0 4 = 0 → u.out = s.out ++ [.twiac n (replyHdr hdr 4) []]) ∧ (bits v 0 4 ≠ 0 → u.out = s.out)) ∧
      (s.packetBad n hdr = false → s.packetMem a k = true →
        (bits v 0 4 = 0 → ∃ u : State, exec (.twiacPacketReceive n hdr data) s = .next u ∧ u.mem = s.mem ∧
          (s.badByte a k = none → u.out = s.out ++ [.twiac n (replyHdr hdr 3) (s.bytes a k)]) ∧
          (s.badByte a k ≠ none → u.out = s.out ++ [.twiac n (replyHdr hdr 4) []])) ∧
        (bits v 0 4 = 1 → ∃ u : State, exec (.twiacPacketReceive n hdr data) s = .next u ∧ u.mem = (s.store a (data.take k)).mem ∧ u.out = s.out) ∧
        (bits v 0 4 = 2 → ∃ u : State, exec (.twiacPacketReceive n hdr data) s = .next u ∧ u.out = s.out ∧
          u.mem = (s.storeSome a masked.1 fun x => decide (a ≤ x) && masked.2.getD (x - a) false).mem)) ∧
      (s.packetBad n hdr = false → s.packetMem a k = false → bits v 0 4 ≤ 2 →
        ∃ u : State, exec (.twiacPacketReceive n hdr data) s = .next u ∧ u.mem = s.mem ∧
          u.out = (if bits v 0 4 = 0 then s.out ++ [.twiac n (replyHdr hdr 4) []] else s.out)))) ∧
    (∀ k : Fin 16, bit (s.fld (Reg.twiLstatus n) Fld.twiLstatusGood) k = true → (s.twiLink n).fails.get 0 k < 8 →
      ∃ u : State, exec (.flitRetry n k) s = .next u ∧ (u.twiLink n).fails.get 0 k = (s.twiLink n).fails.get 0 k + 1 ∧ u.mem = s.mem ∧ u.log = s.log)) ∧
  (∀ (s : State) (n : TwiId),
    (∀ b, s.twiState n < 3 ∨ s.twiState n = 4 → b.length = 64 → (∀ d, twiPartner n = .inr d → s.power.railDown.contains d = false) →
      ((crc32c (b.take 60)).toNat ≠ field b 60 4 → ∃ u : State, exec (.capabilityBlockReceive n b) s = .next u ∧ u.twiState n = 2 ∧
        (u.twiLink n).badBlock = true) ∧
      ((crc32c (b.take 60)).toNat = field b 60 4 → field b 4 1 = 2 → (field (ownBlock n) 8 2 &&& field b 8 2) &&& 15 = 15 →
        ∃ u : State, exec (.capabilityBlockReceive n b) s = .next u ∧ u.twiState n = (if (s.twiLink n).cut then 5 else 3) ∧
          (u.twiLink n).partner = b)) ∧
    ((s.twiLink n).badBlock = true → exec (.capabilityRerequest n) s = .next (s.send (.capRequest n))) ∧
    ((s.twiLink n).badBlock = false → exec (.capabilityRerequest n) s = .next s) ∧
    (n.val < 8 → (s.twiLink n).cut = false → ∃ u : State, exec (.twiacClockLoss n) s = .next u ∧ u.stackCut n = true ∧ u.twiState n = 4))

/-- Rules R379 and R381: a reading is kept, and one of a stack at its limit is logged; step 2, entered more than 10 µs before, is left
for step 1 once its readings have stayed below HEAVY less HYST and below a stack's limit, and is held at that limit. Rules R462 to R469,
R502 and R503: a rail settles within 10 mV of its target, or logs that it does not; REFCLK becomes stable, and while it is, PLLs lock, a
core PLL while its die is in neither PS3 nor without its rail; each loss of a clock or of its lock is shown, and a die that is not in
PS3 and has neither its PLL nor its oscillator is isolated; a die at its junction limit is forced to point 0 until its sensors are 10 °C
below their limits; a thermal trip at MARGIN above a limit, or at it for DWELL, puts the package in PS4 with its alert; while the
package runs, a core rail without power-good or more than 60 mV below its target (the lower one in a change), or VFIRN, isolates its
dies, and VSERDES loses the SerDes locks; a rail sequence whose power-good is missing turns the rails off and is tried once more, then
holds them off, as a fault of an HBM rail does. Where it meets a choice of the model: log entries 149 and 150. Where it meets a choice
of the model: log entries 59 and 82. -/
def Obligations.RailsAct : Prop :=
  (∀ (s : State) (n : Fin 12),
    (∀ t, ∃ u : State, exec (.thermalReport n t) s = .next u ∧ u.fld (Reg.twiTemp n) Fld.twiTempDegc = t.toNat ∧ u.mem = s.mem ∧
      (4 ≤ n.val → 95 ≤ degrees t → s.logsOne u 0x0502)) ∧
    (s.fld (Reg.twiTemp n) Fld.twiTempStep = 2 →
      (s.power.stepAt.get 0 n = 0 ∨ s.power.stepAt.get 0 n + 10000 ≤ s.now.toNat + 1) →
      let t := degrees (BitVec.ofNat 8 (s.fld (Reg.twiTemp n) Fld.twiTempDegc))
      t < (s.fld (Reg.twiThr n) Fld.twiThrHeavy : Int) - s.fld (Reg.twiThr n) Fld.twiThrHyst →
      ((4 ≤ n.val → t < 95) → ∃ u : State, exec (.throttleStepDown n) s = .next u ∧ u.fld (Reg.twiTemp n) Fld.twiTempStep = 1 ∧ u.mem = s.mem ∧
        u.log = s.log) ∧
      (4 ≤ n.val → 95 ≤ t → exec (.throttleStepDown n) s = .next s))) ∧
  (∀ (s : State),
    (∀ (d : DieId) (mv : BitVec 10), mv.toNat ≤ s.targetMv d + 10 → s.targetMv d ≤ mv.toNat + 10 → ∃ u : State, exec (.railSettled d mv) s = .next u ∧
      u.fld (Reg.pwrVset d) Fld.pwrVsetMv = mv.toNat ∧ u.fld (Reg.pwrVset d) Fld.pwrVsetSettled = 1) ∧
    (∀ d : DieId, s.fld (Reg.pwrVset d) Fld.pwrVsetSettled = 0 → ∃ u : State, exec (.railSettleTimeout d) s = .next u ∧ s.logsOne u 0x0005 ∧ u.regs = s.regs) ∧
    (∃ u : State, exec (.pllLocked .ref) s = .next u ∧ u.fld Reg.clkStatus Fld.clkStatusRefok = 1) ∧
    (s.fld Reg.clkStatus Fld.clkStatusRefok = 0 → ∀ p, p ≠ .ref → exec (.pllLocked p) s = .next s) ∧
    (s.fld Reg.clkStatus Fld.clkStatusRefok = 1 →
      (∃ u : State, exec (.pllLocked .hub) s = .next u ∧ u.fld Reg.clkStatus Fld.clkStatusHublock = 1) ∧
      (∀ d : DieId, s.inPs3 d = false → s.power.railDown.contains d.val = false →
        ∃ u : State, exec (.pllLocked (.core d)) s = .next u ∧ bit (u.fld Reg.clkStatus Fld.clkStatusCorelock) d = true) ∧
      (∀ q, ∃ u : State, exec (.pllLocked (.serdes q)) s = .next u ∧ bit (u.fld Reg.clkStatus Fld.clkStatusSerdeslock) q = true) ∧
      (∀ st, ∃ u : State, exec (.pllLocked (.base st)) s = .next u ∧ bit (u.fld Reg.clkStatus Fld.clkStatusBaselock) st = true)) ∧
    (∀ b, (s.power.oscOff = [] → ∃ u : State, exec (.clockLoss .refclk b) s = .next u ∧ u.reg Reg.clkStatus = 0) ∧
      (∀ d, s.power.oscOff.contains d.val = false →
        ∃ u : State, exec (.clockLoss (.corePll d) b) s = .next u ∧ s.logsOne u 0x0703 ∧ bit (u.fld Reg.clkStatus Fld.clkStatusCorelock) d = false) ∧
      (s.power.oscOff.contains 4 = false →
        ∃ u : State, exec (.clockLoss .hubPll b) s = .next u ∧ s.logsOne u 0x0703 ∧ u.fld Reg.clkStatus Fld.clkStatusHublock = 0) ∧
      (∀ q, ∃ u : State, exec (.clockLoss (.serdesPll q) b) s = .next u ∧ bit (u.fld Reg.clkStatus Fld.clkStatusSerdeslock) q = false) ∧
      (∀ st, ∃ u : State, exec (.clockLoss (.basePll st) b) s = .next u ∧ s.logsOne u 0x0703 ∧
        bit (u.fld Reg.clkStatus Fld.clkStatusBaselock) st = false) ∧
      (∀ d : DieId, bit (s.fld Reg.clkStatus Fld.clkStatusCorelock) d = true → ∃ u : State,
        exec (.clockLoss (.oscillator ⟨d, by omega⟩) b) s = .next u ∧ s.logsOne u 0x0703 ∧ u.power.oscOff.contains d.val = true ∧ u.layers = s.layers) ∧
      (∀ d : DieId, s.inPs3 d = false →
        (∃ u : State, exec (.clockLoss (.dieDead d) b) s = .next u ∧ u.dieCut d = true) ∧
        (s.power.oscOff.contains d.val = true → ∃ u : State, exec (.clockLoss (.corePll d) b) s = .next u ∧ u.dieCut d = true))) ∧
    (∀ (d : DieId) (t : BitVec 8), 105 ≤ degrees t → ∃ u : State, ∃ e, exec (.thermalForce d true t) s = .next u ∧
      u.fld (Reg.pwrVset d) Fld.pwrVsetForced = 1 ∧ u.log.raised.getLast? = some e ∧ e.code = 0x0502) ∧
    (∀ d : DieId, let cool := ∀ n ∈ [d.val, 12 + d.val], s.reading n ≤ sensorLimit n - 10
      (cool → ∃ u : State, exec (.forcedClear d) s = .next u ∧ u.fld (Reg.pwrVset d) Fld.pwrVsetForced = 0 ∧ u.mem = s.mem) ∧
      (¬cool → exec (.forcedClear d) s = .next s)) ∧
    (∀ (n : Fin 17) (t : BitVec 8) (dwelt : Bool),
      (sensorLimit n + s.fld Reg.pwrTrip Fld.pwrTripMargin ≤ degrees t ∨ (dwelt = true ∧ sensorLimit n ≤ degrees t)) →
      ∃ u : State, exec (.thermalTrip n t dwelt) s = .next u ∧ u.power.standby = true ∧ u.power.alert = true ∧ u.fld Reg.pwrBoot Fld.pwrBootTrip = 1) ∧
    (∀ d : DieId,
      (s.running = true → ∀ mv : Option (BitVec 10), (∀ m, mv = some m → m.toNat + 60 < s.lowTarget d) →
        ∃ u : State, exec (.vcoreFault ⟨d, mv⟩) s = .next u ∧ u.dieCut d = true ∧ u.power.railDown.contains d.val = true) ∧
      (∀ m : BitVec 10, s.lowTarget d ≤ m.toNat + 60 → exec (.vcoreFault ⟨d, some m⟩) s = .next (s.setFld (Reg.pwrVset d) Fld.pwrVsetMv m.toNat)) ∧
      (∃ u : State, exec (.vcoreRestored d) s = .next u ∧ u.power.railDown.contains d.val = false ∧ u.mem = s.mem ∧ u.regs = s.regs)) ∧
    (s.running = true → (∃ u : State, exec .vfirnPgLoss s = .next u ∧ ∀ d < 4, u.dieCut d = true) ∧
      ∃ u : State, exec .vserdesPgLoss s = .next u ∧ ∀ q < 12, bit (u.fld Reg.clkStatus Fld.clkStatusSerdeslock) q = false) ∧
    (s.running = false → exec .vfirnPgLoss s = .next s ∧ exec .vserdesPgLoss s = .next s ∧ ∀ d, exec (.vcoreFault ⟨d, none⟩) s = .next s) ∧
    (∀ r : Fin 11, (∀ p, s.power.start = some p → p.rail = r.val →
        (s.power.railTries = 0 → let t := s.railsOut (s.railsBack 0)
          exec (.railPgTimeout r) s = .next ((t.setPower { t.power with railTries := 1, start := none }).bootRails p.kind p.cold p.env)) ∧
        (s.power.railTries ≠ 0 → ∃ u : State, exec (.railPgTimeout r) s = .next u ∧ u.power.railsOff = true ∧ u.power.alert = true ∧
          u.power.rails = [])) ∧
      ((∀ p, s.power.start = some p → p.rail ≠ r.val) → exec (.railPgTimeout r) s = .next s)) ∧
    (∀ r, (s.power.railsOff = false → ∃ u : State, exec (.hbmRailFault r) s = .next u ∧ u.power.railsOff = true ∧ u.power.alert = true ∧
        u.power.rails = [] ∧ u.threads = []) ∧
      (s.power.railsOff = true → exec (.hbmRailFault r) s = .next s)))

/-- Rules R382 to R386, R470 and R471: a single-die reset isolates its die, with its memory cleared where it is a Cirque die, and a cluster reset returns the cluster's registers to their reset values and, where its vector engine holds items of its own threads alone, its threads to idle;
each logs its reset event last.
Where it meets a choice of the model: log entries 49 and 50. -/
def Obligations.DieAndClusterResets : Prop :=
  ∀ (s : State),
    let last := fun (u : State) (kind target : Nat) => ∃ e, u.log.raised.getLast? = some e ∧ e.code = 0x0702 ∧ e.arg0 = kind ∧ e.arg1 = target
    (∀ d : DieId, s.dieCut d = false → ∃ u : State, exec (.singleDieReset (.cirque d)) s = .next u ∧ u.dieCut d = true ∧ last u 3 d ∧
      ∀ c ∈ u.mem.cells, ¬(firnAddr (128 * d) 0 ≤ c.1 ∧ c.1 < firnAddr (128 * d) 0 + 128 * sliceSize)) ∧
    (∀ st : StackId, s.stackCut st = false → ∃ u : State, exec (.singleDieReset (.base st)) s = .next u ∧ u.stackCut st = true ∧ last u 3 (0x10 + st)) ∧
    (∀ g : ClusterId, ∃ u : State, exec (.clusterReset g) s = .next u ∧ last u 4 g ∧
      ((∀ i ∈ s.items.live, i.unit = 0x0101 → i.index = g.val → ∃ k n, i.owner = .thread k n ∧ k / 4 = g.val) → ∀ t < 4, u.thread (4 * g + t) = {}) ∧
      ∀ o, 0x400000 + g * 0x2000 ≤ o → o < 0x400000 + (g + 1) * 0x2000 → u.reg o = BitVec.ofNat 32 (resetAt o))

/-! ## Power and clocks (chapter 15, chapter 17) -/

/-- Rules R450 to R453, R458 and R459: an idle cluster of a partition begins to enter PS1, and PS2 from PS0 or PS1 where no pass stream
is left to run, each where it is enabled; one outside every partition, in PS0 and not held, begins to enter the state that UNASG names;
a hold in PS1 or PS2 begins to enter its state where the cluster is idle, or holds it there where it is in it, and is refused with an
event where the cluster is not idle. An entry that ends where its condition still holds leaves the cluster in its state. A wake aborts
an entry, with an event only for a held state, and returns a cluster of a partition that is not held to PS0. Where it meets a choice of
the model: log entry 147. Rules R428, R429 and R454 to R457: asked by an opener that may write its register and whose lock is open,
which the write closes, a die that is not in PS3 begins to enter it where nothing refuses, and is refused with an event otherwise; the
entry completes, or a wake aborts it with an event; a die that wakes leaves PS3, with its clusters in PS2. So asked, the package enters
PS4 with its HBM rails and VMOR alone (R501) where nothing refuses, turning the others off in their order, and is refused with an event
otherwise. With the lock closed neither does anything but log the denied key. A wake of an enabled source that nothing holds starts the
package with kind 7. Where it meets a choice of the model: log entry 148. Where it meets a choice of the model: log entries 56 to 58 and
68. -/
def Obligations.PowerStatesAct : Prop :=
  (∀ (s : State) (g : ClusterId),
    let is := fun (u : State) (n held : Nat) => u.fld (Reg.cirPmStatus g) Fld.cirPmStatusState = n ∧
      u.fld (Reg.cirPmStatus g) Fld.cirPmStatusHeld = held ∧ u.mem = s.mem
    (s.pmEntry g = none →
      (s.fld Reg.pwrCfg Fld.pwrCfgP1en = 1 → (s.partOf g).isSome = true → s.clusterIdle g = true → s.pmState g = 0 →
        exec (.clusterIdlePs1 g) s = .next (s.beginPm g 1 false)) ∧
      (s.pmState g < 2 → s.pmHeld g = false → s.mayPs2 g = true → exec (.clusterIdlePs2 g) s = .next (s.beginPm g 2 false)) ∧
      (s.partOf g = none → s.pmState g = 0 → s.pmHeld g = false →
        exec (.unassignedClusterSleep g) s = .next (s.beginPm g (if s.fld Reg.pwrCfg Fld.pwrCfgUnasg = 1 then 1 else 2) false)) ∧
      ((s.pmState g = 1 ∨ s.pmState g = 2) → s.pmHeld g = false → (s.partOf g).isSome = true →
        ∃ u : State, exec (.clusterWake g) s = .next u ∧ is u 0 0)) ∧
    (∀ n held, (n = 1 ∨ n = 2) → (if held = true ∨ n = 1 then s.clusterIdle g else s.mayPs2 g) = true ∨ (held = false ∧ s.partOf g = none) →
      is (s.settlePm g n held) n (b2n held) ∧ (s.settlePm g n held).pmEntry g = none) ∧
    (∀ n held, s.pmEntry g = some (n, held) → (s.partOf g).isSome = true → ∃ u : State, exec (.clusterWake g) s = .next u ∧ u.pmEntry g = none ∧
      u.pmState g = s.pmState g ∧ u.mem = s.mem ∧ (held = false → u.log = s.log) ∧
      (held = true → s.logsOne u 0x0700 ∧ u.fld (Reg.cirPmCtrl g) Fld.cirPmCtrlReq = 0)) ∧
    (∀ req : Fin 4, (req = 1 ∨ req = 2) → s.regHere (Reg.cirPmCtrl g) →
      (s.clusterIdle g = true → s.pmState g = req → ∃ u : State, exec (.cirPmHold g req) s = .next u ∧ is u req 1) ∧
      (s.clusterIdle g = true → s.pmState g ≠ req →
        exec (.cirPmHold g req) s = .next ((s.setFld (Reg.cirPmCtrl g) Fld.cirPmCtrlReq req).beginPm g req true)) ∧
      (s.clusterIdle g = false → ∃ u : State, exec (.cirPmHold g req) s = .next u ∧ s.logsOne u 0x0700 ∧
        u.fld (Reg.cirPmCtrl g) Fld.cirPmCtrlReq = 0))) ∧
  ((∀ (s : State) (d : DieId),
    (∀ o : Opener, s.mayAccess (openerNat o) (Reg.pwrDie d) true = true → s.inPs3 d = false → s.power.entering.contains d.val = false →
      (s.lockOpen (openerNat o) = true → s.epochRefuser = none → s.dieRefuser d = none → ∃ u : State, exec (.ps3Request ⟨d, o⟩) s = .next u ∧
        u.fld (Reg.pwrDie d) Fld.pwrDieReq = 1 ∧ u.power.entering = s.power.entering ++ [d.val] ∧ u.lockOpen (openerNat o) = false) ∧
      (s.lockOpen (openerNat o) = true → s.epochRefuser ≠ none ∨ s.dieRefuser d ≠ none → ∃ u : State, exec (.ps3Request ⟨d, o⟩) s = .next u ∧
        s.logsOne u 0x0700 ∧ u.fld (Reg.pwrDie d) Fld.pwrDieReq = 0 ∧ u.power = s.power ∧ u.lockOpen (openerNat o) = false) ∧
      (s.lockOpen (openerNat o) = false → bit (s.reg (Reg.pwrDie d)).toNat 0 = false → ∃ u : State, exec (.ps3Request ⟨d, o⟩) s = .next u ∧
        s.logsOne u 0x0006 ∧ u.power = s.power)) ∧
    (s.power.entering.contains d.val = true → ∃ u : State, exec (.ps3EntryComplete d) s = .next u ∧ u.inPs3 d = true ∧
      u.power.entering.contains d.val = false) ∧
    (∀ by_ : Option TwiId, (∀ n, by_ = some n → (dieLinks d).contains n.val = true) →
      (s.power.entering.contains d.val = true → ∃ u : State, exec (.dieWake d by_) s = .next u ∧ s.logsOne u 0x0700 ∧
        u.power.entering.contains d.val = false) ∧
      (s.power.entering.contains d.val = false → s.inPs3 d = true → ∃ u : State, exec (.dieWake d by_) s = .next u ∧ u.inPs3 d = false ∧
        u.fld (Reg.pwrDie d) Fld.pwrDieWaking = 1 ∧ ∀ g, 128 * d ≤ g → g < 128 * (d + 1) → u.fld (Reg.cirPmStatus g) Fld.cirPmStatusState = 2))) ∧
  (∀ (s : State) (o : Opener), s.mayAccess (openerNat o) Reg.pwrPkg true = true → s.power.standby = false →
    (s.lockOpen (openerNat o) = true → s.standbyRefuser (openerNat o) = none → ∃ u : State, exec (.standbyRequest o) s = .next u ∧
      u.power.standby = true ∧ u.threads = [] ∧ u.power.rails = s.power.rails.filter (· < 4) ∧
      (s.log.raised = [] → s.power.entries = [] → s.power.entering = [] → u.out = s.out ++ ([7, 8, 9, 10, 6, 5, 4].filter s.power.rails.contains).map fun r => .rail r false)) ∧
    (s.lockOpen (openerNat o) = true → s.standbyRefuser (openerNat o) ≠ none → ∃ u : State, exec (.standbyRequest o) s = .next u ∧
      s.logsOne u 0x0700 ∧ u.power = s.power ∧ u.lockOpen (openerNat o) = false) ∧
    (s.lockOpen (openerNat o) = false → bit (s.reg Reg.pwrPkg).toNat 0 = false → ∃ u : State, exec (.standbyRequest o) s = .next u ∧
      s.logsOne u 0x0006 ∧ u.power = s.power)) ∧
  (∀ (s : State) (p : HostPortId) (b : BootEnv), s.power.standby = true → s.mayStart = true →
    (bit (s.fld Reg.pwrPkg Fld.pwrPkgLightwake) p = true →
      exec (.standbyWake (.light p) b) s = .next (s.startPackage 7 false (fun _ => false) b)) ∧
    (s.fld Reg.pwrPkg Fld.pwrPkgI2cwake = 1 → exec (.standbyWake .i2c b) s = .next (s.startPackage 7 false (fun _ => false) b) ∧
      exec (.i2cWake b) s = .next (s.startPackage 7 false (fun _ => false) b))))

/-- Rules R472, R474, R492, R495, R496 and R503: a cold start whose rails come up, with its clock and its identity, reaches step 2,
stops there where an image that it needs does not verify in flash, and otherwise, with no record of the configuration image beyond the
window, reaches step 12 with the start event first, and with time zero where that image has no record; a warm reset, from software or by
a lost rail or clock of the hub, starts the package where nothing holds it, with the Firn slices that FIRN_KEEP names, and has no effect
on a package that a trip or a fault holds. Whether an image verifies is a free value. Where it meets a choice of the model: log entries
77 to 84 and 145. Rule R507: a register access over I²C that the package serves is answered with its status and value, an error status
where its offset is no register's, and one that it does not serve is not acknowledged; the status answer; flash reads of 1 to 256 bytes,
programming of as many outside image 0, which only clears bits, and the erasure of a sector but that of image 0; the others are not
acknowledged. -/
def Obligations.StartsAct : Prop :=
  (∀ (s : State) (b : BootEnv),
    (b.stalls = [] → (b.refclkGood = false ∨ b.pufGood = false → ∃ u : State, exec (.powerOnReset b) s = .next u ∧
        u.fld Reg.pwrBoot Fld.pwrBootStage = (if b.refclkGood = true then 1 else 0)) ∧
      (b.refclkGood = true → b.pufGood = true → ∃ u : State, exec (.powerOnReset b) s = .next u ∧
        (([1, 0, 2, 3, 4, 5].all fun i => (s.imageUse i).isSome) = false → u.fld Reg.pwrBoot Fld.pwrBootStage = 2) ∧
        (([1, 0, 2, 3, 4, 5].all fun i => (s.imageUse i).isSome) = true → (s.config.all fun r => decide (r.1 < 0x4000000)) = true →
          u.fld Reg.pwrBoot Fld.pwrBootStage = 12 ∧ (s.config = [] → u.now = 0) ∧
            ∃ e r, u.log.raised = e :: r ∧ e.code = 0x0001 ∧ e.arg0 = 1))) ∧
    (s.mayStart = true →
      let t := s.startPackage 2 false (fun g => s.firnKept g && !s.power.standby) b
      exec (.packageWarmReset b) s = .next t ∧ (s.power.standby = false → exec (.vhubPgLoss b) s = .next t) ∧
        exec (.i2cWarmReset 0xA5 b) s = .next t ∧
        exec (.clockLoss .hubDead b) s = .next ((((s.clockFail 10).stopOsc 4).setLock Fld.clkStatusHublock 0 false).warmReset b) ∧
        ∀ k ≠ (0xA5 : Byte), exec (.i2cWarmReset k b) s = .next s) ∧
    (s.mayStart = false → exec (.packageWarmReset b) s = .next s ∧ exec (.vhubPgLoss b) s = .next s)) ∧
  (∀ (s : State) (off : W32),
    (s.i2cServes off.toNat = false → ∀ v, exec (.i2cRegRead off) s = .next (s.send .i2cNack) ∧ exec (.i2cRegWrite off v) s = .next (s.send .i2cNack)) ∧
    (s.i2cServes off.toNat = true → accessStatus off.toNat = 0 → ∀ v,
      (∃ u : State, exec (.i2cRegRead off) s = .next u ∧
        u.out = (s.readReg 4 (off.toNat % 2 ^ 24)).1.out ++ [.i2c (leBytes 1 0 ++ leBytes 4 (s.readReg 4 (off.toNat % 2 ^ 24)).2.toNat)]) ∧
      (exec (.i2cRegWrite off v) s = .next ((s.writeReg 4 (off.toNat / 2 ^ 24) (off.toNat % 2 ^ 24) v).send (.i2c (leBytes 1 0))))) ∧
    (s.i2cServes off.toNat = true → accessStatus off.toNat ≠ 0 → ∀ v,
      exec (.i2cRegRead off) s = .next (s.send (.i2c (leBytes 1 (accessStatus off.toNat) ++ leBytes 4 0))) ∧
      exec (.i2cRegWrite off v) s = .next (s.send (.i2c (leBytes 1 (accessStatus off.toNat))))) ∧
    (∀ len data, (len = 0 ∨ 256 < len → exec (.i2cFlashRead off len) s = .next (s.send .i2cNack)) ∧
      (data = [] ∨ 256 < data.length ∨ off.toNat < 0x10000 → exec (.i2cFlashWrite off data) s = .next (s.send .i2cNack)) ∧
      (off.toNat < 0x10000 → exec (.i2cFlashErase off) s = .next (s.send .i2cNack))) ∧
    (∃ u : State, exec .i2cStatus s = .next u ∧ u.out = s.out ++ [.i2c (leBytes 4 (s.view Reg.pwrBoot).toNat ++ leBytes 4 (s.view Reg.pwrState).toNat)] ∧
      u.regs = s.regs) ∧
    (∀ len, 1 ≤ len → len ≤ 256 → ∃ u : State, exec (.i2cFlashRead off len) s = .next u ∧ u.out = s.out ++ [.i2c (s.flashBytes off.toNat len)] ∧
      u.flash = s.flash) ∧
    (∀ data, 1 ≤ data.length → data.length ≤ 256 → 0x10000 ≤ off.toNat → s.flash.wf = true → ∃ u : State, exec (.i2cFlashWrite off data) s = .next u ∧
      u.flashBytes off.toNat data.length = (s.flashBytes off.toNat data.length).zipWith (fun o d => o &&& d) data ∧ u.mem = s.mem) ∧
    (0x10000 ≤ off.toNat → s.flash.wf = true → ∃ u : State, exec (.i2cFlashErase off) s = .next u ∧
      (∀ a, off.toNat / 0x10000 * 0x10000 ≤ a → a < off.toNat / 0x10000 * 0x10000 + 0x10000 → u.flashBytes a 1 = [0xFF]) ∧ u.mem = s.mem))

/-! ## The sideband (R507) -/

/-! ## Events, time and integrity (chapter 14) -/

/-- Rules R20, R441, R443 and R446: the event raised first is logged with the next SEQ, its time not before that of its unit's latest, or is
suppressed and counted; with none raised, or while the package starts (R444), nothing happens; a window's end reports each code that it suppressed; global time is set forward where software
may, and is left as it is otherwise.
Where it meets a choice of the model: log entries 70 and 71. -/
def Obligations.EventsAndTimeAct : Prop :=
  (∀ (s : State) (e : Event) (r : List Event), s.log.raised = e :: r → s.power.starting = false →
    (s.suppressed e.code = false → ∃ u : State, exec .eventLogDeliver s = .next u ∧ u.log.held.head? = some (s.log.next % 2 ^ 32, s.inOrder e) ∧
      u.log.next = s.log.next + 1) ∧
    (s.suppressed e.code = true → ∃ u : State, exec .eventLogDeliver s = .next u ∧ u.log.held = s.log.held ∧ u.log.raised = r ∧
      u.log.lost.get 0 e.code = s.log.lost.get 0 e.code + 1 ∧ u.mem = s.mem)) ∧
  (∀ (s : State), s.log.raised = [] ∨ s.power.starting = true → exec .eventLogDeliver s = .next s) ∧
  (∀ (s : State), ∃ u : State, exec .suppressionWindowEnd s = .next u ∧ u.log.lost = [] ∧ u.log.logged = [] ∧ u.regs = s.regs ∧ u.mem = s.mem ∧
    u.log.raised.length = s.log.raised.length + s.log.lost.length) ∧
  (∀ (s : State) (t : W64),
    (s.timeSettable = true → s.now ≤ t → ∃ u : State, exec (.timSet t) s = .next u ∧ u.now = t ∧ s.logsOne u 0x0009 ∧
      u.fld Reg.timStatus Fld.timStatusSet = 1) ∧
    (s.timeSettable = false ∨ t < s.now → ∃ u : State, exec (.timSet t) s = .next u ∧ u.now = s.now ∧ u.mem = s.mem))

/-- Rules R428, R434 and R436 to R438: of an opener that may write the register, the right key opens its lock, a wrong one closes it and is counted,
and a write by another view has no effect; a commit arms its domains, of which those that are not skipped are no longer stale, or waits for an attempt to
end; a sweep of a learning domain writes its reference, one of an armed domain that differs logs the drift where none stands, and a domain with an isolated
die is skipped.
Where it meets a choice of the model: log entries 60 and 61. -/
def Obligations.IntegrityActs : Prop :=
  (∀ (s : State) (o : Opener) (key : BitVec 16), s.mayAccess (openerNat o) Reg.cfiUnlock true = true →
    (key = 0xC5A3 → ∃ u : State, exec (.cfiUnlock o 0 key) s = .next u ∧ u.lockOpen (openerNat o) = true) ∧
    (key ≠ 0xC5A3 → ∃ u : State, exec (.cfiUnlock o 0 key) s = .next u ∧ u.lockOpen (openerNat o) = false ∧
      u.reg Reg.cfiKeyfail = BitVec.ofNat 32 (min 0xFFFFFFFF ((s.reg Reg.cfiKeyfail).toNat + 1))) ∧
    (∀ view : Fin 4, view ≠ 0 → exec (.cfiUnlock o view key) s = .next s)) ∧
  (∀ (s : State) (dom : BitVec 5) (learn : Bool),
    (s.hub.attempt = none → ∃ u : State, exec (.cfiCommit dom learn) s = .next u ∧ ∀ d < 5, bit dom.toNat d = true → s.sweepSkipped d = false →
      bit (u.fld Reg.cfiStatus Fld.cfiStatusArmed) d = true ∧ bit (u.fld Reg.cfiStatus Fld.cfiStatusStale) d = false) ∧
    (s.hub.attempt ≠ none → ∃ u : State, exec (.cfiCommit dom learn) s = .next u ∧ u.hub.commits = s.hub.commits ++ [(dom.toNat, learn)] ∧
      u.regs = s.regs)) ∧
  (∀ (s : State) (d : Fin 5), s.sweepSkipped d = true → exec (.configSweep d) s = .next s) ∧
  (∀ (s : State) (d : Fin 5), s.sweepSkipped d = false →
    (s.hub.learn.contains d.val = true → ∃ u : State, exec (.configSweep d) s = .next u ∧ u.reg (Reg.cfiRef d) = s.sweepCrc d ∧
      u.reg (Reg.cfiCrc d) = s.sweepCrc d ∧ u.hub.learn.contains d.val = false ∧ u.log = s.log) ∧
    (s.hub.learn.contains d.val = false → bit (s.fld Reg.cfiStatus Fld.cfiStatusArmed) d = true →
      bit (s.fld Reg.cfiStatus Fld.cfiStatusStale) d = false → bit (s.fld Reg.cfiStatus Fld.cfiStatusDrift) d = false →
      s.reg (Reg.cfiRef d) ≠ s.sweepCrc d → ∃ u : State, exec (.configSweep d) s = .next u ∧ s.logsOne u 0x0003 ∧
        bit (u.fld Reg.cfiStatus Fld.cfiStatusDrift) d = true))

/-! ## Pliand host ports (chapter 13) -/

/-- Rules R396 to R401 and R421 on a port that is UP: a tail word below S becomes the tail, another is clamped, counted and logged; a head
word moves the head only within the ring, and any other word is counted and logged; the adapter forwards the word that has changed; a
READ_DATA with an unknown tag is counted and logged, one that answers the earliest fetch in full appends its entries, one that answers a later
fetch starts none before the earlier are there, and one that answers another read in full is stored where that read asked.
Where it meets a choice of the model: log entries 43, 47 and 153. -/
def Obligations.DoorbellsAct : Prop :=
  ∀ (s : State) (p : HostPortId), s.portUp p = true →
    (∀ (w : Fin 16) (v : W32), let i := v.toNat % 2 ^ 18;
      (w.val < 4 → let z := s.fld (Reg.plhSqSize p w) Fld.plhSqSizeEntries
        s.sqOn p w = true → 1 ≤ z → z ≤ 65536 →
        (i < z → ∃ u : State, exec (.doorbellReceive p w v) s = .next u ∧ u.fld (Reg.plhSqState p w) Fld.plhSqStateTail = i ∧ u.mem = s.mem ∧
          u.log = s.log) ∧
        (z ≤ i → ∃ u : State, exec (.doorbellReceive p w v) s = .next u ∧ u.fld (Reg.plhSqState p w) Fld.plhSqStateTail = z - 1 ∧
          u.reg (Reg.plhClamp p) = (s.bump (Reg.plhClamp p)).reg (Reg.plhClamp p) ∧ u.mem = s.mem ∧ s.logsOne u 0x0600)) ∧
      (4 ≤ w.val → w.val < 8 → let k := w.val - 4
        s.sqOn p k = true →
        let ok := headOk i (s.fld (Reg.plhCqSize p k) Fld.plhCqSizeEntries) (s.fld (Reg.plhCqState p k) Fld.plhCqStateTail)
          (s.fld (Reg.plhCqState p k) Fld.plhCqStateHead);
        (ok = true → i < 65536 → (s.sqRing p k).cqWait = [] → (s.sqRing p k).fetched = [] →
          ∃ u : State, exec (.doorbellReceive p w v) s = .next u ∧ u.fld (Reg.plhCqState p k) Fld.plhCqStateHead = i ∧ u.mem = s.mem ∧
            u.log = s.log) ∧
        (ok = false → ∃ u : State, exec (.doorbellReceive p w v) s = .next u ∧ u.reg (Reg.plhCqState p k) = s.reg (Reg.plhCqState p k) ∧
          u.reg (Reg.plhViol p) = (s.bump (Reg.plhViol p)).reg (Reg.plhViol p) ∧ s.logsOne u 0x0600)) ∧
      (w.val = 8 → s.mqOn p = true →
        headOk i (s.mqUnits p) (s.fld (Reg.plhMqState p) Fld.plhMqStateTail) (s.fld (Reg.plhMqHead p) Fld.plhMqHeadHead) = true →
        ∃ u : State, exec (.doorbellReceive p w v) s = .next u ∧ u.fld (Reg.plhMqHead p) Fld.plhMqHeadHead = i ∧ u.mem = s.mem ∧ u.log = s.log) ∧
      (9 ≤ w.val ∨ (w.val < 4 ∧ s.sqOn p w = false) ∨ (4 ≤ w.val ∧ w.val < 8 ∧ s.sqOn p (w.val - 4) = false) ∨
          (w.val = 8 ∧ s.mqOn p = false) →
        ∃ u : State, exec (.doorbellReceive p w v) s = .next u ∧ u.reg (Reg.plhViol p) = (s.bump (Reg.plhViol p)).reg (Reg.plhViol p) ∧
          s.logsOne u 0x0600 ∧ u.mem = s.mem ∧ u.ports = s.ports)) ∧
    (let word := fun (w : Nat) => leNat (s.bytes (hostBase p + s.reg64 (Reg.plhDbAddr p 0) % 2 ^ 44 / 64 * 64 + 4 * w) 4)
      let last := fun (w : Nat) => (s.port p).words.get 0 w;
      (∀ w, w < 9 → last w = word w + 1) → exec (.doorbellPoll p) s = .next s) ∧
    (let word := fun (w : Nat) => leNat (s.bytes (hostBase p + s.reg64 (Reg.plhDbAddr p 0) % 2 ^ 44 / 64 * 64 + 4 * w) 4)
      let last := fun (w : Nat) => (s.port p).words.get 0 w;
      (∀ w, w < 8 → last w = word w + 1) → last 8 ≠ word 8 + 1 →
        let t := s.setPort p { s.port p with words := (s.port p).words.put 0 8 (word 8 + 1) }
        ∃ u : State, exec (.doorbellReceive p 8 (BitVec.ofNat 32 (word 8))) t = .next u ∧ exec (.doorbellPoll p) s = .next u) ∧
    (∀ tag err b,
      ((s.port p).reads.find? fun r => r.tag == tag && decide (b.length ≤ r.n)) = none →
        ∃ u : State, exec (.readDataReceive p tag err b) s = .next u ∧ u.reg (Reg.plhViol p) = (s.bump (Reg.plhViol p)).reg (Reg.plhViol p) ∧
          s.logsOne u 0x0600 ∧ u.mem = s.mem) ∧
    (∀ tag b r, ((s.port p).reads.find? fun r => r.tag == tag && decide (b.length ≤ r.n)) = some r → b.length = r.n →
      (∀ k, r.ring = some k → (∀ e ∈ (s.sqRing p k).fetched, e.2 ≠ []) → (s.sqRing p k).early = [] →
        let earlier := fun (x : ReadReq) => x.ring = some k ∧ x.tag < tag
        ∃ u : State, exec (.readDataReceive p tag false b) s = .next u ∧ u.mem = s.mem ∧ u.log = s.log ∧
          ((∀ x ∈ (s.port p).reads, ¬ earlier x) → (u.sqRing p k).fetched = (s.sqRing p k).fetched ++ entriesOf r.first b) ∧
          ((∃ x ∈ (s.port p).reads, earlier x) → (u.sqRing p k).fetched = (s.sqRing p k).fetched ∧
            (u.sqRing p k).early = [(tag, entriesOf r.first b)])) ∧
      (r.ring = none → (∀ q, q < 4 → (s.port q).amsgs = []) → (∀ st, st < 8 → (s.stack st).cmds = []) →
        let t := s.setPort p { s.port p with reads := (s.port p).reads.filter fun x => x.tag != tag };
        exec (.readDataReceive p tag false b) s = .next (t.storeMem r.addr b)))

/-- Rules R402 to R410: the entry at the start of a ring starts. After an earlier failure a fenced entry is ABORTED; a reserved bit of FLAGS
or a reserved OP makes it MALFORMED; a NOP is DONE; a COPY joins a queue of the port's engine; a FEED joins its queue, or ends EMPTY,
QUEUE_DEAD or ADDRESS_FAULT, and so does a POST (QUEUE_DEAD of a POST is the model's choice: log entry 152); a TAB may set the step, and
commands the tablature: START, RESUME and STOP, MALFORMED and without effect where the tablature cannot start, cannot resume, or runs with
SET = 1; an AMSG reads its payload from a host's window, waits while that port is in GRACE, and sends at once what needs no read, an empty
payload among it.
Where it meets a choice of the model: log entries 44 and 152. -/
def Obligations.EntriesStart : Prop :=
  ∀ (s : State) (p k : HostPortId) (ix : Nat) (b : Bytes), s.frontEntry p k = some (ix, b) →
    (∀ e ∈ (s.sqRing p k).fetched.drop 1, e.2 ≠ []) →
    let ends := fun (u : State) (r : Option Completion) => s.entryBegun u p k ix b r ∧
      (u.sqRing p k).fetched = (s.sqRing p k).fetched.drop 1
    let fence := bit (field b 1 1) 0 && s.fenceBad p k
    let clean := field b 1 1 / 4 = 0 ∧ field b 4 4 = 0
    let n := s.nextId
    let c := field b 8 1
    let q := field b 9 1;
    (∀ x ∈ entryCommands p k, field b 0 1 = x.1 →
      (fence = true → ∃ u : State, exec x.2 s = .next u ∧ ends u (some { status := .aborted, detail := 1 }) ∧ u.mem = s.mem ∧ u.regs = s.regs) ∧
      (fence = false → field b 1 1 / 4 ≠ 0 → ∃ u : State, exec x.2 s = .next u ∧ ends u (some (malformed 10)) ∧ u.mem = s.mem ∧
        u.regs = s.regs)) ∧
    (fence = false →
      (5 < field b 0 1 → ∃ u : State, exec (.sqNop p k) s = .next u ∧ ends u (some (malformed 0)) ∧ u.mem = s.mem ∧ u.regs = s.regs) ∧
      (field b 0 1 = 0 → clean → leNat (b.drop 8) = 0 → ∃ u : State, exec (.sqNop p k) s = .next u ∧ ends u (some {}) ∧ u.mem = s.mem ∧
        u.regs = s.regs) ∧
      (field b 0 1 = 1 → clean → leNat (b.drop 40) = 0 →
        let d := (b.drop 8).take 32;
        (parseDesc d).after = false → (parseDesc d).ch = 0 → descFault d = none →
        ∃ u : State, ∃ ch, exec (.sqCopy p k) s = .next u ∧ ch < 8 ∧ ends u none ∧ (u.chan (512 + p) ch).queue =
          (s.chan (512 + p) ch).queue ++ [{ item := n, desc := d, job := some (s.portJob p) }]) ∧
      (field b 0 1 = 2 → clean → s.partJob (c / 4) = s.portJob p → q = 0 ∨ q = 2 → s.qKind c q = 3 →
        (if q = 2 then field b 10 1 else field b 10 1 &&& 0xF6) = 0 → field b 11 1 ≤ 5 → field b 26 6 = 0 → leNat (b.drop 38) = 0 →
                let len := field b 12 4
        let src := field b 32 6
        len ≤ s.qBytes c q →
        (len = 0 → ∃ u : State, exec (.sqFeed p k) s = .next u ∧ ends u (some { status := .empty }) ∧ u.queues = s.queues) ∧
        (0 < len → s.ctxDead c = true → ∃ u : State, exec (.sqFeed p k) s = .next u ∧ ends u (some { status := .queueDead }) ∧
          u.queues = s.queues) ∧
        (0 < len → s.ctxDead c = false → (∀ a, s.rangeFault (some (s.portJob p)) src len = some a →
          ∃ u : State, exec (.sqFeed p k) s = .next u ∧ ends u (some (addressFault a)) ∧ u.queues = s.queues)) ∧
        (0 < len → s.ctxDead c = false → s.rangeFault (some (s.portJob p)) src len = none → (∀ y ∈ (s.queue c q).feeds, y.item ≠ n) →
          ∃ u : State, ∃ f, exec (.sqFeed p k) s = .next u ∧ ends u none ∧ f ∈ (u.queue c q).feeds ∧ f.item = n ∧
            f.addr = src ∧ f.len = len ∧ f.mb.toNat = field b 16 4 ∧ f.flags = field b 10 1 ∧ f.fmt = field b 11 1 ∧ f.started = false)) ∧
      (field b 0 1 = 3 → clean → s.partJob (c / 4) = s.portJob p → q = 1 ∨ q = 3 → s.qKind c q = 3 → field b 10 6 = 0 →
        64 + s.qBytes c q ≤ field b 16 4 → field b 20 12 = 0 → leNat (b.drop 38) = 0 →
        let dst := field b 32 6
        let cap := field b 16 4;
        (s.ctxDead c = true → ∃ u : State, exec (.sqPost p k) s = .next u ∧ ends u (some { status := .queueDead }) ∧ u.queues = s.queues) ∧
        (s.ctxDead c = false → (hostPortOf dst).isNone = true →
          ∃ u : State, exec (.sqPost p k) s = .next u ∧ ends u (some (addressFault dst)) ∧ u.queues = s.queues) ∧
        (∀ a, s.ctxDead c = false → (hostPortOf dst).isSome = true → s.rangeFault (some (s.portJob p)) dst cap = some a →
          ∃ u : State, exec (.sqPost p k) s = .next u ∧ ends u (some (addressFault a)) ∧ u.queues = s.queues) ∧
        (s.ctxDead c = false → (hostPortOf dst).isSome = true → s.rangeFault (some (s.portJob p)) dst cap = none →
          ∃ u : State, exec (.sqPost p k) s = .next u ∧ ends u none ∧ (u.queue c q).posts = (s.queue c q).posts ++ [⟨dst, cap, n⟩])) ∧
      (field b 0 1 = 4 → clean → c < 64 → s.partJob c = s.portJob p → q ≤ 2 → field b 10 2 < 1024 → field b 12 1 ≤ 1 →
        field b 13 3 = 0 → leNat (b.drop 20) = 0 →
        let set := field b 12 1 = 1
        let bad := (s.setFld (Reg.stgTabCtrl c) Fld.stgTabCtrlEntry (field b 10 2)).startBad c;
        (set → s.tab c = 1 → ∃ u : State, exec (.sqTab p k) s = .next u ∧ ends u (some (malformed 72)) ∧ u.regs = s.regs ∧
          s.logsOne u 0x0004) ∧
        (¬ (set ∧ s.tab c = 1) →
          (q = 0 → bad = false → ∃ u : State, exec (.sqTab p k) s = .next u ∧ ends u (some {}) ∧ u.tab c = 1 ∧
            (set → u.reg (Reg.stgTabStep c) = BitVec.ofNat 32 (field b 16 4))) ∧
          (q = 0 → bad = true → ∃ u : State, exec (.sqTab p k) s = .next u ∧ ends u (some (malformed 72)) ∧ u.regs = s.regs ∧
            s.logsOne u 0x0004) ∧
          (q = 1 → s.tab c ≠ 2 → ∃ u : State, exec (.sqTab p k) s = .next u ∧ ends u (some (malformed 72)) ∧ u.regs = s.regs ∧
            s.logsOne u 0x0004) ∧
          (q = 1 → s.tab c = 2 → 0 < s.fld (Reg.stgTabIter c) Fld.stgTabIterLeft →
            ∃ u : State, exec (.sqTab p k) s = .next u ∧ ends u (some {}) ∧ u.tab c = 1 ∧
              u.fld (Reg.stgTabIter c) Fld.stgTabIterLeft = s.fld (Reg.stgTabIter c) Fld.stgTabIterLeft ∧
              (set → u.reg (Reg.stgTabStep c) = BitVec.ofNat 32 (field b 16 4))) ∧
          (q = 2 → s.tab c ≠ 1 → ∃ u : State, exec (.sqTab p k) s = .next u ∧ ends u (some {}) ∧ u.tab c = s.tab c ∧
            (set → u.reg (Reg.stgTabStep c) = BitVec.ofNat 32 (field b 16 4))) ∧
          (q = 2 → s.tab c = 1 → ∃ u : State, exec (.sqTab p k) s = .next u ∧ ends u none ∧ (u.part c).pendingStop = true))) ∧
      (field b 0 1 = 5 → clean → field b 8 2 ≤ 511 → field b 10 2 < 1024 → field b 12 2 ≤ 16384 → field b 14 2 = 0 →
        field b 22 2 = 0 → leNat (b.drop 30) = 0 →
        let len := field b 12 2
        let pay := field b 16 6;
        (∀ a, s.rangeFault (some (s.portJob p)) pay len = some a →
          ∃ u : State, exec (.sqAmsg p k) s = .next u ∧ ends u (some (addressFault a)) ∧ u.mem = s.mem ∧ u.out = s.out) ∧
        (∀ h, s.rangeFault (some (s.portJob p)) pay len = none → hostPortOf pay = some h → s.portState h ≠ 3 → 0 < len →
          (s.port p).amsgs = [] →
          ∃ u : State, ∃ w, exec (.sqAmsg p k) s = .next u ∧ w ∈ (u.port p).amsgs ∧ w.item = n ∧ w.addr = pay ∧ w.len = len ∧
            .readReq h (s.port h).nextTag (pay - hostBase h) (min len 4096) ∈ u.out) ∧
        (∀ h, s.rangeFault (some (s.portJob p)) pay len = none → hostPortOf pay = some h → s.portState h = 3 → 0 < len →
          exec (.sqAmsg p k) s = .next s) ∧
        (len = 0 ∨ hostPortOf pay = none → s.rangeFault (some (s.portJob p)) pay len = none → s.badByte pay len = none →
          (s.port p).amsgs = [] →
          ∃ u : State, ∃ w, exec (.sqAmsg p k) s = .next u ∧ ends u none ∧
            (u.ring (field b 8 2)).waits = (s.ring (field b 8 2)).waits ++ [w] ∧ w.teller = .item n 0 ∧ w.msg.handler = field b 10 2 ∧
            w.msg.payload = s.bytes pay len ∧ w.msg.arg.toNat = field b 24 6 ∧ u.mem = s.mem)))

/-- Rules R408, R412 and R413: the oldest message record, of any kind, lies at the tail with the phase of the pass where its units fit before
the end, its first unit written last; where it would pass the end, a PAD record fills the rest with the phase of the pass and the record
lies at unit 0 with the inverted phase; the tail is past it, and the SEND of a SLOT record has its WRITEs out. It waits while its units
are not free.
Where it meets a choice of the model: log entry 46. -/
def Obligations.RecordsAct : Prop :=
  ∀ (s : State) (p : HostPortId), s.portUp p = true → s.mqOn p = true → s.mqUnits p ≤ 2 ^ 18 →
    let z := s.mqUnits p
    let t := s.fld (Reg.plhMqState p) Fld.plhMqStateTail
    let ph := s.fld (Reg.plhMqState p) Fld.plhMqStatePhase
    let a := fun (u : Nat) => hostBase p + s.reg64 (Reg.plhMqBase p 0) % 2 ^ 44 + 64 * u
    let put := fun (v : State) (u ph : Nat) (b : Bytes) =>
      (if b.length ≤ 64 then v else v.store (a u + 64) (b.drop 64)).store (a u) (putField (b.take 64) 1 1 ph)
    let free := (s.fld (Reg.plhMqHead p) Fld.plhMqHeadHead + z + z - t - 1) % z;
    ((s.port p).recs = [] → exec (.mqRecordWrite p) s = .next s) ∧
    (∀ r rest, (s.port p).recs = r :: rest → let n := r.bytes.length / 64
      let sent := fun (u : State) => ∀ c q f, r.slot = some (c, q) →
        ((s.queue c q).flights.find? fun f => f.result == none && f.buf == none && f.xid == none && f.wrote == none) = some f →
        { f with wrote := some p.val } ∈ (u.queue c q).flights;
      (t + n ≤ z → n ≤ free → ∃ u : State, exec (.mqRecordWrite p) s = .next u ∧ (u.port p).recs = rest ∧ u.mem = (put s t ph r.bytes).mem ∧
        u.fld (Reg.plhMqState p) Fld.plhMqStateTail = (t + n) % z ∧
        u.fld (Reg.plhMqState p) Fld.plhMqStatePhase = (if t + n = z then 1 - ph else ph) ∧ sent u) ∧
      (z < t + n → t < z → z - t + n ≤ free → n < z →
        let pad := recHead 1 (z - t) s.now ++ List.replicate (64 * (z - t) - 16) 0
        ∃ u : State, exec (.mqRecordWrite p) s = .next u ∧ (u.port p).recs = rest ∧
          u.mem = (put (put s t ph pad) 0 (1 - ph) r.bytes).mem ∧ u.fld (Reg.plhMqState p) Fld.plhMqStateTail = n ∧
          u.fld (Reg.plhMqState p) Fld.plhMqStatePhase = 1 - ph ∧ sent u) ∧
      (t + n ≤ z ∧ free < n ∨ z < t + n ∧ free < z - t + n → exec (.mqRecordWrite p) s = .next s))

/-- Rules R391, R396, R398, R415, R416 and R429: the states of a port. Light starts the training of an enabled port that is DOWN and
has no effect otherwise; its end takes the port UP, in a new session; a lost
lane takes it to GRACE, the same session back UP, a new session or the end of GRACE DOWN; EN = 0 and a host-port reset take it DOWN, the
reset with its registers at their reset values and a reset event, and EN changes only for an opener that may write it and whose lock is
open; UP sends POLL_CFG; a ring is enabled after its checks, else CFG_ERR takes the code; the end of a holdoff sends the INTERRUPT of a
vector whose ring has been written since, and nothing otherwise.
Where it meets a choice of the model: log entries 45 and 46. -/
def Obligations.PortsChange : Prop :=
  ∀ (s : State) (p : HostPortId), let st := s.portState p;
    (st = 0 → s.fld (Reg.plhCfg p) Fld.plhCfgEn = 1 → ∃ u : State, exec (.portLightDetect p) s = .next u ∧ u.portState p = 1 ∧ u.mem = s.mem) ∧
    (st ≠ 0 ∨ s.fld (Reg.plhCfg p) Fld.plhCfgEn ≠ 1 → exec (.portLightDetect p) s = .next s) ∧
    ((∀ x ∈ s.chans, x.2.queue = []) → (∀ k, k < 4 → (s.sqRing p k).cqWait = []) → ∀ session : BitVec 16,
      (st = 1 → ∃ u : State, exec (.adapterStatusReceive p session) s = .next u ∧ u.portState p = 2 ∧
        u.fld (Reg.plhStatus p) Fld.plhStatusSession = (s.portSession p session).toNat ∧
        s.fld (Reg.plhStatus p) Fld.plhStatusSession ≠ (s.portSession p session).toNat ∧ (u.port p).words = [] ∧ ∃ a n, Out.pollCfg p a n ∈ u.out) ∧
      (st = 3 → s.fld (Reg.plhStatus p) Fld.plhStatusSession = session.toNat →
        ∃ u : State, exec (.adapterStatusReceive p session) s = .next u ∧ u.portState p = 2 ∧ (u.layer (32 + p)).held = (s.layer (32 + p)).held)) ∧
    (∀ session : BitVec 16, st = 3 → s.fld (Reg.plhStatus p) Fld.plhStatusSession ≠ session.toNat →
      ∃ u : State, exec (.adapterStatusReceive p session) s = .next u ∧ u.portState p = 0) ∧
    (st = 3 → ∃ u : State, exec (.portGraceExpired p) s = .next u ∧ u.portState p = 0 ∧
      ((∀ k, k < 8 → (s.stack k).cmds = []) → u.layer (32 + p) = {})) ∧
    (st = 2 → (∃ u : State, exec (.pliandLaneLockLost p) s = .next u ∧ u.portState p = 3 ∧ u.ports = s.ports ∧ u.mem = s.mem) ∧
      (∃ u : State, ∃ a n, exec (.pollCfgSend p) s = .next u ∧ u.out = s.out ++ [.pollCfg p a n] ∧ 1 ≤ n ∧ n ≤ 32 ∧ u.regs = s.regs)) ∧
    (∀ v : Fin 5, let more := (s.port p).irqMore.contains v.val && bit (s.fld (Reg.plhIrq p) Fld.plhIrqEn) v;
      (st = 2 → more = true → ∃ u : State, exec (.interruptHoldoffEnd p v) s = .next u ∧ u.out = s.out ++ [.interrupt p v] ∧
        (u.port p).irqMore.contains v.val = false ∧ u.mem = s.mem ∧ u.regs = s.regs) ∧
      (st ≠ 2 ∨ more = false → exec (.interruptHoldoffEnd p v) s = .next s)) ∧
    (∀ (o : Opener), let off := Reg.plhCfg p;
      (s.mayAccess (openerNat o) off true = true → s.lockOpen (openerNat o) = true →
        (∃ u : State, exec (.plhPortEnable p ⟨false, o⟩) s = .next u ∧ u.fld off Fld.plhCfgEn = 0 ∧ u.portState p = 0 ∧
          u.lockOpen (openerNat o) = false) ∧
        (∃ u : State, exec (.plhPortEnable p ⟨true, o⟩) s = .next u ∧ u.fld off Fld.plhCfgEn = 1 ∧ u.portState p = st ∧
          u.lockOpen (openerNat o) = false)) ∧
      (∀ en, s.mayAccess (openerNat o) off true = true → s.lockOpen (openerNat o) = false → s.fld off Fld.plhCfgEn ≠ b2n en →
        ∃ u : State, exec (.plhPortEnable p ⟨en, o⟩) s = .next u ∧ u.reg off = s.reg off ∧ u.portState p = st ∧ s.logsOne u 0x0006) ∧
      (∀ en, s.mayAccess (openerNat o) off true = false → ∃ u : State, exec (.plhPortEnable p ⟨en, o⟩) s = .next u ∧
        u.reg off = s.reg off ∧ s.logsOne u 0x0601)) ∧
    (∃ u : State, exec (.hostPortReset p) s = .next u ∧ (∀ r ∈ portRegs p, u.reg r = BitVec.ofNat 32 (resetAt r)) ∧
      ∃ e, u.log.raised.getLast? = some e ∧ e.code = 0x0702 ∧ e.arg0 = 6 ∧ e.arg1 = p.val) ∧
    (∀ k : HostPortId,
      let bases := [s.reg64 (Reg.plhSqBase p k 0), s.reg64 (Reg.plhCqBase p k 0)]
      let sizes := [(s.fld (Reg.plhSqSize p k) Fld.plhSqSizeEntries, 2, 65536), (s.fld (Reg.plhCqSize p k) Fld.plhCqSizeEntries, 2, 65536)]
      let e := s.ringErr p bases sizes;
      (s.sqOn p k = false → ∃ u : State, exec (.plhSqEnable p k true) s = .next u ∧ u.fld (Reg.plhStatus p) Fld.plhStatusCfgErr = e ∧
        (e = 0 → u.sqOn p k = true ∧ u.reg (Reg.plhSqState p k) = 0 ∧ u.reg (Reg.plhCqState p k) = 0 ∧
          u.fld (Reg.plhSqAux p k) Fld.plhSqAuxCqphase = 1) ∧
        (e ≠ 0 → u.sqOn p k = false)) ∧
      (s.sqOn p k = true → ∃ u : State, exec (.plhSqEnable p k false) s = .next u ∧ u.sqOn p k = false ∧ u.reg (Reg.plhSqState p k) = 0 ∧
        u.reg (Reg.plhCqState p k) = 0)) ∧
    (let e := s.ringErr p [s.reg64 (Reg.plhMqBase p 0)] [(s.fld (Reg.plhMqSize p) Fld.plhMqSizePages, 1, 4096)];
      (s.mqOn p = false → ∃ u : State, exec (.plhMqEnable p true) s = .next u ∧ u.fld (Reg.plhStatus p) Fld.plhStatusCfgErr = e ∧
        (e = 0 → u.mqOn p = true ∧ u.fld (Reg.plhMqState p) Fld.plhMqStateTail = 0 ∧
          u.fld (Reg.plhMqState p) Fld.plhMqStatePhase = 1 ∧ u.reg (Reg.plhMqHead p) = 0) ∧
        (e ≠ 0 → u.mqOn p = false)) ∧
      (s.mqOn p = true → ∃ u : State, exec (.plhMqEnable p false) s = .next u ∧ u.mqOn p = false ∧ u.reg (Reg.plhMqState p) = 0))

/-! ## Registers and configuration epochs (chapter 14) -/

/-- Rules R384, R419, R424 and R425: an access that the opener may not make returns zero or changes nothing, is counted and logged; on an
isolated die a write is discarded and a read answers a free value; an administrator's write of a link register without keyed fields, but
LNK_CTRL, changes its writable bits by its view; a read of an RC register below the base dies' returns it and clears its RC bits, another
read changes no register; a MGMT_REQ is answered with status 2 where it is misaligned, 3 past the register space, 1 where it is refused, else
0, with the value of a register without RC bits, or after the effect of the same REGISTER_WRITE.
Where it meets a choice of the model: log entries 69, 73, 75 and 122. -/
def Obligations.RegistersAct : Prop :=
  ∀ (s : State),
    (∀ (o : Opener) (view : Fin 4) (off : BitVec 24) (d : W32), let a := off.toNat; let n := openerNat o;
      (a % 4 ≠ 0 → exec (.registerWrite o view off d) s = .next s ∧ exec (.registerReadClear o off) s = .next s) ∧
      (a % 4 = 0 → s.mayAccess n a true = false → ∃ u : State, exec (.registerWrite o view off d) s = .next u ∧ s.logsOne u 0x0601 ∧
        u.reg Reg.plhTenDeny = (s.bump Reg.plhTenDeny).reg Reg.plhTenDeny ∧ (∀ r, r ≠ Reg.plhTenDeny → u.reg r = s.reg r) ∧
        u.mem = s.mem) ∧
      (a % 4 = 0 → s.mayAccess n a false = false → ∃ u : State, exec (.registerReadClear o off) s = .next u ∧ s.logsOne u 0x0601 ∧
        u.out = s.out ++ [.regValue o a 0] ∧ (∀ r, r ≠ Reg.plhTenDeny → u.reg r = s.reg r)) ∧
      (∀ r, a % 4 = 0 → a ≠ Reg.morHmap 0 → a < 0x800000 ∨ (a - 0x800000) % 0x100000 ≠ 0xC0000 → regAt a = some r → s.regGone a = true →
        (s.mayAccess n a true = true → exec (.registerWrite o view off d) s = .next s) ∧
        (s.mayAccess n a false = true → ∃ u : State, exec (.registerReadClear o off) s = .next u ∧
          u.out = s.out ++ [.regValue o a (Config.freeWord s.free a)] ∧ u.regs = s.regs ∧ u.mem = s.mem)) ∧
      (∀ r, a % 4 = 0 → s.isAdmin n = true → 0x100000 ≤ a → a < 0x200000 → ¬ (a < 0x180000 ∧ a % 0x4000 = 0) → regAt a = some r →
        r.rwk = 0 →
        let x := (s.reg a).toNat
        let z := (x &&& (0xFFFFFFFF ^^^ r.rw)) ||| (viewCombine view x d.toNat &&& r.rw)
        ∃ u : State, exec (.registerWrite o view off d) s = .next u ∧ u.mem = s.mem ∧ u.log = s.log ∧
          u.reg a = BitVec.ofNat 32 (if view.val = 0 then z &&& (0xFFFFFFFF ^^^ (d.toNat &&& r.w1c)) else z)) ∧
      (∀ r, a % 4 = 0 → s.mayAccess n a false = true → a < 0x800000 → a ≠ Reg.timNow 0 → a ≠ Reg.timNow 1 → regAt a = some r →
        s.regHere a → ∃ u : State, exec (.registerReadClear o off) s = .next u ∧ u.out = s.out ++ [.regValue o a (s.view a)] ∧ u.mem = s.mem ∧
          (r.rc = 0 → u.regs = s.regs) ∧
          (r.rc ≠ 0 → u.reg a = s.reg a &&& BitVec.ofNat 32 (0xFFFFFFFF ^^^ r.rc) ∧ ∀ x, x ≠ a → u.reg x = s.reg x))) ∧
    (∀ (p : HostPortId) (tag : Nat) (off : W32) (w : Option W32), let a := off.toNat;
      s.portUp p = true →
      (a % 4 ≠ 0 → exec (.mgmtReq p tag off w) s = .next (s.mgmtAnswer p tag 2 0)) ∧
      (a % 4 = 0 → 0x4000000 ≤ a → exec (.mgmtReq p tag off w) s = .next (s.mgmtAnswer p tag 3 0)) ∧
      (a % 4 = 0 → a < 0x4000000 → s.mayAccess p (a % 2 ^ 24) w.isSome = false → ∃ u : State, exec (.mgmtReq p tag off w) s = .next u ∧
        u.out = s.out ++ [.mgmtRsp p tag 1 0] ∧ s.logsOne u 0x0601) ∧
      (∀ r, a % 4 = 0 → a < 0x800000 → s.mayAccess p a false = true → regAt a = some r → r.rc = 0 → a ≠ Reg.timNow 0 → a ≠ Reg.timNow 1 →
        s.regHere a → exec (.mgmtReq p tag off none) s = .next (s.mgmtAnswer p tag 0 (s.view a))) ∧
      (∀ d u (view : Fin 4) (x : BitVec 24), a = view.val * 2 ^ 24 + x.toNat → a % 4 = 0 → s.mayAccess p x.toNat true = true →
        exec (.registerWrite (.port p) view x d) s = .next u →
        exec (.mgmtReq p tag off (some d)) s = .next (u.mgmtAnswer p tag 0 0)))

/-- Rule R445: a read of TIM_NOW_LO returns the low word of global time and keeps the high word for its opener; the read of TIM_NOW_HI
that follows returns the word kept, and one that follows no such read returns the high word of global time. -/
def Obligations.TimeReadsAct : Prop :=
  ∀ (s : State) (o : Opener), let n := openerNat o;
    (s.mayAccess n (Reg.timNow 0) false = true → ∃ u : State, exec (.timNowRead o true) s = .next u ∧
      u.out = s.out ++ [.regValue o (Reg.timNow 0) (s.now.setWidth 32)] ∧ u.regs = s.regs ∧
      (u.hub.latch.find? fun e => e.1 == n) = some (n, (s.now >>> 32).setWidth 32)) ∧
    (∀ v, s.mayAccess n (Reg.timNow 1) false = true → (s.hub.latch.find? fun e => e.1 == n) = some (n, v) →
      ∃ u : State, exec (.timNowRead o false) s = .next u ∧ u.out = s.out ++ [.regValue o (Reg.timNow 1) v] ∧ u.regs = s.regs) ∧
    (s.mayAccess n (Reg.timNow 1) false = true → (s.hub.latch.find? fun e => e.1 == n) = none →
      ∃ u : State, exec (.timNowRead o false) s = .next u ∧ u.out = s.out ++ [.regValue o (Reg.timNow 1) ((s.now >>> 32).setWidth 32)] ∧
        u.regs = s.regs)

/-- Rules R430 to R434: ADVANCE with a staged change starts the next attempt, with a snapshot of every staged value, and is ignored with an
event while one runs; DISCARD returns every register to its applied value; a unit whose checks pass is READY, one whose check fails rolls
the attempt back, as the timeout does (where no cluster is held and no CFI_COMMIT waits); the attempt commits once every unit is READY and no
window whose mode changes is in use (R219), and, where its units are tablatures, applies its snapshot; it ends in an epoch boundary.
Where it meets a choice of the model: log entries 62 to 66. -/
def Obligations.EpochsAct : Prop :=
  ∀ (s : State),
    (∀ o : Opener, s.mayAccess (openerNat o) Reg.glbEpochCtrl true = true →
      (s.hub.attempt.isSome = true → ∃ u : State, exec (.epochAdvance o) s = .next u ∧ u.hub = s.hub ∧ u.regs = s.regs ∧ s.logsOne u 0x0004) ∧
      (s.hub.attempt = none → (∃ r ∈ s.stagedDiffs, s.offCut r = false ∧ ∃ v ∈ stagedUnits r, s.unitCut v = false) →
        ∃ u : State, ∃ a, exec (.epochAdvance o) s = .next u ∧ u.hub.attempt = some a ∧ a.waiting ≠ [] ∧ a.ready = [] ∧
          (∀ r ∈ s.stagedDiffs, s.offCut r = false → (r, s.reg r) ∈ a.snap) ∧
          u.reg Reg.glbEpochAtt = s.reg Reg.glbEpochAtt + 1 ∧ u.fld Reg.glbEpochCtrl Fld.glbEpochCtrlState = 1)) ∧
    (s.hub.attempt = none → ∃ u : State, exec .epochDiscard s = .next u ∧ (∀ r, u.reg r = s.areg r) ∧ u.mem = s.mem ∧ u.hub = s.hub) ∧
    (s.hub.attempt.isSome = true → exec .epochDiscard s = .next s) ∧
    (∀ (a : Attempt) (v : UnitRef), let x := (v.code, v.index);
      s.hub.attempt = some a → a.waiting.contains x = true →
      (s.unitCheck a x = none → exec (.epochUnitReport v) s = .next s) ∧
      (s.unitCheck a x = some 0 → ∃ u : State, exec (.epochUnitReport v) s = .next u ∧ (u.epochPart x).state = 1 ∧ u.mem = s.mem ∧
        u.hub.attempt = some { a with waiting := a.waiting.filter fun y => y != x, ready := a.ready ++ [x] } ∧
        (a.waiting.filter (fun y => y != x) = [] → a.blocked = false → u.fld Reg.glbEpochCtrl Fld.glbEpochCtrlState = 2)) ∧
      (∀ code, s.unitCheck a x = some code → code ≠ 0 → a.held = [] → s.hub.commits = [] →
        ∃ u : State, exec (.epochUnitReport v) s = .next u ∧ u.hub.attempt = none ∧ (u.epochPart x).state = 3 ∧
          u.reg Reg.glbEpochFail = BitVec.ofNat 32 (v.code + code % 256 * 2 ^ 16) ∧ u.fld Reg.glbEpochCtrl Fld.glbEpochCtrlResult = 1 ∧
          u.reg Reg.glbEpoch = s.reg Reg.glbEpoch ∧ u.regs.app = s.regs.app ∧
          ∃ e, u.log.raised.getLast? = some e ∧ e.code = 0x0007)) ∧
    (∀ a, s.hub.attempt = some a → a.held = [] → s.hub.commits = [] →
      (a.waiting ≠ [] ∨ s.hmapHeld a = true → exec .epochCommit s = .next s) ∧
      (a.waiting ≠ [] ∨ s.hmapHeld a = true → ∃ u : State, exec .epochTimeout s = .next u ∧ u.hub.attempt = none ∧ u.reg Reg.glbEpochFail = BitVec.ofNat 32 (2 ^ 24) ∧
        u.fld Reg.glbEpochCtrl Fld.glbEpochCtrlResult = 1 ∧ u.regs.app = s.regs.app ∧ (∀ x ∈ a.waiting, (u.epochPart x).state = 4) ∧
        ∃ e, u.log.raised.getLast? = some e ∧ e.code = 0x0007) ∧
      (a.waiting = [] → a.blocked = false → (∀ x ∈ a.ready, x.1 = 0x0032) →
        (a.snap.map Prod.fst).Nodup → (∀ e ∈ a.snap, e.1 ≠ Reg.morHmap 0) →
        ∃ v : State, exec .epochCommit s = .next v.boundary ∧ v.hub.attempt = none ∧ v.reg Reg.glbEpoch = s.reg Reg.glbEpochAtt ∧
          v.fld Reg.glbEpochCtrl Fld.glbEpochCtrlResult = 0 ∧ v.fld Reg.glbEpochCtrl Fld.glbEpochCtrlState = 0 ∧
          (∀ x ∈ a.ready, (v.epochPart x).state = 2) ∧
          ∀ e ∈ a.snap, v.regs.app.get (BitVec.ofNat 32 (resetAt e.1)) e.1 = e.2))

/-! ## Recovery and mirroring (chapter 16) -/

/-- Rules R477, R485, R487, R491 and R497: the Bridge reads the area and the command word of each job; CONFIGURE checks its contexts and the
slot's size and starts mirroring; HALT stops it and keeps committed copies; ATTEST writes the report; RESTORE copies entry by entry, and
waits where another device must send.
Where it meets a choice of the model: log entries 85, 86, 90 and 94. -/
def Obligations.RecoveryCommandsAct : Prop :=
  ∀ (s : State), ((∀ j, j < 4 → s.areaOf j ≠ 0 → leNat (s.bytes (s.areaOf j) 4) ≤ 4) →
    ∃ u : State, exec .recoveryPoll s = .next u ∧ u.mem = s.mem ∧ ∀ j, j < 4 → (u.mirror j).area = s.areaOf j ∧
      (u.mirror j).cmd = (if s.areaOf j = 0 then 0 else leNat (s.bytes (s.areaOf j) 4))) ∧
    ∀ (job : Fin 4),
      let j := job.val
      let m := s.mirror j
      let t := (s.areaPut j 0 4 0).setMirror j { m with cmd := 0 };
      m.area ≠ 0 → m.cur = none →
      (m.cmd = 1 → let n := t.area j 0xB 1; let x := t.configMirror j;
        (16 < n ∨ (t.areaBytes j 0x60 n).any (fun c => t.partJob (c.toNat / 4) != j) = true →
          exec (.recoveryConfigure job) s = .next (t.cmdStat j .malformed 88)) ∧
        (n ≤ 16 → (t.areaBytes j 0x60 n).any (fun c => t.partJob (c.toNat / 4) != j) = false →
          ((x.mirror j).n = 0 → ∃ u : State, exec (.recoveryConfigure job) s = .next u ∧ (u.mirror j).on = false ∧ (u.mirror j).partner = none ∧
            (u.mirror j).copies = m.copies.filter MirrorCopy.committed) ∧
          ((x.mirror j).n ≠ 0 → x.mirSlot (x.mirror j) < x.slotNeed j 1 →
            exec (.recoveryConfigure job) s = .next (t.cmdStat j .malformed 640)) ∧
          ((x.mirror j).n ≠ 0 → x.slotNeed j 1 ≤ x.mirSlot (x.mirror j) →
            ∃ u : State, exec (.recoveryConfigure job) s = .next u ∧ (u.mirror j).on = true ∧ (u.mirror j).n = t.area j 8 2 ∧
              (u.mirror j).partner = none ∧ (u.mirror j).cur = none))) ∧
      (m.cmd = 2 → ∃ u : State, exec (.recoveryHalt job) s = .next u ∧ (u.mirror j).on = false ∧ (u.mirror j).partner = none ∧
        (u.mirror j).incoming = [] ∧ (u.mirror j).copies = m.copies ∧ u.fab = s.fab) ∧
      (m.cmd = 3 → ∃ u : State, ∃ sig, exec (.recoveryAttest job) s = .next u ∧ sig.length = 64 ∧
        u.mem = ((t.store (m.area + 0xA00) (t.reportBody j ++ sig)).store (m.area + 4) (leBytes 4 (statusCode .done))).mem) ∧
      (m.cmd = 4 → m.restore = none → let n := min 128 (t.area j 0xB04 4);
        (n = 0 → ∃ u : State, exec (.recoveryRestore job) s = .next u ∧ (u.mirror j).restore = none ∧
          u.mem = (t.store (m.area + 4) (leBytes 4 (statusCode .done))).mem) ∧
        (0 < n → (t.restoreEntry j 0).src ≠ s.ownAddr → (t.restoreEntry j 0).count ≠ 0 →
          ∃ u : State, exec (.recoveryRestore job) s = .next u ∧ u.mem = t.mem ∧
            (u.mirror j).restore = some { gen := t.area j 0xB00 4, count := n }) ∧
        (∀ l, n = 1 → (t.restoreEntry j 0).src = s.ownAddr → (t.restoreEntry j 0).count ≠ 0 →
          (t.restoreSource j (t.restoreEntry j 0) (t.area j 0xB00 4)).2 = .inr l → s.mem.ue = [] →
          s.rangeFault (some j) (t.restoreEntry j 0).dst (sumBy Prod.snd l) = none →
          ∃ u : State, exec (.recoveryRestore job) s = .next u ∧ (u.mirror j).restore = none ∧
            u.mem = ((t.store (t.restoreEntry j 0).dst (t.gather l)).store (m.area + 4) (leBytes 4 (statusCode .done))).mem))

/-- Rules R479, R482, R484, R486 and R489: a generation starts at a mirror point that is due, fails with an event where neither a partner nor
the tier takes it, and hands its copies to the tier to the hub copy engine where there is no partner; the last of them that completes commits
it, and one that fails fails it; a COMMIT whose digest is that of the own head commits the partner's copy, another is refused; COMMITTED
commits the generation once the tier has it, and its timeout fails it; a MIRROR transfer of a partner lies in its slot, behind the own copy and
apart from every other incoming part.
Where it meets a choice of the model: log entries 86 to 89, 93 and 151. -/
def Obligations.GenerationsAct : Prop :=
  ∀ (s : State) (job : Fin 4),
    let j := job.val
    let m := s.mirror j;
    (∀ p, m.on = true → m.cur = none → m.asking = none → m.due = some p → m.partner = none →
      let g := m.nextGen
      let src := s.ownParts j
      let dst := s.slotParts j g;
      (m.tier = 0 → ∃ u : State, exec (.mirrorStart job) s = .next u ∧ (u.mirror j).gens = g ∧ (u.mirror j).cur = none ∧
        ∃ e ∈ u.log.raised, e.code = 0x0781 ∧ e.arg0 = p % 2 ^ 32) ∧
      (m.tier ≠ 0 → (∀ x ∈ src, x.part ≠ 2 → x.size ≠ 0 → s.rangeFault (some j) x.addr x.size = none ∧ s.badByte x.addr x.size = none) →
        (∀ x ∈ dst, s.rangeFault (some j) x.addr x.size = none ∧ s.inSlot j g x = true) →
        let e := 512 + s.mqPort j
        let copies := dst.flatMap fun p => copyDescs p.addr (s.tierAddr j g p) p.size
        ∃ u : State, ∃ x c, exec (.mirrorStart job) s = .next u ∧ (u.mirror j).gens = g ∧ (u.mirror j).cur = some x ∧ x.gen = g ∧
          x.step = BitVec.ofNat 32 p ∧ x.needPartner = false ∧ x.tier.length = copies.length ∧ x.tier ≠ [] ∧
          (u.chan e 0).queue.map CopyDesc.desc = (s.chan e 0).queue.map CopyDesc.desc ++ copies ∧ c ∈ (u.mirror j).copies ∧
          c.src = none ∧ c.gen = g ∧ c.step = BitVec.ofNat 32 p ∧ c.digest = s.headDigest src ∧ c.parts = dst ∧ c.committed = false)) ∧
    (∀ g id it c, m.cur = some g → g.tier = [id] → g.xids = [] → g.sent = false → g.needPartner = false → s.item id = some it →
      it.owner = .mirror j → it.unit = 0x0012 → it.comp = some c → s.mayRetire it = true →
      ∃ u : State, exec (.itemRetire id) s = .next u ∧ (u.mirror j).cur = none ∧
        (c.status = .done → ∀ y ∈ (u.mirror j).copies, y.src = none → y.gen = g.gen → y.committed = true) ∧
        (c.status ≠ .done → ∃ e ∈ u.log.raised, e.code = 0x0781 ∧ e.arg0 = g.step.toNat)) ∧
    (∀ src gen step digest, let mine : MirrorCopy → Bool := fun c => c.src == some src && c.gen == gen.toNat;
      (m.on = false ∨ m.incoming.contains src = false ∨ m.copies.any mine = false →
        exec (.mirrorCommitReceive job src gen step digest) s = .next (s.sendMgmt src 3 j gen.toNat step 7 0 [])) ∧
      (m.on = true → m.incoming.contains src = true → m.copies.any mine = true →
        (m.copies.any (fun c => c.src == none && c.step == step && c.digest == digest) = true →
          ∃ u : State, exec (.mirrorCommitReceive job src gen step digest) s = .next u ∧ u.mem = s.mem ∧
            (∀ c ∈ (u.mirror j).copies, mine c = true → c.committed = true ∧ c.step = step ∧ c.digest = digest)) ∧
        (m.copies.any (fun c => c.src == none && c.step == step && c.digest == digest) = false →
          m.copies.any (fun c => mine c && c.full) = false →
          exec (.mirrorCommitReceive job src gen step digest) s = .next (s.sendMgmt src 3 j gen.toNat step 8 0 [])))) ∧
    (∀ g, m.cur = some g → g.sent = true →
      (∀ src gen, m.partner = some src → g.gen = gen.toNat → ∃ u : State, exec (.mirrorCommittedReceive job src gen) s = .next u ∧
        (g.tier = [] → g.xids = [] → (u.mirror j).cur = none ∧ ∀ c ∈ (u.mirror j).copies, c.src = none → c.gen = g.gen → c.committed = true) ∧
        (g.tier ≠ [] → (u.mirror j).cur = some { g with sent := false, needPartner := false } ∧ u.mem = s.mem)) ∧
      (∃ u : State, exec (.mirrorCommitTimeout job) s = .next u ∧ (u.mirror j).cur = none ∧
        ∃ e ∈ u.log.raised, e.code = 0x0781 ∧ e.arg0 = g.step.toNat)) ∧
    (m.cur = none → (∀ src gen, exec (.mirrorCommittedReceive job src gen) s = .next s) ∧ exec (.mirrorCommitTimeout job) s = .next s) ∧
    (∀ x : MirrorSeg, x.job = job →
      (2 < x.part → exec (.mirrorSegmentReceive x) s = .next (s.sendReceipt x.src x.xid (malformed 328))) ∧
      (x.part ≤ 2 → x.restore = false → m.on = false ∨ m.incoming.contains x.src = false →
        exec (.mirrorSegmentReceive x) s = .next (s.sendReceipt x.src x.xid (malformed 32))) ∧
      (x.part ≤ 2 → x.restore = true → s.restoreWaits j x.src = none →
        exec (.mirrorSegmentReceive x) s = .next (s.sendReceipt x.src x.xid (malformed 322))) ∧
      (x.part ≤ 2 → x.restore = false → m.on = true → m.incoming.contains x.src = true →
        m.copies.any (fun c => c.src == some x.src && c.gen == x.gen.toNat) = false →
        let g := x.gen.toNat
        let keep := m.copies.filter fun c => !(c.src == some x.src && c.gen % 2 == g % 2)
        let p := s.placePart j g keep { src := some x.src, gen := g, step := x.step } (s.incomingPart x);
        p.part = x.part ∧ p.first = x.first ∧ p.count = x.body.length / p.unit ∧ p.size = p.count * p.unit ∧
        (s.mirLocal m = false → s.slotBase j g 0 + sumBy CopyPart.size (s.ownParts j) ≤ p.addr ∧
          ∀ c ∈ keep, c.src ≠ none → c.gen % 2 = g % 2 → ∀ y ∈ c.parts, overlaps p.addr p.size y.addr y.size = false) ∧
        (s.inSlot j g p = true → s.rangeFault (some j) p.addr p.size = none →
          ∃ u : State, exec (.mirrorSegmentReceive x) s = .next u ∧ u.mem = (s.store p.addr (x.body.take p.size)).mem ∧
            ∃ c ∈ (u.mirror j).copies, c.src = some x.src ∧ c.gen = g ∧ c.parts = [p] ∧ c.committed = false ∧
              (x.part = 1 → x.first = 0 → (x.stack.val, x.ctx.val) ∈ c.heads))))

/-- Rules R487, R488, R490 and R491: HELLO is accepted, or refused with the lowest reason that applies; the candidate that accepts is the
partner, and one that refuses or is silent is logged; heartbeats go out and count as missed until one comes back; five missed in a row
lose the partner; a RESTORE_REQ of a generation that is held sends what it names of it as a MIRROR transfer with RESTORE set, and another is
refused.
Where it meets a choice of the model: log entries 88, 90, 127 and 128. -/
def Obligations.PartnersAct : Prop :=
  ∀ (s : State) (job : Fin 4),
    let j := job.val
    let m := s.mirror j;
    (∀ src (feed : BitVec 16), let r := s.helloReason j src feed.toNat;
      (m.on = false → r = 7) ∧ (m.on = true → feed.toNat = m.feed → feed ≠ 0 → r = 1) ∧
      (r ≠ 0 → exec (.helloReceive job src feed) s = .next (s.sendMgmt src 3 j 0 0 r 0 [])) ∧
      (r = 0 → ∃ u : State, exec (.helloReceive job src feed) s = .next u ∧ src ∈ (u.mirror j).incoming ∧ (u.mirror j).incoming.length ≤ 2 ∧
        u.mem = s.mem)) ∧
    (∀ src, m.asking = some src →
      (∃ u : State, exec (.partnerAnswerReceive job src .accept) s = .next u ∧ (u.mirror j).partner = some src ∧ (u.mirror j).asking = none ∧
        (u.mirror j).missed = 0) ∧
      (∀ r, ∃ u : State, exec (.partnerAnswerReceive job src (.refuse r)) s = .next u ∧
        ∃ e ∈ u.log.raised, e.code = 0x0782 ∧ e.arg0 = src.toNat ∧ e.arg1 = r % 2 ^ 64) ∧
      (∃ u : State, exec (.partnerAnswerTimeout job) s = .next u ∧ ∃ e ∈ u.log.raised, e.code = 0x0782 ∧ e.arg0 = src.toNat ∧ e.arg1 = 6)) ∧
    (m.asking = none → (∀ src, exec (.partnerAnswerReceive job src .accept) s = .next s) ∧ exec (.partnerAnswerTimeout job) s = .next s) ∧
    (m.on = true → ∃ u : State, exec (.heartbeatSend job) s = .next u ∧ u.mem = s.mem ∧
      (u.mirror j).missed = m.missed + (if m.partner = none then 0 else 1)) ∧
    (∀ src, m.partner = some src → ∃ u : State, exec (.heartbeatReceive job src) s = .next u ∧ u.mirror j = { m with missed := 0 } ∧
      u.mem = s.mem ∧ u.regs = s.regs) ∧
    (∀ src, m.partner ≠ some src → exec (.heartbeatReceive job src) s = .next s) ∧
    (m.on = true → m.partner.isSome = true → m.cur = none →
      (5 ≤ m.missed → ∃ u : State, exec (.partnerLost job) s = .next u ∧ (u.mirror j).partner = none) ∧
      (m.missed < 5 → exec (.partnerLost job) s = .next s)) ∧
    (∀ src gen b, let e := parseRestore b
      let x := s.restoreSource j e gen.toNat;
      (∀ c, x.2 = .inl c → exec (.restoreReqReceive job src gen b) s = .next (x.1.sendMgmt src 3 j gen.toNat 0 7 0 [])) ∧
      (∀ l h, x.2 = .inr l → s.heldCopy j e.owner gen.toNat = some h → (∀ q, s.isAdm q 3 = false) →
        let p : CopyPart := { part := e.part, stack := e.stack, ctx := e.ctx, size := 0 }
        ∃ u : State, ∃ t, exec (.restoreReqReceive job src gen b) s = .next u ∧ u.mem = s.mem ∧ u.mirrors = s.mirrors ∧ t ∈ u.fab.xfers ∧
          t.dest = src ∧ t.typ = 8 ∧ t.vc = 3 ∧ t.total = sumBy Prod.snd l ∧ t.ended = none ∧
          u.layers = (x.1.submit { dest := src, typ := 8, vc := 3, tail := mirTail j true p gen.toNat h.step.toNat e.first
                                   body := s.gather l, why := .notice }).1.layers))

/-! ## The block as a whole -/

/-- The queue of commands (the model's form of R1: log entry 2): a step takes the command at the front and is exec of it on the state with the
queue's rest. -/
def Obligations.StepRunsFront : Prop :=
  ∀ (s : State) (c : Instr) (r : List Instr), s.pending = c :: r → step s = exec c (s.setPending r)

/-- With an empty queue a nanosecond passes, 100 ns in PS4 (the model's choice: log entries 3 and 149): no memory, thread, queue or message
changes where no entry into PS1 or PS2 ends and no voltage target waits for its acknowledgement; where the hub has lost its H-links, the
package is reset first (R382). -/
def Obligations.IdleStepPassesTime : Prop :=
  ∀ (s : State), s.pending = [] →
    (s.hub.warmDue = false → s.power.entries = [] → s.power.avs = [] → ∃ u : State, step s = .next u ∧ u.mem = s.mem ∧ u.threads = s.threads ∧ u.queues = s.queues ∧ u.out = s.out ∧
      u.log = s.log ∧ u.pending = [] ∧ (s.power.standby = false → s.fab.hold = 0 → s.fab.slew = 0 → u.now = s.now + 1) ∧
      (s.power.standby = true → u.now = s.now + 100)) ∧
    (s.hub.warmDue = true → ∃ u : State, step s = .next u ∧ u.fld Reg.pwrBoot Fld.pwrBootStage = 0 ∧ u.threads = [] ∧ u.pending = [])

/-- Rules R422, R423 and R470: after reset every register holds the reset value of its table, every lock is closed, every partition,
context, thread and queue is idle and empty, memory lists nothing, no item is in execution, and no command waits.
Where it meets a choice of the model: log entries 5 and 6. -/
def Obligations.ResetLeaves : Prop :=
  let s := State.reset
  (∀ r, s.reg r = BitVec.ofNat 32 (resetAt r)) ∧ (∀ r, s.areg r = BitVec.ofNat 32 (resetAt r)) ∧
  (∀ o : Opener, s.lockOpen (openerNat o) = false) ∧ (∀ p : PartId, s.partOn p = false ∧ s.tab p = 0) ∧ (∀ c : CtxId, s.ctxState c = 0) ∧
  (∀ k, (s.thread k).prog = .idle) ∧ (∀ c q, s.queue c q = {}) ∧ (∀ p : HostPortId, s.portState p = 0 ∧ s.isAdmin p = false) ∧
  (∀ l : LinkId, s.linkState l = 0) ∧ s.items.live = [] ∧ s.mem.cells = [] ∧ s.hub.attempt = none ∧ s.out = [] ∧ s.pending = []

/-- The memory and the flash of the machine after reset are in canonical form.
Where it meets a choice of the model: log entry 6. -/
def Obligations.ResetInv : Prop := State.reset.Inv

/-- Every step keeps the canonical form of memory and flash, so that equal contents are equal data. -/
def Obligations.StepKeepsInv : Prop := ∀ s t : State, s.Inv → step s = .next t → t.Inv

/-- Rules R200, R226, R227 and R514 as the meanings use them: a store of bytes changes no byte outside them and none of a retired page; where
there is no error, no retired page and no isolated die, it leaves exactly those bytes there; and it changes nothing but memory, registers, the
controllers of the stacks, the event log and the messages of the host ports.
Where it meets a choice of the model: log entries 6 and 17. -/
def Obligations.StoresAct : Prop :=
  ∀ (s : State) (a : Nat) (b : Bytes), s.mem.wf = true →
    (∀ x, x < a ∨ a + b.length ≤ x → (s.store a b).mem.byte x = s.mem.byte x) ∧
    (s.mem.ue = [] → s.retiredPages = [] → s.twi = [] → ∀ i, i < b.length → (s.store a b).mem.byte (a + i) = b.getD i 0) ∧
    (s.store a b).mem.wf = true ∧
    (let u := s.store a b
     u = { s with mem := u.mem, regs := u.regs, stackTab := u.stackTab, log := u.log, layers := u.layers }) ∧
    ∀ x r, r ∈ s.retiredPages → r ≤ x → x < r + 2048 → (s.store a b).mem.byte x = s.mem.byte x

/-- The frame of the words of the sequencer (R80 to R84): whatever a NOP, SETA, ADDA, GROUP, WAIT or LOOP, reserved bits set or not,
does, whether or not it may issue, it changes threads and the record of items alone: no register, no byte of memory and no queue. -/
def Obligations.ControlWordsFrame : Prop :=
  ∀ (s : State) (g : ClusterId) (t : Thr) (w : BitVec 56), ∀ c ∈ controlWords g t w,
    ∃ u : State, exec c s = .next u ∧ s.sameButThreads u

/-- The frame of link and fabric commands that store nothing (chapter 10): memory, threads, queues and items stay. -/
def Obligations.LinkCommandsFrame : Prop :=
  ∀ (s : State) (l : LinkId) (n : Nat) (b : Bytes), ∀ c ∈ linkCommands l n b, ∃ u : State, exec c s = .next u ∧
    u.mem = s.mem ∧ u.threads = s.threads ∧ u.queues = s.queues ∧ u.items = s.items
end

