-- ==== Sys2Proof/Laws/Tables.lean ====
section
/-! SUPPORT. Laws of tables and of bit fields: what is read after a write, to the same place and to another. -/
namespace Sys2Proof.Machine

variable {α : Type}

theorem Tbl.get_erase_same (d : α) (t : Tbl α) (k : Nat) : (Tbl.erase t k).get d k = d := by
  unfold Tbl.erase
  induction t with
  | nil => rfl
  | cons e r ih =>
    by_cases h : e.1 = k
    · simp [h, ih]
    · simp [h, Tbl.get, ih]

theorem Tbl.get_erase_ne (d : α) (t : Tbl α) {k j : Nat} (h : j ≠ k) : (Tbl.erase t k).get d j = t.get d j := by
  unfold Tbl.erase
  induction t with
  | nil => rfl
  | cons e r ih =>
    by_cases hk : e.1 = k
    · simp [hk, Tbl.get, ih, h.symm]
    · simp [hk, Tbl.get, ih]

theorem Tbl.get_insert_same (d : α) (t : Tbl α) (k : Nat) (v : α) : (Tbl.insert t k v).get d k = v := by
  induction t with
  | nil => simp [Tbl.insert, Tbl.get]
  | cons e r ih =>
    obtain ⟨j, w⟩ := e
    simp only [Tbl.insert]
    split
    · simp [Tbl.get]
    · rename_i hj
      split
      · simp [Tbl.get]
      · simp [Tbl.get, hj, ih]

theorem Tbl.get_insert_ne (d : α) (t : Tbl α) {k j : Nat} (v : α) (h : j ≠ k) : (Tbl.insert t k v).get d j = t.get d j := by
  induction t with
  | nil => simp [Tbl.insert, Tbl.get, h.symm]
  | cons e r ih =>
    obtain ⟨i, w⟩ := e
    simp only [Tbl.insert]
    split
    · rename_i hi
      simp [Tbl.get, hi, h.symm]
    · split
      · simp [Tbl.get, h.symm]
      · simp [Tbl.get, ih]

/-- A table reads back what has been put at a key. -/
@[simp] theorem Tbl.get_put_same [DecidableEq α] (d : α) (t : Tbl α) (k : Nat) (v : α) : (t.put d k v).get d k = v := by
  unfold Tbl.put
  split
  · rename_i h
    rw [h, Tbl.get_erase_same]
  · rw [Tbl.get_insert_same]

/-- A put leaves every other key alone. -/
theorem Tbl.get_put_ne [DecidableEq α] (d e : α) (t : Tbl α) {k j : Nat} (v : α) (h : j ≠ k) : (t.put d k v).get e j = t.get e j := by
  unfold Tbl.put
  split
  · rw [Tbl.get_erase_ne e t h]
  · rw [Tbl.get_insert_ne e t v h]

/-- Bits of a replaced field are those written. -/
theorem bits_setBits_same (x lo w v : Nat) : bits (setBits x lo w v) lo w = v % 2 ^ w := by
  unfold bits setBits
  have h1 : 2 ^ (lo + w) = 2 ^ lo * 2 ^ w := Nat.pow_add ..
  have h2 : x % 2 ^ lo < 2 ^ lo := Nat.mod_lt _ (Nat.two_pow_pos lo)
  have h3 : x / 2 ^ (lo + w) * 2 ^ (lo + w) + v % 2 ^ w * 2 ^ lo + x % 2 ^ lo =
      x % 2 ^ lo + 2 ^ lo * (x / 2 ^ (lo + w) * 2 ^ w + v % 2 ^ w) := by
    rw [h1]; ring
  rw [h3, Nat.add_mul_div_left _ _ (Nat.two_pow_pos lo), Nat.div_eq_of_lt h2, Nat.zero_add, Nat.add_comm, Nat.add_mul_mod_self_right,
    Nat.mod_mod]

end Sys2Proof.Machine
end

