-- ==== Sys2Proof/Laws/State.lean ====
section
/-! SUPPORT. What each update of the state leaves alone: one law for each field, and for each reading of it. -/
namespace Sys2Proof.Machine

variable (s : State)

@[simp] theorem State.setNow_now (x : W64) : (s.setNow x).now = x := rfl
@[simp] theorem State.setNow_regs (x : W64) : (s.setNow x).regs = s.regs := rfl
@[simp] theorem State.setNow_mem (x : W64) : (s.setNow x).mem = s.mem := rfl
@[simp] theorem State.setNow_log (x : W64) : (s.setNow x).log = s.log := rfl
@[simp] theorem State.setNow_items (x : W64) : (s.setNow x).items = s.items := rfl
@[simp] theorem State.setNow_threads (x : W64) : (s.setNow x).threads = s.threads := rfl
@[simp] theorem State.setNow_progs (x : W64) : (s.setNow x).progs = s.progs := rfl
@[simp] theorem State.setNow_parts (x : W64) : (s.setNow x).parts = s.parts := rfl
@[simp] theorem State.setNow_clrpend (x : W64) : (s.setNow x).clrpend = s.clrpend := rfl
@[simp] theorem State.setNow_queues (x : W64) : (s.setNow x).queues = s.queues := rfl
@[simp] theorem State.setNow_stash (x : W64) : (s.setNow x).stash = s.stash := rfl
@[simp] theorem State.setNow_cores (x : W64) : (s.setNow x).cores = s.cores := rfl
@[simp] theorem State.setNow_vctxs (x : W64) : (s.setNow x).vctxs = s.vctxs := rfl
@[simp] theorem State.setNow_curves (x : W64) : (s.setNow x).curves = s.curves := rfl
@[simp] theorem State.setNow_chans (x : W64) : (s.setNow x).chans = s.chans := rfl
@[simp] theorem State.setNow_stackTab (x : W64) : (s.setNow x).stackTab = s.stackTab := rfl
@[simp] theorem State.setNow_retSave (x : W64) : (s.setNow x).retSave = s.retSave := rfl
@[simp] theorem State.setNow_snps (x : W64) : (s.setNow x).snps = s.snps := rfl
@[simp] theorem State.setNow_layers (x : W64) : (s.setNow x).layers = s.layers := rfl
@[simp] theorem State.setNow_fab (x : W64) : (s.setNow x).fab = s.fab := rfl
@[simp] theorem State.setNow_drift (x : W64) : (s.setNow x).drift = s.drift := rfl
@[simp] theorem State.setNow_ports (x : W64) : (s.setNow x).ports = s.ports := rfl
@[simp] theorem State.setNow_twi (x : W64) : (s.setNow x).twi = s.twi := rfl
@[simp] theorem State.setNow_hub (x : W64) : (s.setNow x).hub = s.hub := rfl
@[simp] theorem State.setNow_power (x : W64) : (s.setNow x).power = s.power := rfl
@[simp] theorem State.setNow_flash (x : W64) : (s.setNow x).flash = s.flash := rfl
@[simp] theorem State.setNow_mirrors (x : W64) : (s.setNow x).mirrors = s.mirrors := rfl
@[simp] theorem State.setNow_free (x : W64) : (s.setNow x).free = s.free := rfl
@[simp] theorem State.setNow_out (x : W64) : (s.setNow x).out = s.out := rfl
@[simp] theorem State.setNow_pending (x : W64) : (s.setNow x).pending = s.pending := rfl
@[simp] theorem State.setNow_reg (x : W64) (o₁ : Nat) : (s.setNow x).reg o₁ = s.reg o₁ := rfl
@[simp] theorem State.setNow_areg (x : W64) (o₁ : Nat) : (s.setNow x).areg o₁ = s.areg o₁ := rfl
@[simp] theorem State.setNow_fld (x : W64) (o₁ : Nat) (f₁ : Fld) : (s.setNow x).fld o₁ f₁ = s.fld o₁ f₁ := rfl
@[simp] theorem State.setNow_afld (x : W64) (o₁ : Nat) (f₁ : Fld) : (s.setNow x).afld o₁ f₁ = s.afld o₁ f₁ := rfl
@[simp] theorem State.setNow_thread (x : W64) (k₁ : Nat) : (s.setNow x).thread k₁ = s.thread k₁ := rfl
@[simp] theorem State.setNow_queue (x : W64) (c₁ q₁ : Nat) : (s.setNow x).queue c₁ q₁ = s.queue c₁ q₁ := rfl
@[simp] theorem State.setNow_part (x : W64) (k₁ : Nat) : (s.setNow x).part k₁ = s.part k₁ := rfl
@[simp] theorem State.setNow_layer (x : W64) (k₁ : Nat) : (s.setNow x).layer k₁ = s.layer k₁ := rfl
@[simp] theorem State.setNow_snp (x : W64) (k₁ : Nat) : (s.setNow x).snp k₁ = s.snp k₁ := rfl
@[simp] theorem State.setNow_mirror (x : W64) (k₁ : Nat) : (s.setNow x).mirror k₁ = s.mirror k₁ := rfl
@[simp] theorem State.setNow_bytes (x : W64) (a₁ n₁ : Nat) : (s.setNow x).bytes a₁ n₁ = s.bytes a₁ n₁ := rfl
@[simp] theorem State.setNow_item (x : W64) (k₁ : Nat) : (s.setNow x).item k₁ = s.item k₁ := rfl

@[simp] theorem State.setRegs_regs (x : RegFile) : (s.setRegs x).regs = x := rfl
@[simp] theorem State.setRegs_now (x : RegFile) : (s.setRegs x).now = s.now := rfl
@[simp] theorem State.setRegs_mem (x : RegFile) : (s.setRegs x).mem = s.mem := rfl
@[simp] theorem State.setRegs_log (x : RegFile) : (s.setRegs x).log = s.log := rfl
@[simp] theorem State.setRegs_items (x : RegFile) : (s.setRegs x).items = s.items := rfl
@[simp] theorem State.setRegs_threads (x : RegFile) : (s.setRegs x).threads = s.threads := rfl
@[simp] theorem State.setRegs_progs (x : RegFile) : (s.setRegs x).progs = s.progs := rfl
@[simp] theorem State.setRegs_parts (x : RegFile) : (s.setRegs x).parts = s.parts := rfl
@[simp] theorem State.setRegs_clrpend (x : RegFile) : (s.setRegs x).clrpend = s.clrpend := rfl
@[simp] theorem State.setRegs_queues (x : RegFile) : (s.setRegs x).queues = s.queues := rfl
@[simp] theorem State.setRegs_stash (x : RegFile) : (s.setRegs x).stash = s.stash := rfl
@[simp] theorem State.setRegs_cores (x : RegFile) : (s.setRegs x).cores = s.cores := rfl
@[simp] theorem State.setRegs_vctxs (x : RegFile) : (s.setRegs x).vctxs = s.vctxs := rfl
@[simp] theorem State.setRegs_curves (x : RegFile) : (s.setRegs x).curves = s.curves := rfl
@[simp] theorem State.setRegs_chans (x : RegFile) : (s.setRegs x).chans = s.chans := rfl
@[simp] theorem State.setRegs_stackTab (x : RegFile) : (s.setRegs x).stackTab = s.stackTab := rfl
@[simp] theorem State.setRegs_retSave (x : RegFile) : (s.setRegs x).retSave = s.retSave := rfl
@[simp] theorem State.setRegs_snps (x : RegFile) : (s.setRegs x).snps = s.snps := rfl
@[simp] theorem State.setRegs_layers (x : RegFile) : (s.setRegs x).layers = s.layers := rfl
@[simp] theorem State.setRegs_fab (x : RegFile) : (s.setRegs x).fab = s.fab := rfl
@[simp] theorem State.setRegs_drift (x : RegFile) : (s.setRegs x).drift = s.drift := rfl
@[simp] theorem State.setRegs_ports (x : RegFile) : (s.setRegs x).ports = s.ports := rfl
@[simp] theorem State.setRegs_twi (x : RegFile) : (s.setRegs x).twi = s.twi := rfl
@[simp] theorem State.setRegs_hub (x : RegFile) : (s.setRegs x).hub = s.hub := rfl
@[simp] theorem State.setRegs_power (x : RegFile) : (s.setRegs x).power = s.power := rfl
@[simp] theorem State.setRegs_flash (x : RegFile) : (s.setRegs x).flash = s.flash := rfl
@[simp] theorem State.setRegs_mirrors (x : RegFile) : (s.setRegs x).mirrors = s.mirrors := rfl
@[simp] theorem State.setRegs_free (x : RegFile) : (s.setRegs x).free = s.free := rfl
@[simp] theorem State.setRegs_out (x : RegFile) : (s.setRegs x).out = s.out := rfl
@[simp] theorem State.setRegs_pending (x : RegFile) : (s.setRegs x).pending = s.pending := rfl
@[simp] theorem State.setRegs_thread (x : RegFile) (k₁ : Nat) : (s.setRegs x).thread k₁ = s.thread k₁ := rfl
@[simp] theorem State.setRegs_queue (x : RegFile) (c₁ q₁ : Nat) : (s.setRegs x).queue c₁ q₁ = s.queue c₁ q₁ := rfl
@[simp] theorem State.setRegs_part (x : RegFile) (k₁ : Nat) : (s.setRegs x).part k₁ = s.part k₁ := rfl
@[simp] theorem State.setRegs_layer (x : RegFile) (k₁ : Nat) : (s.setRegs x).layer k₁ = s.layer k₁ := rfl
@[simp] theorem State.setRegs_snp (x : RegFile) (k₁ : Nat) : (s.setRegs x).snp k₁ = s.snp k₁ := rfl
@[simp] theorem State.setRegs_mirror (x : RegFile) (k₁ : Nat) : (s.setRegs x).mirror k₁ = s.mirror k₁ := rfl
@[simp] theorem State.setRegs_item (x : RegFile) (k₁ : Nat) : (s.setRegs x).item k₁ = s.item k₁ := rfl

@[simp] theorem State.setMem_mem (x : Memory) : (s.setMem x).mem = x := rfl
@[simp] theorem State.setMem_now (x : Memory) : (s.setMem x).now = s.now := rfl
@[simp] theorem State.setMem_regs (x : Memory) : (s.setMem x).regs = s.regs := rfl
@[simp] theorem State.setMem_log (x : Memory) : (s.setMem x).log = s.log := rfl
@[simp] theorem State.setMem_items (x : Memory) : (s.setMem x).items = s.items := rfl
@[simp] theorem State.setMem_threads (x : Memory) : (s.setMem x).threads = s.threads := rfl
@[simp] theorem State.setMem_progs (x : Memory) : (s.setMem x).progs = s.progs := rfl
@[simp] theorem State.setMem_parts (x : Memory) : (s.setMem x).parts = s.parts := rfl
@[simp] theorem State.setMem_clrpend (x : Memory) : (s.setMem x).clrpend = s.clrpend := rfl
@[simp] theorem State.setMem_queues (x : Memory) : (s.setMem x).queues = s.queues := rfl
@[simp] theorem State.setMem_stash (x : Memory) : (s.setMem x).stash = s.stash := rfl
@[simp] theorem State.setMem_cores (x : Memory) : (s.setMem x).cores = s.cores := rfl
@[simp] theorem State.setMem_vctxs (x : Memory) : (s.setMem x).vctxs = s.vctxs := rfl
@[simp] theorem State.setMem_curves (x : Memory) : (s.setMem x).curves = s.curves := rfl
@[simp] theorem State.setMem_chans (x : Memory) : (s.setMem x).chans = s.chans := rfl
@[simp] theorem State.setMem_stackTab (x : Memory) : (s.setMem x).stackTab = s.stackTab := rfl
@[simp] theorem State.setMem_retSave (x : Memory) : (s.setMem x).retSave = s.retSave := rfl
@[simp] theorem State.setMem_snps (x : Memory) : (s.setMem x).snps = s.snps := rfl
@[simp] theorem State.setMem_layers (x : Memory) : (s.setMem x).layers = s.layers := rfl
@[simp] theorem State.setMem_fab (x : Memory) : (s.setMem x).fab = s.fab := rfl
@[simp] theorem State.setMem_drift (x : Memory) : (s.setMem x).drift = s.drift := rfl
@[simp] theorem State.setMem_ports (x : Memory) : (s.setMem x).ports = s.ports := rfl
@[simp] theorem State.setMem_twi (x : Memory) : (s.setMem x).twi = s.twi := rfl
@[simp] theorem State.setMem_hub (x : Memory) : (s.setMem x).hub = s.hub := rfl
@[simp] theorem State.setMem_power (x : Memory) : (s.setMem x).power = s.power := rfl
@[simp] theorem State.setMem_flash (x : Memory) : (s.setMem x).flash = s.flash := rfl
@[simp] theorem State.setMem_mirrors (x : Memory) : (s.setMem x).mirrors = s.mirrors := rfl
@[simp] theorem State.setMem_free (x : Memory) : (s.setMem x).free = s.free := rfl
@[simp] theorem State.setMem_out (x : Memory) : (s.setMem x).out = s.out := rfl
@[simp] theorem State.setMem_pending (x : Memory) : (s.setMem x).pending = s.pending := rfl
@[simp] theorem State.setMem_reg (x : Memory) (o₁ : Nat) : (s.setMem x).reg o₁ = s.reg o₁ := rfl
@[simp] theorem State.setMem_areg (x : Memory) (o₁ : Nat) : (s.setMem x).areg o₁ = s.areg o₁ := rfl
@[simp] theorem State.setMem_fld (x : Memory) (o₁ : Nat) (f₁ : Fld) : (s.setMem x).fld o₁ f₁ = s.fld o₁ f₁ := rfl
@[simp] theorem State.setMem_afld (x : Memory) (o₁ : Nat) (f₁ : Fld) : (s.setMem x).afld o₁ f₁ = s.afld o₁ f₁ := rfl
@[simp] theorem State.setMem_thread (x : Memory) (k₁ : Nat) : (s.setMem x).thread k₁ = s.thread k₁ := rfl
@[simp] theorem State.setMem_queue (x : Memory) (c₁ q₁ : Nat) : (s.setMem x).queue c₁ q₁ = s.queue c₁ q₁ := rfl
@[simp] theorem State.setMem_part (x : Memory) (k₁ : Nat) : (s.setMem x).part k₁ = s.part k₁ := rfl
@[simp] theorem State.setMem_layer (x : Memory) (k₁ : Nat) : (s.setMem x).layer k₁ = s.layer k₁ := rfl
@[simp] theorem State.setMem_snp (x : Memory) (k₁ : Nat) : (s.setMem x).snp k₁ = s.snp k₁ := rfl
@[simp] theorem State.setMem_mirror (x : Memory) (k₁ : Nat) : (s.setMem x).mirror k₁ = s.mirror k₁ := rfl
@[simp] theorem State.setMem_item (x : Memory) (k₁ : Nat) : (s.setMem x).item k₁ = s.item k₁ := rfl

@[simp] theorem State.setLog_log (x : EventLog) : (s.setLog x).log = x := rfl
@[simp] theorem State.setLog_now (x : EventLog) : (s.setLog x).now = s.now := rfl
@[simp] theorem State.setLog_regs (x : EventLog) : (s.setLog x).regs = s.regs := rfl
@[simp] theorem State.setLog_mem (x : EventLog) : (s.setLog x).mem = s.mem := rfl
@[simp] theorem State.setLog_items (x : EventLog) : (s.setLog x).items = s.items := rfl
@[simp] theorem State.setLog_threads (x : EventLog) : (s.setLog x).threads = s.threads := rfl
@[simp] theorem State.setLog_progs (x : EventLog) : (s.setLog x).progs = s.progs := rfl
@[simp] theorem State.setLog_parts (x : EventLog) : (s.setLog x).parts = s.parts := rfl
@[simp] theorem State.setLog_clrpend (x : EventLog) : (s.setLog x).clrpend = s.clrpend := rfl
@[simp] theorem State.setLog_queues (x : EventLog) : (s.setLog x).queues = s.queues := rfl
@[simp] theorem State.setLog_stash (x : EventLog) : (s.setLog x).stash = s.stash := rfl
@[simp] theorem State.setLog_cores (x : EventLog) : (s.setLog x).cores = s.cores := rfl
@[simp] theorem State.setLog_vctxs (x : EventLog) : (s.setLog x).vctxs = s.vctxs := rfl
@[simp] theorem State.setLog_curves (x : EventLog) : (s.setLog x).curves = s.curves := rfl
@[simp] theorem State.setLog_chans (x : EventLog) : (s.setLog x).chans = s.chans := rfl
@[simp] theorem State.setLog_stackTab (x : EventLog) : (s.setLog x).stackTab = s.stackTab := rfl
@[simp] theorem State.setLog_retSave (x : EventLog) : (s.setLog x).retSave = s.retSave := rfl
@[simp] theorem State.setLog_snps (x : EventLog) : (s.setLog x).snps = s.snps := rfl
@[simp] theorem State.setLog_layers (x : EventLog) : (s.setLog x).layers = s.layers := rfl
@[simp] theorem State.setLog_fab (x : EventLog) : (s.setLog x).fab = s.fab := rfl
@[simp] theorem State.setLog_drift (x : EventLog) : (s.setLog x).drift = s.drift := rfl
@[simp] theorem State.setLog_ports (x : EventLog) : (s.setLog x).ports = s.ports := rfl
@[simp] theorem State.setLog_twi (x : EventLog) : (s.setLog x).twi = s.twi := rfl
@[simp] theorem State.setLog_hub (x : EventLog) : (s.setLog x).hub = s.hub := rfl
@[simp] theorem State.setLog_power (x : EventLog) : (s.setLog x).power = s.power := rfl
@[simp] theorem State.setLog_flash (x : EventLog) : (s.setLog x).flash = s.flash := rfl
@[simp] theorem State.setLog_mirrors (x : EventLog) : (s.setLog x).mirrors = s.mirrors := rfl
@[simp] theorem State.setLog_free (x : EventLog) : (s.setLog x).free = s.free := rfl
@[simp] theorem State.setLog_out (x : EventLog) : (s.setLog x).out = s.out := rfl
@[simp] theorem State.setLog_pending (x : EventLog) : (s.setLog x).pending = s.pending := rfl
@[simp] theorem State.setLog_reg (x : EventLog) (o₁ : Nat) : (s.setLog x).reg o₁ = s.reg o₁ := rfl
@[simp] theorem State.setLog_areg (x : EventLog) (o₁ : Nat) : (s.setLog x).areg o₁ = s.areg o₁ := rfl
@[simp] theorem State.setLog_fld (x : EventLog) (o₁ : Nat) (f₁ : Fld) : (s.setLog x).fld o₁ f₁ = s.fld o₁ f₁ := rfl
@[simp] theorem State.setLog_afld (x : EventLog) (o₁ : Nat) (f₁ : Fld) : (s.setLog x).afld o₁ f₁ = s.afld o₁ f₁ := rfl
@[simp] theorem State.setLog_thread (x : EventLog) (k₁ : Nat) : (s.setLog x).thread k₁ = s.thread k₁ := rfl
@[simp] theorem State.setLog_queue (x : EventLog) (c₁ q₁ : Nat) : (s.setLog x).queue c₁ q₁ = s.queue c₁ q₁ := rfl
@[simp] theorem State.setLog_part (x : EventLog) (k₁ : Nat) : (s.setLog x).part k₁ = s.part k₁ := rfl
@[simp] theorem State.setLog_layer (x : EventLog) (k₁ : Nat) : (s.setLog x).layer k₁ = s.layer k₁ := rfl
@[simp] theorem State.setLog_snp (x : EventLog) (k₁ : Nat) : (s.setLog x).snp k₁ = s.snp k₁ := rfl
@[simp] theorem State.setLog_mirror (x : EventLog) (k₁ : Nat) : (s.setLog x).mirror k₁ = s.mirror k₁ := rfl
@[simp] theorem State.setLog_bytes (x : EventLog) (a₁ n₁ : Nat) : (s.setLog x).bytes a₁ n₁ = s.bytes a₁ n₁ := rfl
@[simp] theorem State.setLog_item (x : EventLog) (k₁ : Nat) : (s.setLog x).item k₁ = s.item k₁ := rfl

@[simp] theorem State.setItems_items (x : Items) : (s.setItems x).items = x := rfl
@[simp] theorem State.setItems_now (x : Items) : (s.setItems x).now = s.now := rfl
@[simp] theorem State.setItems_regs (x : Items) : (s.setItems x).regs = s.regs := rfl
@[simp] theorem State.setItems_mem (x : Items) : (s.setItems x).mem = s.mem := rfl
@[simp] theorem State.setItems_log (x : Items) : (s.setItems x).log = s.log := rfl
@[simp] theorem State.setItems_threads (x : Items) : (s.setItems x).threads = s.threads := rfl
@[simp] theorem State.setItems_progs (x : Items) : (s.setItems x).progs = s.progs := rfl
@[simp] theorem State.setItems_parts (x : Items) : (s.setItems x).parts = s.parts := rfl
@[simp] theorem State.setItems_clrpend (x : Items) : (s.setItems x).clrpend = s.clrpend := rfl
@[simp] theorem State.setItems_queues (x : Items) : (s.setItems x).queues = s.queues := rfl
@[simp] theorem State.setItems_stash (x : Items) : (s.setItems x).stash = s.stash := rfl
@[simp] theorem State.setItems_cores (x : Items) : (s.setItems x).cores = s.cores := rfl
@[simp] theorem State.setItems_vctxs (x : Items) : (s.setItems x).vctxs = s.vctxs := rfl
@[simp] theorem State.setItems_curves (x : Items) : (s.setItems x).curves = s.curves := rfl
@[simp] theorem State.setItems_chans (x : Items) : (s.setItems x).chans = s.chans := rfl
@[simp] theorem State.setItems_stackTab (x : Items) : (s.setItems x).stackTab = s.stackTab := rfl
@[simp] theorem State.setItems_retSave (x : Items) : (s.setItems x).retSave = s.retSave := rfl
@[simp] theorem State.setItems_snps (x : Items) : (s.setItems x).snps = s.snps := rfl
@[simp] theorem State.setItems_layers (x : Items) : (s.setItems x).layers = s.layers := rfl
@[simp] theorem State.setItems_fab (x : Items) : (s.setItems x).fab = s.fab := rfl
@[simp] theorem State.setItems_drift (x : Items) : (s.setItems x).drift = s.drift := rfl
@[simp] theorem State.setItems_ports (x : Items) : (s.setItems x).ports = s.ports := rfl
@[simp] theorem State.setItems_twi (x : Items) : (s.setItems x).twi = s.twi := rfl
@[simp] theorem State.setItems_hub (x : Items) : (s.setItems x).hub = s.hub := rfl
@[simp] theorem State.setItems_power (x : Items) : (s.setItems x).power = s.power := rfl
@[simp] theorem State.setItems_flash (x : Items) : (s.setItems x).flash = s.flash := rfl
@[simp] theorem State.setItems_mirrors (x : Items) : (s.setItems x).mirrors = s.mirrors := rfl
@[simp] theorem State.setItems_free (x : Items) : (s.setItems x).free = s.free := rfl
@[simp] theorem State.setItems_out (x : Items) : (s.setItems x).out = s.out := rfl
@[simp] theorem State.setItems_pending (x : Items) : (s.setItems x).pending = s.pending := rfl
@[simp] theorem State.setItems_reg (x : Items) (o₁ : Nat) : (s.setItems x).reg o₁ = s.reg o₁ := rfl
@[simp] theorem State.setItems_areg (x : Items) (o₁ : Nat) : (s.setItems x).areg o₁ = s.areg o₁ := rfl
@[simp] theorem State.setItems_fld (x : Items) (o₁ : Nat) (f₁ : Fld) : (s.setItems x).fld o₁ f₁ = s.fld o₁ f₁ := rfl
@[simp] theorem State.setItems_afld (x : Items) (o₁ : Nat) (f₁ : Fld) : (s.setItems x).afld o₁ f₁ = s.afld o₁ f₁ := rfl
@[simp] theorem State.setItems_thread (x : Items) (k₁ : Nat) : (s.setItems x).thread k₁ = s.thread k₁ := rfl
@[simp] theorem State.setItems_queue (x : Items) (c₁ q₁ : Nat) : (s.setItems x).queue c₁ q₁ = s.queue c₁ q₁ := rfl
@[simp] theorem State.setItems_part (x : Items) (k₁ : Nat) : (s.setItems x).part k₁ = s.part k₁ := rfl
@[simp] theorem State.setItems_layer (x : Items) (k₁ : Nat) : (s.setItems x).layer k₁ = s.layer k₁ := rfl
@[simp] theorem State.setItems_snp (x : Items) (k₁ : Nat) : (s.setItems x).snp k₁ = s.snp k₁ := rfl
@[simp] theorem State.setItems_mirror (x : Items) (k₁ : Nat) : (s.setItems x).mirror k₁ = s.mirror k₁ := rfl
@[simp] theorem State.setItems_bytes (x : Items) (a₁ n₁ : Nat) : (s.setItems x).bytes a₁ n₁ = s.bytes a₁ n₁ := rfl

@[simp] theorem State.setThreads_threads (x : Tbl Thread) : (s.setThreads x).threads = x := rfl
@[simp] theorem State.setThreads_now (x : Tbl Thread) : (s.setThreads x).now = s.now := rfl
@[simp] theorem State.setThreads_regs (x : Tbl Thread) : (s.setThreads x).regs = s.regs := rfl
@[simp] theorem State.setThreads_mem (x : Tbl Thread) : (s.setThreads x).mem = s.mem := rfl
@[simp] theorem State.setThreads_log (x : Tbl Thread) : (s.setThreads x).log = s.log := rfl
@[simp] theorem State.setThreads_items (x : Tbl Thread) : (s.setThreads x).items = s.items := rfl
@[simp] theorem State.setThreads_progs (x : Tbl Thread) : (s.setThreads x).progs = s.progs := rfl
@[simp] theorem State.setThreads_parts (x : Tbl Thread) : (s.setThreads x).parts = s.parts := rfl
@[simp] theorem State.setThreads_clrpend (x : Tbl Thread) : (s.setThreads x).clrpend = s.clrpend := rfl
@[simp] theorem State.setThreads_queues (x : Tbl Thread) : (s.setThreads x).queues = s.queues := rfl
@[simp] theorem State.setThreads_stash (x : Tbl Thread) : (s.setThreads x).stash = s.stash := rfl
@[simp] theorem State.setThreads_cores (x : Tbl Thread) : (s.setThreads x).cores = s.cores := rfl
@[simp] theorem State.setThreads_vctxs (x : Tbl Thread) : (s.setThreads x).vctxs = s.vctxs := rfl
@[simp] theorem State.setThreads_curves (x : Tbl Thread) : (s.setThreads x).curves = s.curves := rfl
@[simp] theorem State.setThreads_chans (x : Tbl Thread) : (s.setThreads x).chans = s.chans := rfl
@[simp] theorem State.setThreads_stackTab (x : Tbl Thread) : (s.setThreads x).stackTab = s.stackTab := rfl
@[simp] theorem State.setThreads_retSave (x : Tbl Thread) : (s.setThreads x).retSave = s.retSave := rfl
@[simp] theorem State.setThreads_snps (x : Tbl Thread) : (s.setThreads x).snps = s.snps := rfl
@[simp] theorem State.setThreads_layers (x : Tbl Thread) : (s.setThreads x).layers = s.layers := rfl
@[simp] theorem State.setThreads_fab (x : Tbl Thread) : (s.setThreads x).fab = s.fab := rfl
@[simp] theorem State.setThreads_drift (x : Tbl Thread) : (s.setThreads x).drift = s.drift := rfl
@[simp] theorem State.setThreads_ports (x : Tbl Thread) : (s.setThreads x).ports = s.ports := rfl
@[simp] theorem State.setThreads_twi (x : Tbl Thread) : (s.setThreads x).twi = s.twi := rfl
@[simp] theorem State.setThreads_hub (x : Tbl Thread) : (s.setThreads x).hub = s.hub := rfl
@[simp] theorem State.setThreads_power (x : Tbl Thread) : (s.setThreads x).power = s.power := rfl
@[simp] theorem State.setThreads_flash (x : Tbl Thread) : (s.setThreads x).flash = s.flash := rfl
@[simp] theorem State.setThreads_mirrors (x : Tbl Thread) : (s.setThreads x).mirrors = s.mirrors := rfl
@[simp] theorem State.setThreads_free (x : Tbl Thread) : (s.setThreads x).free = s.free := rfl
@[simp] theorem State.setThreads_out (x : Tbl Thread) : (s.setThreads x).out = s.out := rfl
@[simp] theorem State.setThreads_pending (x : Tbl Thread) : (s.setThreads x).pending = s.pending := rfl
@[simp] theorem State.setThreads_reg (x : Tbl Thread) (o₁ : Nat) : (s.setThreads x).reg o₁ = s.reg o₁ := rfl
@[simp] theorem State.setThreads_areg (x : Tbl Thread) (o₁ : Nat) : (s.setThreads x).areg o₁ = s.areg o₁ := rfl
@[simp] theorem State.setThreads_fld (x : Tbl Thread) (o₁ : Nat) (f₁ : Fld) : (s.setThreads x).fld o₁ f₁ = s.fld o₁ f₁ := rfl
@[simp] theorem State.setThreads_afld (x : Tbl Thread) (o₁ : Nat) (f₁ : Fld) : (s.setThreads x).afld o₁ f₁ = s.afld o₁ f₁ := rfl
@[simp] theorem State.setThreads_queue (x : Tbl Thread) (c₁ q₁ : Nat) : (s.setThreads x).queue c₁ q₁ = s.queue c₁ q₁ := rfl
@[simp] theorem State.setThreads_part (x : Tbl Thread) (k₁ : Nat) : (s.setThreads x).part k₁ = s.part k₁ := rfl
@[simp] theorem State.setThreads_layer (x : Tbl Thread) (k₁ : Nat) : (s.setThreads x).layer k₁ = s.layer k₁ := rfl
@[simp] theorem State.setThreads_snp (x : Tbl Thread) (k₁ : Nat) : (s.setThreads x).snp k₁ = s.snp k₁ := rfl
@[simp] theorem State.setThreads_mirror (x : Tbl Thread) (k₁ : Nat) : (s.setThreads x).mirror k₁ = s.mirror k₁ := rfl
@[simp] theorem State.setThreads_bytes (x : Tbl Thread) (a₁ n₁ : Nat) : (s.setThreads x).bytes a₁ n₁ = s.bytes a₁ n₁ := rfl
@[simp] theorem State.setThreads_item (x : Tbl Thread) (k₁ : Nat) : (s.setThreads x).item k₁ = s.item k₁ := rfl

@[simp] theorem State.setProgs_progs (x : Tbl Progs) : (s.setProgs x).progs = x := rfl
@[simp] theorem State.setProgs_now (x : Tbl Progs) : (s.setProgs x).now = s.now := rfl
@[simp] theorem State.setProgs_regs (x : Tbl Progs) : (s.setProgs x).regs = s.regs := rfl
@[simp] theorem State.setProgs_mem (x : Tbl Progs) : (s.setProgs x).mem = s.mem := rfl
@[simp] theorem State.setProgs_log (x : Tbl Progs) : (s.setProgs x).log = s.log := rfl
@[simp] theorem State.setProgs_items (x : Tbl Progs) : (s.setProgs x).items = s.items := rfl
@[simp] theorem State.setProgs_threads (x : Tbl Progs) : (s.setProgs x).threads = s.threads := rfl
@[simp] theorem State.setProgs_parts (x : Tbl Progs) : (s.setProgs x).parts = s.parts := rfl
@[simp] theorem State.setProgs_clrpend (x : Tbl Progs) : (s.setProgs x).clrpend = s.clrpend := rfl
@[simp] theorem State.setProgs_queues (x : Tbl Progs) : (s.setProgs x).queues = s.queues := rfl
@[simp] theorem State.setProgs_stash (x : Tbl Progs) : (s.setProgs x).stash = s.stash := rfl
@[simp] theorem State.setProgs_cores (x : Tbl Progs) : (s.setProgs x).cores = s.cores := rfl
@[simp] theorem State.setProgs_vctxs (x : Tbl Progs) : (s.setProgs x).vctxs = s.vctxs := rfl
@[simp] theorem State.setProgs_curves (x : Tbl Progs) : (s.setProgs x).curves = s.curves := rfl
@[simp] theorem State.setProgs_chans (x : Tbl Progs) : (s.setProgs x).chans = s.chans := rfl
@[simp] theorem State.setProgs_stackTab (x : Tbl Progs) : (s.setProgs x).stackTab = s.stackTab := rfl
@[simp] theorem State.setProgs_retSave (x : Tbl Progs) : (s.setProgs x).retSave = s.retSave := rfl
@[simp] theorem State.setProgs_snps (x : Tbl Progs) : (s.setProgs x).snps = s.snps := rfl
@[simp] theorem State.setProgs_layers (x : Tbl Progs) : (s.setProgs x).layers = s.layers := rfl
@[simp] theorem State.setProgs_fab (x : Tbl Progs) : (s.setProgs x).fab = s.fab := rfl
@[simp] theorem State.setProgs_drift (x : Tbl Progs) : (s.setProgs x).drift = s.drift := rfl
@[simp] theorem State.setProgs_ports (x : Tbl Progs) : (s.setProgs x).ports = s.ports := rfl
@[simp] theorem State.setProgs_twi (x : Tbl Progs) : (s.setProgs x).twi = s.twi := rfl
@[simp] theorem State.setProgs_hub (x : Tbl Progs) : (s.setProgs x).hub = s.hub := rfl
@[simp] theorem State.setProgs_power (x : Tbl Progs) : (s.setProgs x).power = s.power := rfl
@[simp] theorem State.setProgs_flash (x : Tbl Progs) : (s.setProgs x).flash = s.flash := rfl
@[simp] theorem State.setProgs_mirrors (x : Tbl Progs) : (s.setProgs x).mirrors = s.mirrors := rfl
@[simp] theorem State.setProgs_free (x : Tbl Progs) : (s.setProgs x).free = s.free := rfl
@[simp] theorem State.setProgs_out (x : Tbl Progs) : (s.setProgs x).out = s.out := rfl
@[simp] theorem State.setProgs_pending (x : Tbl Progs) : (s.setProgs x).pending = s.pending := rfl
@[simp] theorem State.setProgs_reg (x : Tbl Progs) (o₁ : Nat) : (s.setProgs x).reg o₁ = s.reg o₁ := rfl
@[simp] theorem State.setProgs_areg (x : Tbl Progs) (o₁ : Nat) : (s.setProgs x).areg o₁ = s.areg o₁ := rfl
@[simp] theorem State.setProgs_fld (x : Tbl Progs) (o₁ : Nat) (f₁ : Fld) : (s.setProgs x).fld o₁ f₁ = s.fld o₁ f₁ := rfl
@[simp] theorem State.setProgs_afld (x : Tbl Progs) (o₁ : Nat) (f₁ : Fld) : (s.setProgs x).afld o₁ f₁ = s.afld o₁ f₁ := rfl
@[simp] theorem State.setProgs_thread (x : Tbl Progs) (k₁ : Nat) : (s.setProgs x).thread k₁ = s.thread k₁ := rfl
@[simp] theorem State.setProgs_queue (x : Tbl Progs) (c₁ q₁ : Nat) : (s.setProgs x).queue c₁ q₁ = s.queue c₁ q₁ := rfl
@[simp] theorem State.setProgs_part (x : Tbl Progs) (k₁ : Nat) : (s.setProgs x).part k₁ = s.part k₁ := rfl
@[simp] theorem State.setProgs_layer (x : Tbl Progs) (k₁ : Nat) : (s.setProgs x).layer k₁ = s.layer k₁ := rfl
@[simp] theorem State.setProgs_snp (x : Tbl Progs) (k₁ : Nat) : (s.setProgs x).snp k₁ = s.snp k₁ := rfl
@[simp] theorem State.setProgs_mirror (x : Tbl Progs) (k₁ : Nat) : (s.setProgs x).mirror k₁ = s.mirror k₁ := rfl
@[simp] theorem State.setProgs_bytes (x : Tbl Progs) (a₁ n₁ : Nat) : (s.setProgs x).bytes a₁ n₁ = s.bytes a₁ n₁ := rfl
@[simp] theorem State.setProgs_item (x : Tbl Progs) (k₁ : Nat) : (s.setProgs x).item k₁ = s.item k₁ := rfl

@[simp] theorem State.setParts_parts (x : Tbl Part) : (s.setParts x).parts = x := rfl
@[simp] theorem State.setParts_now (x : Tbl Part) : (s.setParts x).now = s.now := rfl
@[simp] theorem State.setParts_regs (x : Tbl Part) : (s.setParts x).regs = s.regs := rfl
@[simp] theorem State.setParts_mem (x : Tbl Part) : (s.setParts x).mem = s.mem := rfl
@[simp] theorem State.setParts_log (x : Tbl Part) : (s.setParts x).log = s.log := rfl
@[simp] theorem State.setParts_items (x : Tbl Part) : (s.setParts x).items = s.items := rfl
@[simp] theorem State.setParts_threads (x : Tbl Part) : (s.setParts x).threads = s.threads := rfl
@[simp] theorem State.setParts_progs (x : Tbl Part) : (s.setParts x).progs = s.progs := rfl
@[simp] theorem State.setParts_clrpend (x : Tbl Part) : (s.setParts x).clrpend = s.clrpend := rfl
@[simp] theorem State.setParts_queues (x : Tbl Part) : (s.setParts x).queues = s.queues := rfl
@[simp] theorem State.setParts_stash (x : Tbl Part) : (s.setParts x).stash = s.stash := rfl
@[simp] theorem State.setParts_cores (x : Tbl Part) : (s.setParts x).cores = s.cores := rfl
@[simp] theorem State.setParts_vctxs (x : Tbl Part) : (s.setParts x).vctxs = s.vctxs := rfl
@[simp] theorem State.setParts_curves (x : Tbl Part) : (s.setParts x).curves = s.curves := rfl
@[simp] theorem State.setParts_chans (x : Tbl Part) : (s.setParts x).chans = s.chans := rfl
@[simp] theorem State.setParts_stackTab (x : Tbl Part) : (s.setParts x).stackTab = s.stackTab := rfl
@[simp] theorem State.setParts_retSave (x : Tbl Part) : (s.setParts x).retSave = s.retSave := rfl
@[simp] theorem State.setParts_snps (x : Tbl Part) : (s.setParts x).snps = s.snps := rfl
@[simp] theorem State.setParts_layers (x : Tbl Part) : (s.setParts x).layers = s.layers := rfl
@[simp] theorem State.setParts_fab (x : Tbl Part) : (s.setParts x).fab = s.fab := rfl
@[simp] theorem State.setParts_drift (x : Tbl Part) : (s.setParts x).drift = s.drift := rfl
@[simp] theorem State.setParts_ports (x : Tbl Part) : (s.setParts x).ports = s.ports := rfl
@[simp] theorem State.setParts_twi (x : Tbl Part) : (s.setParts x).twi = s.twi := rfl
@[simp] theorem State.setParts_hub (x : Tbl Part) : (s.setParts x).hub = s.hub := rfl
@[simp] theorem State.setParts_power (x : Tbl Part) : (s.setParts x).power = s.power := rfl
@[simp] theorem State.setParts_flash (x : Tbl Part) : (s.setParts x).flash = s.flash := rfl
@[simp] theorem State.setParts_mirrors (x : Tbl Part) : (s.setParts x).mirrors = s.mirrors := rfl
@[simp] theorem State.setParts_free (x : Tbl Part) : (s.setParts x).free = s.free := rfl
@[simp] theorem State.setParts_out (x : Tbl Part) : (s.setParts x).out = s.out := rfl
@[simp] theorem State.setParts_pending (x : Tbl Part) : (s.setParts x).pending = s.pending := rfl
@[simp] theorem State.setParts_reg (x : Tbl Part) (o₁ : Nat) : (s.setParts x).reg o₁ = s.reg o₁ := rfl
@[simp] theorem State.setParts_areg (x : Tbl Part) (o₁ : Nat) : (s.setParts x).areg o₁ = s.areg o₁ := rfl
@[simp] theorem State.setParts_fld (x : Tbl Part) (o₁ : Nat) (f₁ : Fld) : (s.setParts x).fld o₁ f₁ = s.fld o₁ f₁ := rfl
@[simp] theorem State.setParts_afld (x : Tbl Part) (o₁ : Nat) (f₁ : Fld) : (s.setParts x).afld o₁ f₁ = s.afld o₁ f₁ := rfl
@[simp] theorem State.setParts_thread (x : Tbl Part) (k₁ : Nat) : (s.setParts x).thread k₁ = s.thread k₁ := rfl
@[simp] theorem State.setParts_queue (x : Tbl Part) (c₁ q₁ : Nat) : (s.setParts x).queue c₁ q₁ = s.queue c₁ q₁ := rfl
@[simp] theorem State.setParts_layer (x : Tbl Part) (k₁ : Nat) : (s.setParts x).layer k₁ = s.layer k₁ := rfl
@[simp] theorem State.setParts_snp (x : Tbl Part) (k₁ : Nat) : (s.setParts x).snp k₁ = s.snp k₁ := rfl
@[simp] theorem State.setParts_mirror (x : Tbl Part) (k₁ : Nat) : (s.setParts x).mirror k₁ = s.mirror k₁ := rfl
@[simp] theorem State.setParts_bytes (x : Tbl Part) (a₁ n₁ : Nat) : (s.setParts x).bytes a₁ n₁ = s.bytes a₁ n₁ := rfl
@[simp] theorem State.setParts_item (x : Tbl Part) (k₁ : Nat) : (s.setParts x).item k₁ = s.item k₁ := rfl

@[simp] theorem State.setClrpend_clrpend (x : List Nat) : (s.setClrpend x).clrpend = x := rfl
@[simp] theorem State.setClrpend_now (x : List Nat) : (s.setClrpend x).now = s.now := rfl
@[simp] theorem State.setClrpend_regs (x : List Nat) : (s.setClrpend x).regs = s.regs := rfl
@[simp] theorem State.setClrpend_mem (x : List Nat) : (s.setClrpend x).mem = s.mem := rfl
@[simp] theorem State.setClrpend_log (x : List Nat) : (s.setClrpend x).log = s.log := rfl
@[simp] theorem State.setClrpend_items (x : List Nat) : (s.setClrpend x).items = s.items := rfl
@[simp] theorem State.setClrpend_threads (x : List Nat) : (s.setClrpend x).threads = s.threads := rfl
@[simp] theorem State.setClrpend_progs (x : List Nat) : (s.setClrpend x).progs = s.progs := rfl
@[simp] theorem State.setClrpend_parts (x : List Nat) : (s.setClrpend x).parts = s.parts := rfl
@[simp] theorem State.setClrpend_queues (x : List Nat) : (s.setClrpend x).queues = s.queues := rfl
@[simp] theorem State.setClrpend_stash (x : List Nat) : (s.setClrpend x).stash = s.stash := rfl
@[simp] theorem State.setClrpend_cores (x : List Nat) : (s.setClrpend x).cores = s.cores := rfl
@[simp] theorem State.setClrpend_vctxs (x : List Nat) : (s.setClrpend x).vctxs = s.vctxs := rfl
@[simp] theorem State.setClrpend_curves (x : List Nat) : (s.setClrpend x).curves = s.curves := rfl
@[simp] theorem State.setClrpend_chans (x : List Nat) : (s.setClrpend x).chans = s.chans := rfl
@[simp] theorem State.setClrpend_stackTab (x : List Nat) : (s.setClrpend x).stackTab = s.stackTab := rfl
@[simp] theorem State.setClrpend_retSave (x : List Nat) : (s.setClrpend x).retSave = s.retSave := rfl
@[simp] theorem State.setClrpend_snps (x : List Nat) : (s.setClrpend x).snps = s.snps := rfl
@[simp] theorem State.setClrpend_layers (x : List Nat) : (s.setClrpend x).layers = s.layers := rfl
@[simp] theorem State.setClrpend_fab (x : List Nat) : (s.setClrpend x).fab = s.fab := rfl
@[simp] theorem State.setClrpend_drift (x : List Nat) : (s.setClrpend x).drift = s.drift := rfl
@[simp] theorem State.setClrpend_ports (x : List Nat) : (s.setClrpend x).ports = s.ports := rfl
@[simp] theorem State.setClrpend_twi (x : List Nat) : (s.setClrpend x).twi = s.twi := rfl
@[simp] theorem State.setClrpend_hub (x : List Nat) : (s.setClrpend x).hub = s.hub := rfl
@[simp] theorem State.setClrpend_power (x : List Nat) : (s.setClrpend x).power = s.power := rfl
@[simp] theorem State.setClrpend_flash (x : List Nat) : (s.setClrpend x).flash = s.flash := rfl
@[simp] theorem State.setClrpend_mirrors (x : List Nat) : (s.setClrpend x).mirrors = s.mirrors := rfl
@[simp] theorem State.setClrpend_free (x : List Nat) : (s.setClrpend x).free = s.free := rfl
@[simp] theorem State.setClrpend_out (x : List Nat) : (s.setClrpend x).out = s.out := rfl
@[simp] theorem State.setClrpend_pending (x : List Nat) : (s.setClrpend x).pending = s.pending := rfl
@[simp] theorem State.setClrpend_reg (x : List Nat) (o₁ : Nat) : (s.setClrpend x).reg o₁ = s.reg o₁ := rfl
@[simp] theorem State.setClrpend_areg (x : List Nat) (o₁ : Nat) : (s.setClrpend x).areg o₁ = s.areg o₁ := rfl
@[simp] theorem State.setClrpend_fld (x : List Nat) (o₁ : Nat) (f₁ : Fld) : (s.setClrpend x).fld o₁ f₁ = s.fld o₁ f₁ := rfl
@[simp] theorem State.setClrpend_afld (x : List Nat) (o₁ : Nat) (f₁ : Fld) : (s.setClrpend x).afld o₁ f₁ = s.afld o₁ f₁ := rfl
@[simp] theorem State.setClrpend_thread (x : List Nat) (k₁ : Nat) : (s.setClrpend x).thread k₁ = s.thread k₁ := rfl
@[simp] theorem State.setClrpend_queue (x : List Nat) (c₁ q₁ : Nat) : (s.setClrpend x).queue c₁ q₁ = s.queue c₁ q₁ := rfl
@[simp] theorem State.setClrpend_part (x : List Nat) (k₁ : Nat) : (s.setClrpend x).part k₁ = s.part k₁ := rfl
@[simp] theorem State.setClrpend_layer (x : List Nat) (k₁ : Nat) : (s.setClrpend x).layer k₁ = s.layer k₁ := rfl
@[simp] theorem State.setClrpend_snp (x : List Nat) (k₁ : Nat) : (s.setClrpend x).snp k₁ = s.snp k₁ := rfl
@[simp] theorem State.setClrpend_mirror (x : List Nat) (k₁ : Nat) : (s.setClrpend x).mirror k₁ = s.mirror k₁ := rfl
@[simp] theorem State.setClrpend_bytes (x : List Nat) (a₁ n₁ : Nat) : (s.setClrpend x).bytes a₁ n₁ = s.bytes a₁ n₁ := rfl
@[simp] theorem State.setClrpend_item (x : List Nat) (k₁ : Nat) : (s.setClrpend x).item k₁ = s.item k₁ := rfl

@[simp] theorem State.setQueues_queues (x : Tbl Queue) : (s.setQueues x).queues = x := rfl
@[simp] theorem State.setQueues_now (x : Tbl Queue) : (s.setQueues x).now = s.now := rfl
@[simp] theorem State.setQueues_regs (x : Tbl Queue) : (s.setQueues x).regs = s.regs := rfl
@[simp] theorem State.setQueues_mem (x : Tbl Queue) : (s.setQueues x).mem = s.mem := rfl
@[simp] theorem State.setQueues_log (x : Tbl Queue) : (s.setQueues x).log = s.log := rfl
@[simp] theorem State.setQueues_items (x : Tbl Queue) : (s.setQueues x).items = s.items := rfl
@[simp] theorem State.setQueues_threads (x : Tbl Queue) : (s.setQueues x).threads = s.threads := rfl
@[simp] theorem State.setQueues_progs (x : Tbl Queue) : (s.setQueues x).progs = s.progs := rfl
@[simp] theorem State.setQueues_parts (x : Tbl Queue) : (s.setQueues x).parts = s.parts := rfl
@[simp] theorem State.setQueues_clrpend (x : Tbl Queue) : (s.setQueues x).clrpend = s.clrpend := rfl
@[simp] theorem State.setQueues_stash (x : Tbl Queue) : (s.setQueues x).stash = s.stash := rfl
@[simp] theorem State.setQueues_cores (x : Tbl Queue) : (s.setQueues x).cores = s.cores := rfl
@[simp] theorem State.setQueues_vctxs (x : Tbl Queue) : (s.setQueues x).vctxs = s.vctxs := rfl
@[simp] theorem State.setQueues_curves (x : Tbl Queue) : (s.setQueues x).curves = s.curves := rfl
@[simp] theorem State.setQueues_chans (x : Tbl Queue) : (s.setQueues x).chans = s.chans := rfl
@[simp] theorem State.setQueues_stackTab (x : Tbl Queue) : (s.setQueues x).stackTab = s.stackTab := rfl
@[simp] theorem State.setQueues_retSave (x : Tbl Queue) : (s.setQueues x).retSave = s.retSave := rfl
@[simp] theorem State.setQueues_snps (x : Tbl Queue) : (s.setQueues x).snps = s.snps := rfl
@[simp] theorem State.setQueues_layers (x : Tbl Queue) : (s.setQueues x).layers = s.layers := rfl
@[simp] theorem State.setQueues_fab (x : Tbl Queue) : (s.setQueues x).fab = s.fab := rfl
@[simp] theorem State.setQueues_drift (x : Tbl Queue) : (s.setQueues x).drift = s.drift := rfl
@[simp] theorem State.setQueues_ports (x : Tbl Queue) : (s.setQueues x).ports = s.ports := rfl
@[simp] theorem State.setQueues_twi (x : Tbl Queue) : (s.setQueues x).twi = s.twi := rfl
@[simp] theorem State.setQueues_hub (x : Tbl Queue) : (s.setQueues x).hub = s.hub := rfl
@[simp] theorem State.setQueues_power (x : Tbl Queue) : (s.setQueues x).power = s.power := rfl
@[simp] theorem State.setQueues_flash (x : Tbl Queue) : (s.setQueues x).flash = s.flash := rfl
@[simp] theorem State.setQueues_mirrors (x : Tbl Queue) : (s.setQueues x).mirrors = s.mirrors := rfl
@[simp] theorem State.setQueues_free (x : Tbl Queue) : (s.setQueues x).free = s.free := rfl
@[simp] theorem State.setQueues_out (x : Tbl Queue) : (s.setQueues x).out = s.out := rfl
@[simp] theorem State.setQueues_pending (x : Tbl Queue) : (s.setQueues x).pending = s.pending := rfl
@[simp] theorem State.setQueues_reg (x : Tbl Queue) (o₁ : Nat) : (s.setQueues x).reg o₁ = s.reg o₁ := rfl
@[simp] theorem State.setQueues_areg (x : Tbl Queue) (o₁ : Nat) : (s.setQueues x).areg o₁ = s.areg o₁ := rfl
@[simp] theorem State.setQueues_fld (x : Tbl Queue) (o₁ : Nat) (f₁ : Fld) : (s.setQueues x).fld o₁ f₁ = s.fld o₁ f₁ := rfl
@[simp] theorem State.setQueues_afld (x : Tbl Queue) (o₁ : Nat) (f₁ : Fld) : (s.setQueues x).afld o₁ f₁ = s.afld o₁ f₁ := rfl
@[simp] theorem State.setQueues_thread (x : Tbl Queue) (k₁ : Nat) : (s.setQueues x).thread k₁ = s.thread k₁ := rfl
@[simp] theorem State.setQueues_part (x : Tbl Queue) (k₁ : Nat) : (s.setQueues x).part k₁ = s.part k₁ := rfl
@[simp] theorem State.setQueues_layer (x : Tbl Queue) (k₁ : Nat) : (s.setQueues x).layer k₁ = s.layer k₁ := rfl
@[simp] theorem State.setQueues_snp (x : Tbl Queue) (k₁ : Nat) : (s.setQueues x).snp k₁ = s.snp k₁ := rfl
@[simp] theorem State.setQueues_mirror (x : Tbl Queue) (k₁ : Nat) : (s.setQueues x).mirror k₁ = s.mirror k₁ := rfl
@[simp] theorem State.setQueues_bytes (x : Tbl Queue) (a₁ n₁ : Nat) : (s.setQueues x).bytes a₁ n₁ = s.bytes a₁ n₁ := rfl
@[simp] theorem State.setQueues_item (x : Tbl Queue) (k₁ : Nat) : (s.setQueues x).item k₁ = s.item k₁ := rfl

@[simp] theorem State.setStashes_stash (x : Tbl Stash) : (s.setStashes x).stash = x := rfl
@[simp] theorem State.setStashes_now (x : Tbl Stash) : (s.setStashes x).now = s.now := rfl
@[simp] theorem State.setStashes_regs (x : Tbl Stash) : (s.setStashes x).regs = s.regs := rfl
@[simp] theorem State.setStashes_mem (x : Tbl Stash) : (s.setStashes x).mem = s.mem := rfl
@[simp] theorem State.setStashes_log (x : Tbl Stash) : (s.setStashes x).log = s.log := rfl
@[simp] theorem State.setStashes_items (x : Tbl Stash) : (s.setStashes x).items = s.items := rfl
@[simp] theorem State.setStashes_threads (x : Tbl Stash) : (s.setStashes x).threads = s.threads := rfl
@[simp] theorem State.setStashes_progs (x : Tbl Stash) : (s.setStashes x).progs = s.progs := rfl
@[simp] theorem State.setStashes_parts (x : Tbl Stash) : (s.setStashes x).parts = s.parts := rfl
@[simp] theorem State.setStashes_clrpend (x : Tbl Stash) : (s.setStashes x).clrpend = s.clrpend := rfl
@[simp] theorem State.setStashes_queues (x : Tbl Stash) : (s.setStashes x).queues = s.queues := rfl
@[simp] theorem State.setStashes_cores (x : Tbl Stash) : (s.setStashes x).cores = s.cores := rfl
@[simp] theorem State.setStashes_vctxs (x : Tbl Stash) : (s.setStashes x).vctxs = s.vctxs := rfl
@[simp] theorem State.setStashes_curves (x : Tbl Stash) : (s.setStashes x).curves = s.curves := rfl
@[simp] theorem State.setStashes_chans (x : Tbl Stash) : (s.setStashes x).chans = s.chans := rfl
@[simp] theorem State.setStashes_stackTab (x : Tbl Stash) : (s.setStashes x).stackTab = s.stackTab := rfl
@[simp] theorem State.setStashes_retSave (x : Tbl Stash) : (s.setStashes x).retSave = s.retSave := rfl
@[simp] theorem State.setStashes_snps (x : Tbl Stash) : (s.setStashes x).snps = s.snps := rfl
@[simp] theorem State.setStashes_layers (x : Tbl Stash) : (s.setStashes x).layers = s.layers := rfl
@[simp] theorem State.setStashes_fab (x : Tbl Stash) : (s.setStashes x).fab = s.fab := rfl
@[simp] theorem State.setStashes_drift (x : Tbl Stash) : (s.setStashes x).drift = s.drift := rfl
@[simp] theorem State.setStashes_ports (x : Tbl Stash) : (s.setStashes x).ports = s.ports := rfl
@[simp] theorem State.setStashes_twi (x : Tbl Stash) : (s.setStashes x).twi = s.twi := rfl
@[simp] theorem State.setStashes_hub (x : Tbl Stash) : (s.setStashes x).hub = s.hub := rfl
@[simp] theorem State.setStashes_power (x : Tbl Stash) : (s.setStashes x).power = s.power := rfl
@[simp] theorem State.setStashes_flash (x : Tbl Stash) : (s.setStashes x).flash = s.flash := rfl
@[simp] theorem State.setStashes_mirrors (x : Tbl Stash) : (s.setStashes x).mirrors = s.mirrors := rfl
@[simp] theorem State.setStashes_free (x : Tbl Stash) : (s.setStashes x).free = s.free := rfl
@[simp] theorem State.setStashes_out (x : Tbl Stash) : (s.setStashes x).out = s.out := rfl
@[simp] theorem State.setStashes_pending (x : Tbl Stash) : (s.setStashes x).pending = s.pending := rfl
@[simp] theorem State.setStashes_reg (x : Tbl Stash) (o₁ : Nat) : (s.setStashes x).reg o₁ = s.reg o₁ := rfl
@[simp] theorem State.setStashes_areg (x : Tbl Stash) (o₁ : Nat) : (s.setStashes x).areg o₁ = s.areg o₁ := rfl
@[simp] theorem State.setStashes_fld (x : Tbl Stash) (o₁ : Nat) (f₁ : Fld) : (s.setStashes x).fld o₁ f₁ = s.fld o₁ f₁ := rfl
@[simp] theorem State.setStashes_afld (x : Tbl Stash) (o₁ : Nat) (f₁ : Fld) : (s.setStashes x).afld o₁ f₁ = s.afld o₁ f₁ := rfl
@[simp] theorem State.setStashes_thread (x : Tbl Stash) (k₁ : Nat) : (s.setStashes x).thread k₁ = s.thread k₁ := rfl
@[simp] theorem State.setStashes_queue (x : Tbl Stash) (c₁ q₁ : Nat) : (s.setStashes x).queue c₁ q₁ = s.queue c₁ q₁ := rfl
@[simp] theorem State.setStashes_part (x : Tbl Stash) (k₁ : Nat) : (s.setStashes x).part k₁ = s.part k₁ := rfl
@[simp] theorem State.setStashes_layer (x : Tbl Stash) (k₁ : Nat) : (s.setStashes x).layer k₁ = s.layer k₁ := rfl
@[simp] theorem State.setStashes_snp (x : Tbl Stash) (k₁ : Nat) : (s.setStashes x).snp k₁ = s.snp k₁ := rfl
@[simp] theorem State.setStashes_mirror (x : Tbl Stash) (k₁ : Nat) : (s.setStashes x).mirror k₁ = s.mirror k₁ := rfl
@[simp] theorem State.setStashes_bytes (x : Tbl Stash) (a₁ n₁ : Nat) : (s.setStashes x).bytes a₁ n₁ = s.bytes a₁ n₁ := rfl
@[simp] theorem State.setStashes_item (x : Tbl Stash) (k₁ : Nat) : (s.setStashes x).item k₁ = s.item k₁ := rfl

@[simp] theorem State.setCores_cores (x : Tbl MatCore) : (s.setCores x).cores = x := rfl
@[simp] theorem State.setCores_now (x : Tbl MatCore) : (s.setCores x).now = s.now := rfl
@[simp] theorem State.setCores_regs (x : Tbl MatCore) : (s.setCores x).regs = s.regs := rfl
@[simp] theorem State.setCores_mem (x : Tbl MatCore) : (s.setCores x).mem = s.mem := rfl
@[simp] theorem State.setCores_log (x : Tbl MatCore) : (s.setCores x).log = s.log := rfl
@[simp] theorem State.setCores_items (x : Tbl MatCore) : (s.setCores x).items = s.items := rfl
@[simp] theorem State.setCores_threads (x : Tbl MatCore) : (s.setCores x).threads = s.threads := rfl
@[simp] theorem State.setCores_progs (x : Tbl MatCore) : (s.setCores x).progs = s.progs := rfl
@[simp] theorem State.setCores_parts (x : Tbl MatCore) : (s.setCores x).parts = s.parts := rfl
@[simp] theorem State.setCores_clrpend (x : Tbl MatCore) : (s.setCores x).clrpend = s.clrpend := rfl
@[simp] theorem State.setCores_queues (x : Tbl MatCore) : (s.setCores x).queues = s.queues := rfl
@[simp] theorem State.setCores_stash (x : Tbl MatCore) : (s.setCores x).stash = s.stash := rfl
@[simp] theorem State.setCores_vctxs (x : Tbl MatCore) : (s.setCores x).vctxs = s.vctxs := rfl
@[simp] theorem State.setCores_curves (x : Tbl MatCore) : (s.setCores x).curves = s.curves := rfl
@[simp] theorem State.setCores_chans (x : Tbl MatCore) : (s.setCores x).chans = s.chans := rfl
@[simp] theorem State.setCores_stackTab (x : Tbl MatCore) : (s.setCores x).stackTab = s.stackTab := rfl
@[simp] theorem State.setCores_retSave (x : Tbl MatCore) : (s.setCores x).retSave = s.retSave := rfl
@[simp] theorem State.setCores_snps (x : Tbl MatCore) : (s.setCores x).snps = s.snps := rfl
@[simp] theorem State.setCores_layers (x : Tbl MatCore) : (s.setCores x).layers = s.layers := rfl
@[simp] theorem State.setCores_fab (x : Tbl MatCore) : (s.setCores x).fab = s.fab := rfl
@[simp] theorem State.setCores_drift (x : Tbl MatCore) : (s.setCores x).drift = s.drift := rfl
@[simp] theorem State.setCores_ports (x : Tbl MatCore) : (s.setCores x).ports = s.ports := rfl
@[simp] theorem State.setCores_twi (x : Tbl MatCore) : (s.setCores x).twi = s.twi := rfl
@[simp] theorem State.setCores_hub (x : Tbl MatCore) : (s.setCores x).hub = s.hub := rfl
@[simp] theorem State.setCores_power (x : Tbl MatCore) : (s.setCores x).power = s.power := rfl
@[simp] theorem State.setCores_flash (x : Tbl MatCore) : (s.setCores x).flash = s.flash := rfl
@[simp] theorem State.setCores_mirrors (x : Tbl MatCore) : (s.setCores x).mirrors = s.mirrors := rfl
@[simp] theorem State.setCores_free (x : Tbl MatCore) : (s.setCores x).free = s.free := rfl
@[simp] theorem State.setCores_out (x : Tbl MatCore) : (s.setCores x).out = s.out := rfl
@[simp] theorem State.setCores_pending (x : Tbl MatCore) : (s.setCores x).pending = s.pending := rfl
@[simp] theorem State.setCores_reg (x : Tbl MatCore) (o₁ : Nat) : (s.setCores x).reg o₁ = s.reg o₁ := rfl
@[simp] theorem State.setCores_areg (x : Tbl MatCore) (o₁ : Nat) : (s.setCores x).areg o₁ = s.areg o₁ := rfl
@[simp] theorem State.setCores_fld (x : Tbl MatCore) (o₁ : Nat) (f₁ : Fld) : (s.setCores x).fld o₁ f₁ = s.fld o₁ f₁ := rfl
@[simp] theorem State.setCores_afld (x : Tbl MatCore) (o₁ : Nat) (f₁ : Fld) : (s.setCores x).afld o₁ f₁ = s.afld o₁ f₁ := rfl
@[simp] theorem State.setCores_thread (x : Tbl MatCore) (k₁ : Nat) : (s.setCores x).thread k₁ = s.thread k₁ := rfl
@[simp] theorem State.setCores_queue (x : Tbl MatCore) (c₁ q₁ : Nat) : (s.setCores x).queue c₁ q₁ = s.queue c₁ q₁ := rfl
@[simp] theorem State.setCores_part (x : Tbl MatCore) (k₁ : Nat) : (s.setCores x).part k₁ = s.part k₁ := rfl
@[simp] theorem State.setCores_layer (x : Tbl MatCore) (k₁ : Nat) : (s.setCores x).layer k₁ = s.layer k₁ := rfl
@[simp] theorem State.setCores_snp (x : Tbl MatCore) (k₁ : Nat) : (s.setCores x).snp k₁ = s.snp k₁ := rfl
@[simp] theorem State.setCores_mirror (x : Tbl MatCore) (k₁ : Nat) : (s.setCores x).mirror k₁ = s.mirror k₁ := rfl
@[simp] theorem State.setCores_bytes (x : Tbl MatCore) (a₁ n₁ : Nat) : (s.setCores x).bytes a₁ n₁ = s.bytes a₁ n₁ := rfl
@[simp] theorem State.setCores_item (x : Tbl MatCore) (k₁ : Nat) : (s.setCores x).item k₁ = s.item k₁ := rfl

@[simp] theorem State.setVctxs_vctxs (x : Tbl VCtx) : (s.setVctxs x).vctxs = x := rfl
@[simp] theorem State.setVctxs_now (x : Tbl VCtx) : (s.setVctxs x).now = s.now := rfl
@[simp] theorem State.setVctxs_regs (x : Tbl VCtx) : (s.setVctxs x).regs = s.regs := rfl
@[simp] theorem State.setVctxs_mem (x : Tbl VCtx) : (s.setVctxs x).mem = s.mem := rfl
@[simp] theorem State.setVctxs_log (x : Tbl VCtx) : (s.setVctxs x).log = s.log := rfl
@[simp] theorem State.setVctxs_items (x : Tbl VCtx) : (s.setVctxs x).items = s.items := rfl
@[simp] theorem State.setVctxs_threads (x : Tbl VCtx) : (s.setVctxs x).threads = s.threads := rfl
@[simp] theorem State.setVctxs_progs (x : Tbl VCtx) : (s.setVctxs x).progs = s.progs := rfl
@[simp] theorem State.setVctxs_parts (x : Tbl VCtx) : (s.setVctxs x).parts = s.parts := rfl
@[simp] theorem State.setVctxs_clrpend (x : Tbl VCtx) : (s.setVctxs x).clrpend = s.clrpend := rfl
@[simp] theorem State.setVctxs_queues (x : Tbl VCtx) : (s.setVctxs x).queues = s.queues := rfl
@[simp] theorem State.setVctxs_stash (x : Tbl VCtx) : (s.setVctxs x).stash = s.stash := rfl
@[simp] theorem State.setVctxs_cores (x : Tbl VCtx) : (s.setVctxs x).cores = s.cores := rfl
@[simp] theorem State.setVctxs_curves (x : Tbl VCtx) : (s.setVctxs x).curves = s.curves := rfl
@[simp] theorem State.setVctxs_chans (x : Tbl VCtx) : (s.setVctxs x).chans = s.chans := rfl
@[simp] theorem State.setVctxs_stackTab (x : Tbl VCtx) : (s.setVctxs x).stackTab = s.stackTab := rfl
@[simp] theorem State.setVctxs_retSave (x : Tbl VCtx) : (s.setVctxs x).retSave = s.retSave := rfl
@[simp] theorem State.setVctxs_snps (x : Tbl VCtx) : (s.setVctxs x).snps = s.snps := rfl
@[simp] theorem State.setVctxs_layers (x : Tbl VCtx) : (s.setVctxs x).layers = s.layers := rfl
@[simp] theorem State.setVctxs_fab (x : Tbl VCtx) : (s.setVctxs x).fab = s.fab := rfl
@[simp] theorem State.setVctxs_drift (x : Tbl VCtx) : (s.setVctxs x).drift = s.drift := rfl
@[simp] theorem State.setVctxs_ports (x : Tbl VCtx) : (s.setVctxs x).ports = s.ports := rfl
@[simp] theorem State.setVctxs_twi (x : Tbl VCtx) : (s.setVctxs x).twi = s.twi := rfl
@[simp] theorem State.setVctxs_hub (x : Tbl VCtx) : (s.setVctxs x).hub = s.hub := rfl
@[simp] theorem State.setVctxs_power (x : Tbl VCtx) : (s.setVctxs x).power = s.power := rfl
@[simp] theorem State.setVctxs_flash (x : Tbl VCtx) : (s.setVctxs x).flash = s.flash := rfl
@[simp] theorem State.setVctxs_mirrors (x : Tbl VCtx) : (s.setVctxs x).mirrors = s.mirrors := rfl
@[simp] theorem State.setVctxs_free (x : Tbl VCtx) : (s.setVctxs x).free = s.free := rfl
@[simp] theorem State.setVctxs_out (x : Tbl VCtx) : (s.setVctxs x).out = s.out := rfl
@[simp] theorem State.setVctxs_pending (x : Tbl VCtx) : (s.setVctxs x).pending = s.pending := rfl
@[simp] theorem State.setVctxs_reg (x : Tbl VCtx) (o₁ : Nat) : (s.setVctxs x).reg o₁ = s.reg o₁ := rfl
@[simp] theorem State.setVctxs_areg (x : Tbl VCtx) (o₁ : Nat) : (s.setVctxs x).areg o₁ = s.areg o₁ := rfl
@[simp] theorem State.setVctxs_fld (x : Tbl VCtx) (o₁ : Nat) (f₁ : Fld) : (s.setVctxs x).fld o₁ f₁ = s.fld o₁ f₁ := rfl
@[simp] theorem State.setVctxs_afld (x : Tbl VCtx) (o₁ : Nat) (f₁ : Fld) : (s.setVctxs x).afld o₁ f₁ = s.afld o₁ f₁ := rfl
@[simp] theorem State.setVctxs_thread (x : Tbl VCtx) (k₁ : Nat) : (s.setVctxs x).thread k₁ = s.thread k₁ := rfl
@[simp] theorem State.setVctxs_queue (x : Tbl VCtx) (c₁ q₁ : Nat) : (s.setVctxs x).queue c₁ q₁ = s.queue c₁ q₁ := rfl
@[simp] theorem State.setVctxs_part (x : Tbl VCtx) (k₁ : Nat) : (s.setVctxs x).part k₁ = s.part k₁ := rfl
@[simp] theorem State.setVctxs_layer (x : Tbl VCtx) (k₁ : Nat) : (s.setVctxs x).layer k₁ = s.layer k₁ := rfl
@[simp] theorem State.setVctxs_snp (x : Tbl VCtx) (k₁ : Nat) : (s.setVctxs x).snp k₁ = s.snp k₁ := rfl
@[simp] theorem State.setVctxs_mirror (x : Tbl VCtx) (k₁ : Nat) : (s.setVctxs x).mirror k₁ = s.mirror k₁ := rfl
@[simp] theorem State.setVctxs_bytes (x : Tbl VCtx) (a₁ n₁ : Nat) : (s.setVctxs x).bytes a₁ n₁ = s.bytes a₁ n₁ := rfl
@[simp] theorem State.setVctxs_item (x : Tbl VCtx) (k₁ : Nat) : (s.setVctxs x).item k₁ = s.item k₁ := rfl

@[simp] theorem State.setCurves_curves (x : Tbl Curve) : (s.setCurves x).curves = x := rfl
@[simp] theorem State.setCurves_now (x : Tbl Curve) : (s.setCurves x).now = s.now := rfl
@[simp] theorem State.setCurves_regs (x : Tbl Curve) : (s.setCurves x).regs = s.regs := rfl
@[simp] theorem State.setCurves_mem (x : Tbl Curve) : (s.setCurves x).mem = s.mem := rfl
@[simp] theorem State.setCurves_log (x : Tbl Curve) : (s.setCurves x).log = s.log := rfl
@[simp] theorem State.setCurves_items (x : Tbl Curve) : (s.setCurves x).items = s.items := rfl
@[simp] theorem State.setCurves_threads (x : Tbl Curve) : (s.setCurves x).threads = s.threads := rfl
@[simp] theorem State.setCurves_progs (x : Tbl Curve) : (s.setCurves x).progs = s.progs := rfl
@[simp] theorem State.setCurves_parts (x : Tbl Curve) : (s.setCurves x).parts = s.parts := rfl
@[simp] theorem State.setCurves_clrpend (x : Tbl Curve) : (s.setCurves x).clrpend = s.clrpend := rfl
@[simp] theorem State.setCurves_queues (x : Tbl Curve) : (s.setCurves x).queues = s.queues := rfl
@[simp] theorem State.setCurves_stash (x : Tbl Curve) : (s.setCurves x).stash = s.stash := rfl
@[simp] theorem State.setCurves_cores (x : Tbl Curve) : (s.setCurves x).cores = s.cores := rfl
@[simp] theorem State.setCurves_vctxs (x : Tbl Curve) : (s.setCurves x).vctxs = s.vctxs := rfl
@[simp] theorem State.setCurves_chans (x : Tbl Curve) : (s.setCurves x).chans = s.chans := rfl
@[simp] theorem State.setCurves_stackTab (x : Tbl Curve) : (s.setCurves x).stackTab = s.stackTab := rfl
@[simp] theorem State.setCurves_retSave (x : Tbl Curve) : (s.setCurves x).retSave = s.retSave := rfl
@[simp] theorem State.setCurves_snps (x : Tbl Curve) : (s.setCurves x).snps = s.snps := rfl
@[simp] theorem State.setCurves_layers (x : Tbl Curve) : (s.setCurves x).layers = s.layers := rfl
@[simp] theorem State.setCurves_fab (x : Tbl Curve) : (s.setCurves x).fab = s.fab := rfl
@[simp] theorem State.setCurves_drift (x : Tbl Curve) : (s.setCurves x).drift = s.drift := rfl
@[simp] theorem State.setCurves_ports (x : Tbl Curve) : (s.setCurves x).ports = s.ports := rfl
@[simp] theorem State.setCurves_twi (x : Tbl Curve) : (s.setCurves x).twi = s.twi := rfl
@[simp] theorem State.setCurves_hub (x : Tbl Curve) : (s.setCurves x).hub = s.hub := rfl
@[simp] theorem State.setCurves_power (x : Tbl Curve) : (s.setCurves x).power = s.power := rfl
@[simp] theorem State.setCurves_flash (x : Tbl Curve) : (s.setCurves x).flash = s.flash := rfl
@[simp] theorem State.setCurves_mirrors (x : Tbl Curve) : (s.setCurves x).mirrors = s.mirrors := rfl
@[simp] theorem State.setCurves_free (x : Tbl Curve) : (s.setCurves x).free = s.free := rfl
@[simp] theorem State.setCurves_out (x : Tbl Curve) : (s.setCurves x).out = s.out := rfl
@[simp] theorem State.setCurves_pending (x : Tbl Curve) : (s.setCurves x).pending = s.pending := rfl
@[simp] theorem State.setCurves_reg (x : Tbl Curve) (o₁ : Nat) : (s.setCurves x).reg o₁ = s.reg o₁ := rfl
@[simp] theorem State.setCurves_areg (x : Tbl Curve) (o₁ : Nat) : (s.setCurves x).areg o₁ = s.areg o₁ := rfl
@[simp] theorem State.setCurves_fld (x : Tbl Curve) (o₁ : Nat) (f₁ : Fld) : (s.setCurves x).fld o₁ f₁ = s.fld o₁ f₁ := rfl
@[simp] theorem State.setCurves_afld (x : Tbl Curve) (o₁ : Nat) (f₁ : Fld) : (s.setCurves x).afld o₁ f₁ = s.afld o₁ f₁ := rfl
@[simp] theorem State.setCurves_thread (x : Tbl Curve) (k₁ : Nat) : (s.setCurves x).thread k₁ = s.thread k₁ := rfl
@[simp] theorem State.setCurves_queue (x : Tbl Curve) (c₁ q₁ : Nat) : (s.setCurves x).queue c₁ q₁ = s.queue c₁ q₁ := rfl
@[simp] theorem State.setCurves_part (x : Tbl Curve) (k₁ : Nat) : (s.setCurves x).part k₁ = s.part k₁ := rfl
@[simp] theorem State.setCurves_layer (x : Tbl Curve) (k₁ : Nat) : (s.setCurves x).layer k₁ = s.layer k₁ := rfl
@[simp] theorem State.setCurves_snp (x : Tbl Curve) (k₁ : Nat) : (s.setCurves x).snp k₁ = s.snp k₁ := rfl
@[simp] theorem State.setCurves_mirror (x : Tbl Curve) (k₁ : Nat) : (s.setCurves x).mirror k₁ = s.mirror k₁ := rfl
@[simp] theorem State.setCurves_bytes (x : Tbl Curve) (a₁ n₁ : Nat) : (s.setCurves x).bytes a₁ n₁ = s.bytes a₁ n₁ := rfl
@[simp] theorem State.setCurves_item (x : Tbl Curve) (k₁ : Nat) : (s.setCurves x).item k₁ = s.item k₁ := rfl

@[simp] theorem State.setChans_chans (x : Tbl Chan) : (s.setChans x).chans = x := rfl
@[simp] theorem State.setChans_now (x : Tbl Chan) : (s.setChans x).now = s.now := rfl
@[simp] theorem State.setChans_regs (x : Tbl Chan) : (s.setChans x).regs = s.regs := rfl
@[simp] theorem State.setChans_mem (x : Tbl Chan) : (s.setChans x).mem = s.mem := rfl
@[simp] theorem State.setChans_log (x : Tbl Chan) : (s.setChans x).log = s.log := rfl
@[simp] theorem State.setChans_items (x : Tbl Chan) : (s.setChans x).items = s.items := rfl
@[simp] theorem State.setChans_threads (x : Tbl Chan) : (s.setChans x).threads = s.threads := rfl
@[simp] theorem State.setChans_progs (x : Tbl Chan) : (s.setChans x).progs = s.progs := rfl
@[simp] theorem State.setChans_parts (x : Tbl Chan) : (s.setChans x).parts = s.parts := rfl
@[simp] theorem State.setChans_clrpend (x : Tbl Chan) : (s.setChans x).clrpend = s.clrpend := rfl
@[simp] theorem State.setChans_queues (x : Tbl Chan) : (s.setChans x).queues = s.queues := rfl
@[simp] theorem State.setChans_stash (x : Tbl Chan) : (s.setChans x).stash = s.stash := rfl
@[simp] theorem State.setChans_cores (x : Tbl Chan) : (s.setChans x).cores = s.cores := rfl
@[simp] theorem State.setChans_vctxs (x : Tbl Chan) : (s.setChans x).vctxs = s.vctxs := rfl
@[simp] theorem State.setChans_curves (x : Tbl Chan) : (s.setChans x).curves = s.curves := rfl
@[simp] theorem State.setChans_stackTab (x : Tbl Chan) : (s.setChans x).stackTab = s.stackTab := rfl
@[simp] theorem State.setChans_retSave (x : Tbl Chan) : (s.setChans x).retSave = s.retSave := rfl
@[simp] theorem State.setChans_snps (x : Tbl Chan) : (s.setChans x).snps = s.snps := rfl
@[simp] theorem State.setChans_layers (x : Tbl Chan) : (s.setChans x).layers = s.layers := rfl
@[simp] theorem State.setChans_fab (x : Tbl Chan) : (s.setChans x).fab = s.fab := rfl
@[simp] theorem State.setChans_drift (x : Tbl Chan) : (s.setChans x).drift = s.drift := rfl
@[simp] theorem State.setChans_ports (x : Tbl Chan) : (s.setChans x).ports = s.ports := rfl
@[simp] theorem State.setChans_twi (x : Tbl Chan) : (s.setChans x).twi = s.twi := rfl
@[simp] theorem State.setChans_hub (x : Tbl Chan) : (s.setChans x).hub = s.hub := rfl
@[simp] theorem State.setChans_power (x : Tbl Chan) : (s.setChans x).power = s.power := rfl
@[simp] theorem State.setChans_flash (x : Tbl Chan) : (s.setChans x).flash = s.flash := rfl
@[simp] theorem State.setChans_mirrors (x : Tbl Chan) : (s.setChans x).mirrors = s.mirrors := rfl
@[simp] theorem State.setChans_free (x : Tbl Chan) : (s.setChans x).free = s.free := rfl
@[simp] theorem State.setChans_out (x : Tbl Chan) : (s.setChans x).out = s.out := rfl
@[simp] theorem State.setChans_pending (x : Tbl Chan) : (s.setChans x).pending = s.pending := rfl
@[simp] theorem State.setChans_reg (x : Tbl Chan) (o₁ : Nat) : (s.setChans x).reg o₁ = s.reg o₁ := rfl
@[simp] theorem State.setChans_areg (x : Tbl Chan) (o₁ : Nat) : (s.setChans x).areg o₁ = s.areg o₁ := rfl
@[simp] theorem State.setChans_fld (x : Tbl Chan) (o₁ : Nat) (f₁ : Fld) : (s.setChans x).fld o₁ f₁ = s.fld o₁ f₁ := rfl
@[simp] theorem State.setChans_afld (x : Tbl Chan) (o₁ : Nat) (f₁ : Fld) : (s.setChans x).afld o₁ f₁ = s.afld o₁ f₁ := rfl
@[simp] theorem State.setChans_thread (x : Tbl Chan) (k₁ : Nat) : (s.setChans x).thread k₁ = s.thread k₁ := rfl
@[simp] theorem State.setChans_queue (x : Tbl Chan) (c₁ q₁ : Nat) : (s.setChans x).queue c₁ q₁ = s.queue c₁ q₁ := rfl
@[simp] theorem State.setChans_part (x : Tbl Chan) (k₁ : Nat) : (s.setChans x).part k₁ = s.part k₁ := rfl
@[simp] theorem State.setChans_layer (x : Tbl Chan) (k₁ : Nat) : (s.setChans x).layer k₁ = s.layer k₁ := rfl
@[simp] theorem State.setChans_snp (x : Tbl Chan) (k₁ : Nat) : (s.setChans x).snp k₁ = s.snp k₁ := rfl
@[simp] theorem State.setChans_mirror (x : Tbl Chan) (k₁ : Nat) : (s.setChans x).mirror k₁ = s.mirror k₁ := rfl
@[simp] theorem State.setChans_bytes (x : Tbl Chan) (a₁ n₁ : Nat) : (s.setChans x).bytes a₁ n₁ = s.bytes a₁ n₁ := rfl
@[simp] theorem State.setChans_item (x : Tbl Chan) (k₁ : Nat) : (s.setChans x).item k₁ = s.item k₁ := rfl

@[simp] theorem State.setStackTab_stackTab (x : Tbl Stack) : (s.setStackTab x).stackTab = x := rfl
@[simp] theorem State.setStackTab_now (x : Tbl Stack) : (s.setStackTab x).now = s.now := rfl
@[simp] theorem State.setStackTab_regs (x : Tbl Stack) : (s.setStackTab x).regs = s.regs := rfl
@[simp] theorem State.setStackTab_mem (x : Tbl Stack) : (s.setStackTab x).mem = s.mem := rfl
@[simp] theorem State.setStackTab_log (x : Tbl Stack) : (s.setStackTab x).log = s.log := rfl
@[simp] theorem State.setStackTab_items (x : Tbl Stack) : (s.setStackTab x).items = s.items := rfl
@[simp] theorem State.setStackTab_threads (x : Tbl Stack) : (s.setStackTab x).threads = s.threads := rfl
@[simp] theorem State.setStackTab_progs (x : Tbl Stack) : (s.setStackTab x).progs = s.progs := rfl
@[simp] theorem State.setStackTab_parts (x : Tbl Stack) : (s.setStackTab x).parts = s.parts := rfl
@[simp] theorem State.setStackTab_clrpend (x : Tbl Stack) : (s.setStackTab x).clrpend = s.clrpend := rfl
@[simp] theorem State.setStackTab_queues (x : Tbl Stack) : (s.setStackTab x).queues = s.queues := rfl
@[simp] theorem State.setStackTab_stash (x : Tbl Stack) : (s.setStackTab x).stash = s.stash := rfl
@[simp] theorem State.setStackTab_cores (x : Tbl Stack) : (s.setStackTab x).cores = s.cores := rfl
@[simp] theorem State.setStackTab_vctxs (x : Tbl Stack) : (s.setStackTab x).vctxs = s.vctxs := rfl
@[simp] theorem State.setStackTab_curves (x : Tbl Stack) : (s.setStackTab x).curves = s.curves := rfl
@[simp] theorem State.setStackTab_chans (x : Tbl Stack) : (s.setStackTab x).chans = s.chans := rfl
@[simp] theorem State.setStackTab_retSave (x : Tbl Stack) : (s.setStackTab x).retSave = s.retSave := rfl
@[simp] theorem State.setStackTab_snps (x : Tbl Stack) : (s.setStackTab x).snps = s.snps := rfl
@[simp] theorem State.setStackTab_layers (x : Tbl Stack) : (s.setStackTab x).layers = s.layers := rfl
@[simp] theorem State.setStackTab_fab (x : Tbl Stack) : (s.setStackTab x).fab = s.fab := rfl
@[simp] theorem State.setStackTab_drift (x : Tbl Stack) : (s.setStackTab x).drift = s.drift := rfl
@[simp] theorem State.setStackTab_ports (x : Tbl Stack) : (s.setStackTab x).ports = s.ports := rfl
@[simp] theorem State.setStackTab_twi (x : Tbl Stack) : (s.setStackTab x).twi = s.twi := rfl
@[simp] theorem State.setStackTab_hub (x : Tbl Stack) : (s.setStackTab x).hub = s.hub := rfl
@[simp] theorem State.setStackTab_power (x : Tbl Stack) : (s.setStackTab x).power = s.power := rfl
@[simp] theorem State.setStackTab_flash (x : Tbl Stack) : (s.setStackTab x).flash = s.flash := rfl
@[simp] theorem State.setStackTab_mirrors (x : Tbl Stack) : (s.setStackTab x).mirrors = s.mirrors := rfl
@[simp] theorem State.setStackTab_free (x : Tbl Stack) : (s.setStackTab x).free = s.free := rfl
@[simp] theorem State.setStackTab_out (x : Tbl Stack) : (s.setStackTab x).out = s.out := rfl
@[simp] theorem State.setStackTab_pending (x : Tbl Stack) : (s.setStackTab x).pending = s.pending := rfl
@[simp] theorem State.setStackTab_reg (x : Tbl Stack) (o₁ : Nat) : (s.setStackTab x).reg o₁ = s.reg o₁ := rfl
@[simp] theorem State.setStackTab_areg (x : Tbl Stack) (o₁ : Nat) : (s.setStackTab x).areg o₁ = s.areg o₁ := rfl
@[simp] theorem State.setStackTab_fld (x : Tbl Stack) (o₁ : Nat) (f₁ : Fld) : (s.setStackTab x).fld o₁ f₁ = s.fld o₁ f₁ := rfl
@[simp] theorem State.setStackTab_afld (x : Tbl Stack) (o₁ : Nat) (f₁ : Fld) : (s.setStackTab x).afld o₁ f₁ = s.afld o₁ f₁ := rfl
@[simp] theorem State.setStackTab_thread (x : Tbl Stack) (k₁ : Nat) : (s.setStackTab x).thread k₁ = s.thread k₁ := rfl
@[simp] theorem State.setStackTab_queue (x : Tbl Stack) (c₁ q₁ : Nat) : (s.setStackTab x).queue c₁ q₁ = s.queue c₁ q₁ := rfl
@[simp] theorem State.setStackTab_part (x : Tbl Stack) (k₁ : Nat) : (s.setStackTab x).part k₁ = s.part k₁ := rfl
@[simp] theorem State.setStackTab_layer (x : Tbl Stack) (k₁ : Nat) : (s.setStackTab x).layer k₁ = s.layer k₁ := rfl
@[simp] theorem State.setStackTab_snp (x : Tbl Stack) (k₁ : Nat) : (s.setStackTab x).snp k₁ = s.snp k₁ := rfl
@[simp] theorem State.setStackTab_mirror (x : Tbl Stack) (k₁ : Nat) : (s.setStackTab x).mirror k₁ = s.mirror k₁ := rfl
@[simp] theorem State.setStackTab_item (x : Tbl Stack) (k₁ : Nat) : (s.setStackTab x).item k₁ = s.item k₁ := rfl

@[simp] theorem State.setRetSave_retSave (x : RetSave) : (s.setRetSave x).retSave = x := rfl
@[simp] theorem State.setRetSave_now (x : RetSave) : (s.setRetSave x).now = s.now := rfl
@[simp] theorem State.setRetSave_regs (x : RetSave) : (s.setRetSave x).regs = s.regs := rfl
@[simp] theorem State.setRetSave_mem (x : RetSave) : (s.setRetSave x).mem = s.mem := rfl
@[simp] theorem State.setRetSave_log (x : RetSave) : (s.setRetSave x).log = s.log := rfl
@[simp] theorem State.setRetSave_items (x : RetSave) : (s.setRetSave x).items = s.items := rfl
@[simp] theorem State.setRetSave_threads (x : RetSave) : (s.setRetSave x).threads = s.threads := rfl
@[simp] theorem State.setRetSave_progs (x : RetSave) : (s.setRetSave x).progs = s.progs := rfl
@[simp] theorem State.setRetSave_parts (x : RetSave) : (s.setRetSave x).parts = s.parts := rfl
@[simp] theorem State.setRetSave_clrpend (x : RetSave) : (s.setRetSave x).clrpend = s.clrpend := rfl
@[simp] theorem State.setRetSave_queues (x : RetSave) : (s.setRetSave x).queues = s.queues := rfl
@[simp] theorem State.setRetSave_stash (x : RetSave) : (s.setRetSave x).stash = s.stash := rfl
@[simp] theorem State.setRetSave_cores (x : RetSave) : (s.setRetSave x).cores = s.cores := rfl
@[simp] theorem State.setRetSave_vctxs (x : RetSave) : (s.setRetSave x).vctxs = s.vctxs := rfl
@[simp] theorem State.setRetSave_curves (x : RetSave) : (s.setRetSave x).curves = s.curves := rfl
@[simp] theorem State.setRetSave_chans (x : RetSave) : (s.setRetSave x).chans = s.chans := rfl
@[simp] theorem State.setRetSave_stackTab (x : RetSave) : (s.setRetSave x).stackTab = s.stackTab := rfl
@[simp] theorem State.setRetSave_snps (x : RetSave) : (s.setRetSave x).snps = s.snps := rfl
@[simp] theorem State.setRetSave_layers (x : RetSave) : (s.setRetSave x).layers = s.layers := rfl
@[simp] theorem State.setRetSave_fab (x : RetSave) : (s.setRetSave x).fab = s.fab := rfl
@[simp] theorem State.setRetSave_drift (x : RetSave) : (s.setRetSave x).drift = s.drift := rfl
@[simp] theorem State.setRetSave_ports (x : RetSave) : (s.setRetSave x).ports = s.ports := rfl
@[simp] theorem State.setRetSave_twi (x : RetSave) : (s.setRetSave x).twi = s.twi := rfl
@[simp] theorem State.setRetSave_hub (x : RetSave) : (s.setRetSave x).hub = s.hub := rfl
@[simp] theorem State.setRetSave_power (x : RetSave) : (s.setRetSave x).power = s.power := rfl
@[simp] theorem State.setRetSave_flash (x : RetSave) : (s.setRetSave x).flash = s.flash := rfl
@[simp] theorem State.setRetSave_mirrors (x : RetSave) : (s.setRetSave x).mirrors = s.mirrors := rfl
@[simp] theorem State.setRetSave_free (x : RetSave) : (s.setRetSave x).free = s.free := rfl
@[simp] theorem State.setRetSave_out (x : RetSave) : (s.setRetSave x).out = s.out := rfl
@[simp] theorem State.setRetSave_pending (x : RetSave) : (s.setRetSave x).pending = s.pending := rfl
@[simp] theorem State.setRetSave_reg (x : RetSave) (o₁ : Nat) : (s.setRetSave x).reg o₁ = s.reg o₁ := rfl
@[simp] theorem State.setRetSave_areg (x : RetSave) (o₁ : Nat) : (s.setRetSave x).areg o₁ = s.areg o₁ := rfl
@[simp] theorem State.setRetSave_fld (x : RetSave) (o₁ : Nat) (f₁ : Fld) : (s.setRetSave x).fld o₁ f₁ = s.fld o₁ f₁ := rfl
@[simp] theorem State.setRetSave_afld (x : RetSave) (o₁ : Nat) (f₁ : Fld) : (s.setRetSave x).afld o₁ f₁ = s.afld o₁ f₁ := rfl
@[simp] theorem State.setRetSave_thread (x : RetSave) (k₁ : Nat) : (s.setRetSave x).thread k₁ = s.thread k₁ := rfl
@[simp] theorem State.setRetSave_queue (x : RetSave) (c₁ q₁ : Nat) : (s.setRetSave x).queue c₁ q₁ = s.queue c₁ q₁ := rfl
@[simp] theorem State.setRetSave_part (x : RetSave) (k₁ : Nat) : (s.setRetSave x).part k₁ = s.part k₁ := rfl
@[simp] theorem State.setRetSave_layer (x : RetSave) (k₁ : Nat) : (s.setRetSave x).layer k₁ = s.layer k₁ := rfl
@[simp] theorem State.setRetSave_snp (x : RetSave) (k₁ : Nat) : (s.setRetSave x).snp k₁ = s.snp k₁ := rfl
@[simp] theorem State.setRetSave_mirror (x : RetSave) (k₁ : Nat) : (s.setRetSave x).mirror k₁ = s.mirror k₁ := rfl
@[simp] theorem State.setRetSave_bytes (x : RetSave) (a₁ n₁ : Nat) : (s.setRetSave x).bytes a₁ n₁ = s.bytes a₁ n₁ := rfl
@[simp] theorem State.setRetSave_item (x : RetSave) (k₁ : Nat) : (s.setRetSave x).item k₁ = s.item k₁ := rfl

@[simp] theorem State.setSnps_snps (x : Tbl Snp) : (s.setSnps x).snps = x := rfl
@[simp] theorem State.setSnps_now (x : Tbl Snp) : (s.setSnps x).now = s.now := rfl
@[simp] theorem State.setSnps_regs (x : Tbl Snp) : (s.setSnps x).regs = s.regs := rfl
@[simp] theorem State.setSnps_mem (x : Tbl Snp) : (s.setSnps x).mem = s.mem := rfl
@[simp] theorem State.setSnps_log (x : Tbl Snp) : (s.setSnps x).log = s.log := rfl
@[simp] theorem State.setSnps_items (x : Tbl Snp) : (s.setSnps x).items = s.items := rfl
@[simp] theorem State.setSnps_threads (x : Tbl Snp) : (s.setSnps x).threads = s.threads := rfl
@[simp] theorem State.setSnps_progs (x : Tbl Snp) : (s.setSnps x).progs = s.progs := rfl
@[simp] theorem State.setSnps_parts (x : Tbl Snp) : (s.setSnps x).parts = s.parts := rfl
@[simp] theorem State.setSnps_clrpend (x : Tbl Snp) : (s.setSnps x).clrpend = s.clrpend := rfl
@[simp] theorem State.setSnps_queues (x : Tbl Snp) : (s.setSnps x).queues = s.queues := rfl
@[simp] theorem State.setSnps_stash (x : Tbl Snp) : (s.setSnps x).stash = s.stash := rfl
@[simp] theorem State.setSnps_cores (x : Tbl Snp) : (s.setSnps x).cores = s.cores := rfl
@[simp] theorem State.setSnps_vctxs (x : Tbl Snp) : (s.setSnps x).vctxs = s.vctxs := rfl
@[simp] theorem State.setSnps_curves (x : Tbl Snp) : (s.setSnps x).curves = s.curves := rfl
@[simp] theorem State.setSnps_chans (x : Tbl Snp) : (s.setSnps x).chans = s.chans := rfl
@[simp] theorem State.setSnps_stackTab (x : Tbl Snp) : (s.setSnps x).stackTab = s.stackTab := rfl
@[simp] theorem State.setSnps_retSave (x : Tbl Snp) : (s.setSnps x).retSave = s.retSave := rfl
@[simp] theorem State.setSnps_layers (x : Tbl Snp) : (s.setSnps x).layers = s.layers := rfl
@[simp] theorem State.setSnps_fab (x : Tbl Snp) : (s.setSnps x).fab = s.fab := rfl
@[simp] theorem State.setSnps_drift (x : Tbl Snp) : (s.setSnps x).drift = s.drift := rfl
@[simp] theorem State.setSnps_ports (x : Tbl Snp) : (s.setSnps x).ports = s.ports := rfl
@[simp] theorem State.setSnps_twi (x : Tbl Snp) : (s.setSnps x).twi = s.twi := rfl
@[simp] theorem State.setSnps_hub (x : Tbl Snp) : (s.setSnps x).hub = s.hub := rfl
@[simp] theorem State.setSnps_power (x : Tbl Snp) : (s.setSnps x).power = s.power := rfl
@[simp] theorem State.setSnps_flash (x : Tbl Snp) : (s.setSnps x).flash = s.flash := rfl
@[simp] theorem State.setSnps_mirrors (x : Tbl Snp) : (s.setSnps x).mirrors = s.mirrors := rfl
@[simp] theorem State.setSnps_free (x : Tbl Snp) : (s.setSnps x).free = s.free := rfl
@[simp] theorem State.setSnps_out (x : Tbl Snp) : (s.setSnps x).out = s.out := rfl
@[simp] theorem State.setSnps_pending (x : Tbl Snp) : (s.setSnps x).pending = s.pending := rfl
@[simp] theorem State.setSnps_reg (x : Tbl Snp) (o₁ : Nat) : (s.setSnps x).reg o₁ = s.reg o₁ := rfl
@[simp] theorem State.setSnps_areg (x : Tbl Snp) (o₁ : Nat) : (s.setSnps x).areg o₁ = s.areg o₁ := rfl
@[simp] theorem State.setSnps_fld (x : Tbl Snp) (o₁ : Nat) (f₁ : Fld) : (s.setSnps x).fld o₁ f₁ = s.fld o₁ f₁ := rfl
@[simp] theorem State.setSnps_afld (x : Tbl Snp) (o₁ : Nat) (f₁ : Fld) : (s.setSnps x).afld o₁ f₁ = s.afld o₁ f₁ := rfl
@[simp] theorem State.setSnps_thread (x : Tbl Snp) (k₁ : Nat) : (s.setSnps x).thread k₁ = s.thread k₁ := rfl
@[simp] theorem State.setSnps_queue (x : Tbl Snp) (c₁ q₁ : Nat) : (s.setSnps x).queue c₁ q₁ = s.queue c₁ q₁ := rfl
@[simp] theorem State.setSnps_part (x : Tbl Snp) (k₁ : Nat) : (s.setSnps x).part k₁ = s.part k₁ := rfl
@[simp] theorem State.setSnps_layer (x : Tbl Snp) (k₁ : Nat) : (s.setSnps x).layer k₁ = s.layer k₁ := rfl
@[simp] theorem State.setSnps_mirror (x : Tbl Snp) (k₁ : Nat) : (s.setSnps x).mirror k₁ = s.mirror k₁ := rfl
@[simp] theorem State.setSnps_bytes (x : Tbl Snp) (a₁ n₁ : Nat) : (s.setSnps x).bytes a₁ n₁ = s.bytes a₁ n₁ := rfl
@[simp] theorem State.setSnps_item (x : Tbl Snp) (k₁ : Nat) : (s.setSnps x).item k₁ = s.item k₁ := rfl

@[simp] theorem State.setLayers_layers (x : Tbl LinkLayer) : (s.setLayers x).layers = x := rfl
@[simp] theorem State.setLayers_now (x : Tbl LinkLayer) : (s.setLayers x).now = s.now := rfl
@[simp] theorem State.setLayers_regs (x : Tbl LinkLayer) : (s.setLayers x).regs = s.regs := rfl
@[simp] theorem State.setLayers_mem (x : Tbl LinkLayer) : (s.setLayers x).mem = s.mem := rfl
@[simp] theorem State.setLayers_log (x : Tbl LinkLayer) : (s.setLayers x).log = s.log := rfl
@[simp] theorem State.setLayers_items (x : Tbl LinkLayer) : (s.setLayers x).items = s.items := rfl
@[simp] theorem State.setLayers_threads (x : Tbl LinkLayer) : (s.setLayers x).threads = s.threads := rfl
@[simp] theorem State.setLayers_progs (x : Tbl LinkLayer) : (s.setLayers x).progs = s.progs := rfl
@[simp] theorem State.setLayers_parts (x : Tbl LinkLayer) : (s.setLayers x).parts = s.parts := rfl
@[simp] theorem State.setLayers_clrpend (x : Tbl LinkLayer) : (s.setLayers x).clrpend = s.clrpend := rfl
@[simp] theorem State.setLayers_queues (x : Tbl LinkLayer) : (s.setLayers x).queues = s.queues := rfl
@[simp] theorem State.setLayers_stash (x : Tbl LinkLayer) : (s.setLayers x).stash = s.stash := rfl
@[simp] theorem State.setLayers_cores (x : Tbl LinkLayer) : (s.setLayers x).cores = s.cores := rfl
@[simp] theorem State.setLayers_vctxs (x : Tbl LinkLayer) : (s.setLayers x).vctxs = s.vctxs := rfl
@[simp] theorem State.setLayers_curves (x : Tbl LinkLayer) : (s.setLayers x).curves = s.curves := rfl
@[simp] theorem State.setLayers_chans (x : Tbl LinkLayer) : (s.setLayers x).chans = s.chans := rfl
@[simp] theorem State.setLayers_stackTab (x : Tbl LinkLayer) : (s.setLayers x).stackTab = s.stackTab := rfl
@[simp] theorem State.setLayers_retSave (x : Tbl LinkLayer) : (s.setLayers x).retSave = s.retSave := rfl
@[simp] theorem State.setLayers_snps (x : Tbl LinkLayer) : (s.setLayers x).snps = s.snps := rfl
@[simp] theorem State.setLayers_fab (x : Tbl LinkLayer) : (s.setLayers x).fab = s.fab := rfl
@[simp] theorem State.setLayers_drift (x : Tbl LinkLayer) : (s.setLayers x).drift = s.drift := rfl
@[simp] theorem State.setLayers_ports (x : Tbl LinkLayer) : (s.setLayers x).ports = s.ports := rfl
@[simp] theorem State.setLayers_twi (x : Tbl LinkLayer) : (s.setLayers x).twi = s.twi := rfl
@[simp] theorem State.setLayers_hub (x : Tbl LinkLayer) : (s.setLayers x).hub = s.hub := rfl
@[simp] theorem State.setLayers_power (x : Tbl LinkLayer) : (s.setLayers x).power = s.power := rfl
@[simp] theorem State.setLayers_flash (x : Tbl LinkLayer) : (s.setLayers x).flash = s.flash := rfl
@[simp] theorem State.setLayers_mirrors (x : Tbl LinkLayer) : (s.setLayers x).mirrors = s.mirrors := rfl
@[simp] theorem State.setLayers_free (x : Tbl LinkLayer) : (s.setLayers x).free = s.free := rfl
@[simp] theorem State.setLayers_out (x : Tbl LinkLayer) : (s.setLayers x).out = s.out := rfl
@[simp] theorem State.setLayers_pending (x : Tbl LinkLayer) : (s.setLayers x).pending = s.pending := rfl
@[simp] theorem State.setLayers_reg (x : Tbl LinkLayer) (o₁ : Nat) : (s.setLayers x).reg o₁ = s.reg o₁ := rfl
@[simp] theorem State.setLayers_areg (x : Tbl LinkLayer) (o₁ : Nat) : (s.setLayers x).areg o₁ = s.areg o₁ := rfl
@[simp] theorem State.setLayers_fld (x : Tbl LinkLayer) (o₁ : Nat) (f₁ : Fld) : (s.setLayers x).fld o₁ f₁ = s.fld o₁ f₁ := rfl
@[simp] theorem State.setLayers_afld (x : Tbl LinkLayer) (o₁ : Nat) (f₁ : Fld) : (s.setLayers x).afld o₁ f₁ = s.afld o₁ f₁ := rfl
@[simp] theorem State.setLayers_thread (x : Tbl LinkLayer) (k₁ : Nat) : (s.setLayers x).thread k₁ = s.thread k₁ := rfl
@[simp] theorem State.setLayers_queue (x : Tbl LinkLayer) (c₁ q₁ : Nat) : (s.setLayers x).queue c₁ q₁ = s.queue c₁ q₁ := rfl
@[simp] theorem State.setLayers_part (x : Tbl LinkLayer) (k₁ : Nat) : (s.setLayers x).part k₁ = s.part k₁ := rfl
@[simp] theorem State.setLayers_snp (x : Tbl LinkLayer) (k₁ : Nat) : (s.setLayers x).snp k₁ = s.snp k₁ := rfl
@[simp] theorem State.setLayers_mirror (x : Tbl LinkLayer) (k₁ : Nat) : (s.setLayers x).mirror k₁ = s.mirror k₁ := rfl
@[simp] theorem State.setLayers_bytes (x : Tbl LinkLayer) (a₁ n₁ : Nat) : (s.setLayers x).bytes a₁ n₁ = s.bytes a₁ n₁ := rfl
@[simp] theorem State.setLayers_item (x : Tbl LinkLayer) (k₁ : Nat) : (s.setLayers x).item k₁ = s.item k₁ := rfl

@[simp] theorem State.setFab_fab (x : Fabric) : (s.setFab x).fab = x := rfl
@[simp] theorem State.setFab_now (x : Fabric) : (s.setFab x).now = s.now := rfl
@[simp] theorem State.setFab_regs (x : Fabric) : (s.setFab x).regs = s.regs := rfl
@[simp] theorem State.setFab_mem (x : Fabric) : (s.setFab x).mem = s.mem := rfl
@[simp] theorem State.setFab_log (x : Fabric) : (s.setFab x).log = s.log := rfl
@[simp] theorem State.setFab_items (x : Fabric) : (s.setFab x).items = s.items := rfl
@[simp] theorem State.setFab_threads (x : Fabric) : (s.setFab x).threads = s.threads := rfl
@[simp] theorem State.setFab_progs (x : Fabric) : (s.setFab x).progs = s.progs := rfl
@[simp] theorem State.setFab_parts (x : Fabric) : (s.setFab x).parts = s.parts := rfl
@[simp] theorem State.setFab_clrpend (x : Fabric) : (s.setFab x).clrpend = s.clrpend := rfl
@[simp] theorem State.setFab_queues (x : Fabric) : (s.setFab x).queues = s.queues := rfl
@[simp] theorem State.setFab_stash (x : Fabric) : (s.setFab x).stash = s.stash := rfl
@[simp] theorem State.setFab_cores (x : Fabric) : (s.setFab x).cores = s.cores := rfl
@[simp] theorem State.setFab_vctxs (x : Fabric) : (s.setFab x).vctxs = s.vctxs := rfl
@[simp] theorem State.setFab_curves (x : Fabric) : (s.setFab x).curves = s.curves := rfl
@[simp] theorem State.setFab_chans (x : Fabric) : (s.setFab x).chans = s.chans := rfl
@[simp] theorem State.setFab_stackTab (x : Fabric) : (s.setFab x).stackTab = s.stackTab := rfl
@[simp] theorem State.setFab_retSave (x : Fabric) : (s.setFab x).retSave = s.retSave := rfl
@[simp] theorem State.setFab_snps (x : Fabric) : (s.setFab x).snps = s.snps := rfl
@[simp] theorem State.setFab_layers (x : Fabric) : (s.setFab x).layers = s.layers := rfl
@[simp] theorem State.setFab_drift (x : Fabric) : (s.setFab x).drift = s.drift := rfl
@[simp] theorem State.setFab_ports (x : Fabric) : (s.setFab x).ports = s.ports := rfl
@[simp] theorem State.setFab_twi (x : Fabric) : (s.setFab x).twi = s.twi := rfl
@[simp] theorem State.setFab_hub (x : Fabric) : (s.setFab x).hub = s.hub := rfl
@[simp] theorem State.setFab_power (x : Fabric) : (s.setFab x).power = s.power := rfl
@[simp] theorem State.setFab_flash (x : Fabric) : (s.setFab x).flash = s.flash := rfl
@[simp] theorem State.setFab_mirrors (x : Fabric) : (s.setFab x).mirrors = s.mirrors := rfl
@[simp] theorem State.setFab_free (x : Fabric) : (s.setFab x).free = s.free := rfl
@[simp] theorem State.setFab_out (x : Fabric) : (s.setFab x).out = s.out := rfl
@[simp] theorem State.setFab_pending (x : Fabric) : (s.setFab x).pending = s.pending := rfl
@[simp] theorem State.setFab_reg (x : Fabric) (o₁ : Nat) : (s.setFab x).reg o₁ = s.reg o₁ := rfl
@[simp] theorem State.setFab_areg (x : Fabric) (o₁ : Nat) : (s.setFab x).areg o₁ = s.areg o₁ := rfl
@[simp] theorem State.setFab_fld (x : Fabric) (o₁ : Nat) (f₁ : Fld) : (s.setFab x).fld o₁ f₁ = s.fld o₁ f₁ := rfl
@[simp] theorem State.setFab_afld (x : Fabric) (o₁ : Nat) (f₁ : Fld) : (s.setFab x).afld o₁ f₁ = s.afld o₁ f₁ := rfl
@[simp] theorem State.setFab_thread (x : Fabric) (k₁ : Nat) : (s.setFab x).thread k₁ = s.thread k₁ := rfl
@[simp] theorem State.setFab_queue (x : Fabric) (c₁ q₁ : Nat) : (s.setFab x).queue c₁ q₁ = s.queue c₁ q₁ := rfl
@[simp] theorem State.setFab_part (x : Fabric) (k₁ : Nat) : (s.setFab x).part k₁ = s.part k₁ := rfl
@[simp] theorem State.setFab_layer (x : Fabric) (k₁ : Nat) : (s.setFab x).layer k₁ = s.layer k₁ := rfl
@[simp] theorem State.setFab_snp (x : Fabric) (k₁ : Nat) : (s.setFab x).snp k₁ = s.snp k₁ := rfl
@[simp] theorem State.setFab_mirror (x : Fabric) (k₁ : Nat) : (s.setFab x).mirror k₁ = s.mirror k₁ := rfl
@[simp] theorem State.setFab_bytes (x : Fabric) (a₁ n₁ : Nat) : (s.setFab x).bytes a₁ n₁ = s.bytes a₁ n₁ := rfl
@[simp] theorem State.setFab_item (x : Fabric) (k₁ : Nat) : (s.setFab x).item k₁ = s.item k₁ := rfl

@[simp] theorem State.setDrift_drift (x : Drift) : (s.setDrift x).drift = x := rfl
@[simp] theorem State.setDrift_now (x : Drift) : (s.setDrift x).now = s.now := rfl
@[simp] theorem State.setDrift_regs (x : Drift) : (s.setDrift x).regs = s.regs := rfl
@[simp] theorem State.setDrift_mem (x : Drift) : (s.setDrift x).mem = s.mem := rfl
@[simp] theorem State.setDrift_log (x : Drift) : (s.setDrift x).log = s.log := rfl
@[simp] theorem State.setDrift_items (x : Drift) : (s.setDrift x).items = s.items := rfl
@[simp] theorem State.setDrift_threads (x : Drift) : (s.setDrift x).threads = s.threads := rfl
@[simp] theorem State.setDrift_progs (x : Drift) : (s.setDrift x).progs = s.progs := rfl
@[simp] theorem State.setDrift_parts (x : Drift) : (s.setDrift x).parts = s.parts := rfl
@[simp] theorem State.setDrift_clrpend (x : Drift) : (s.setDrift x).clrpend = s.clrpend := rfl
@[simp] theorem State.setDrift_queues (x : Drift) : (s.setDrift x).queues = s.queues := rfl
@[simp] theorem State.setDrift_stash (x : Drift) : (s.setDrift x).stash = s.stash := rfl
@[simp] theorem State.setDrift_cores (x : Drift) : (s.setDrift x).cores = s.cores := rfl
@[simp] theorem State.setDrift_vctxs (x : Drift) : (s.setDrift x).vctxs = s.vctxs := rfl
@[simp] theorem State.setDrift_curves (x : Drift) : (s.setDrift x).curves = s.curves := rfl
@[simp] theorem State.setDrift_chans (x : Drift) : (s.setDrift x).chans = s.chans := rfl
@[simp] theorem State.setDrift_stackTab (x : Drift) : (s.setDrift x).stackTab = s.stackTab := rfl
@[simp] theorem State.setDrift_retSave (x : Drift) : (s.setDrift x).retSave = s.retSave := rfl
@[simp] theorem State.setDrift_snps (x : Drift) : (s.setDrift x).snps = s.snps := rfl
@[simp] theorem State.setDrift_layers (x : Drift) : (s.setDrift x).layers = s.layers := rfl
@[simp] theorem State.setDrift_fab (x : Drift) : (s.setDrift x).fab = s.fab := rfl
@[simp] theorem State.setDrift_ports (x : Drift) : (s.setDrift x).ports = s.ports := rfl
@[simp] theorem State.setDrift_twi (x : Drift) : (s.setDrift x).twi = s.twi := rfl
@[simp] theorem State.setDrift_hub (x : Drift) : (s.setDrift x).hub = s.hub := rfl
@[simp] theorem State.setDrift_power (x : Drift) : (s.setDrift x).power = s.power := rfl
@[simp] theorem State.setDrift_flash (x : Drift) : (s.setDrift x).flash = s.flash := rfl
@[simp] theorem State.setDrift_mirrors (x : Drift) : (s.setDrift x).mirrors = s.mirrors := rfl
@[simp] theorem State.setDrift_free (x : Drift) : (s.setDrift x).free = s.free := rfl
@[simp] theorem State.setDrift_out (x : Drift) : (s.setDrift x).out = s.out := rfl
@[simp] theorem State.setDrift_pending (x : Drift) : (s.setDrift x).pending = s.pending := rfl
@[simp] theorem State.setDrift_reg (x : Drift) (o₁ : Nat) : (s.setDrift x).reg o₁ = s.reg o₁ := rfl
@[simp] theorem State.setDrift_areg (x : Drift) (o₁ : Nat) : (s.setDrift x).areg o₁ = s.areg o₁ := rfl
@[simp] theorem State.setDrift_fld (x : Drift) (o₁ : Nat) (f₁ : Fld) : (s.setDrift x).fld o₁ f₁ = s.fld o₁ f₁ := rfl
@[simp] theorem State.setDrift_afld (x : Drift) (o₁ : Nat) (f₁ : Fld) : (s.setDrift x).afld o₁ f₁ = s.afld o₁ f₁ := rfl
@[simp] theorem State.setDrift_thread (x : Drift) (k₁ : Nat) : (s.setDrift x).thread k₁ = s.thread k₁ := rfl
@[simp] theorem State.setDrift_queue (x : Drift) (c₁ q₁ : Nat) : (s.setDrift x).queue c₁ q₁ = s.queue c₁ q₁ := rfl
@[simp] theorem State.setDrift_part (x : Drift) (k₁ : Nat) : (s.setDrift x).part k₁ = s.part k₁ := rfl
@[simp] theorem State.setDrift_layer (x : Drift) (k₁ : Nat) : (s.setDrift x).layer k₁ = s.layer k₁ := rfl
@[simp] theorem State.setDrift_snp (x : Drift) (k₁ : Nat) : (s.setDrift x).snp k₁ = s.snp k₁ := rfl
@[simp] theorem State.setDrift_mirror (x : Drift) (k₁ : Nat) : (s.setDrift x).mirror k₁ = s.mirror k₁ := rfl
@[simp] theorem State.setDrift_bytes (x : Drift) (a₁ n₁ : Nat) : (s.setDrift x).bytes a₁ n₁ = s.bytes a₁ n₁ := rfl
@[simp] theorem State.setDrift_item (x : Drift) (k₁ : Nat) : (s.setDrift x).item k₁ = s.item k₁ := rfl

@[simp] theorem State.setPorts_ports (x : Tbl HostPort) : (s.setPorts x).ports = x := rfl
@[simp] theorem State.setPorts_now (x : Tbl HostPort) : (s.setPorts x).now = s.now := rfl
@[simp] theorem State.setPorts_regs (x : Tbl HostPort) : (s.setPorts x).regs = s.regs := rfl
@[simp] theorem State.setPorts_mem (x : Tbl HostPort) : (s.setPorts x).mem = s.mem := rfl
@[simp] theorem State.setPorts_log (x : Tbl HostPort) : (s.setPorts x).log = s.log := rfl
@[simp] theorem State.setPorts_items (x : Tbl HostPort) : (s.setPorts x).items = s.items := rfl
@[simp] theorem State.setPorts_threads (x : Tbl HostPort) : (s.setPorts x).threads = s.threads := rfl
@[simp] theorem State.setPorts_progs (x : Tbl HostPort) : (s.setPorts x).progs = s.progs := rfl
@[simp] theorem State.setPorts_parts (x : Tbl HostPort) : (s.setPorts x).parts = s.parts := rfl
@[simp] theorem State.setPorts_clrpend (x : Tbl HostPort) : (s.setPorts x).clrpend = s.clrpend := rfl
@[simp] theorem State.setPorts_queues (x : Tbl HostPort) : (s.setPorts x).queues = s.queues := rfl
@[simp] theorem State.setPorts_stash (x : Tbl HostPort) : (s.setPorts x).stash = s.stash := rfl
@[simp] theorem State.setPorts_cores (x : Tbl HostPort) : (s.setPorts x).cores = s.cores := rfl
@[simp] theorem State.setPorts_vctxs (x : Tbl HostPort) : (s.setPorts x).vctxs = s.vctxs := rfl
@[simp] theorem State.setPorts_curves (x : Tbl HostPort) : (s.setPorts x).curves = s.curves := rfl
@[simp] theorem State.setPorts_chans (x : Tbl HostPort) : (s.setPorts x).chans = s.chans := rfl
@[simp] theorem State.setPorts_stackTab (x : Tbl HostPort) : (s.setPorts x).stackTab = s.stackTab := rfl
@[simp] theorem State.setPorts_retSave (x : Tbl HostPort) : (s.setPorts x).retSave = s.retSave := rfl
@[simp] theorem State.setPorts_snps (x : Tbl HostPort) : (s.setPorts x).snps = s.snps := rfl
@[simp] theorem State.setPorts_layers (x : Tbl HostPort) : (s.setPorts x).layers = s.layers := rfl
@[simp] theorem State.setPorts_fab (x : Tbl HostPort) : (s.setPorts x).fab = s.fab := rfl
@[simp] theorem State.setPorts_drift (x : Tbl HostPort) : (s.setPorts x).drift = s.drift := rfl
@[simp] theorem State.setPorts_twi (x : Tbl HostPort) : (s.setPorts x).twi = s.twi := rfl
@[simp] theorem State.setPorts_hub (x : Tbl HostPort) : (s.setPorts x).hub = s.hub := rfl
@[simp] theorem State.setPorts_power (x : Tbl HostPort) : (s.setPorts x).power = s.power := rfl
@[simp] theorem State.setPorts_flash (x : Tbl HostPort) : (s.setPorts x).flash = s.flash := rfl
@[simp] theorem State.setPorts_mirrors (x : Tbl HostPort) : (s.setPorts x).mirrors = s.mirrors := rfl
@[simp] theorem State.setPorts_free (x : Tbl HostPort) : (s.setPorts x).free = s.free := rfl
@[simp] theorem State.setPorts_out (x : Tbl HostPort) : (s.setPorts x).out = s.out := rfl
@[simp] theorem State.setPorts_pending (x : Tbl HostPort) : (s.setPorts x).pending = s.pending := rfl
@[simp] theorem State.setPorts_reg (x : Tbl HostPort) (o₁ : Nat) : (s.setPorts x).reg o₁ = s.reg o₁ := rfl
@[simp] theorem State.setPorts_areg (x : Tbl HostPort) (o₁ : Nat) : (s.setPorts x).areg o₁ = s.areg o₁ := rfl
@[simp] theorem State.setPorts_fld (x : Tbl HostPort) (o₁ : Nat) (f₁ : Fld) : (s.setPorts x).fld o₁ f₁ = s.fld o₁ f₁ := rfl
@[simp] theorem State.setPorts_afld (x : Tbl HostPort) (o₁ : Nat) (f₁ : Fld) : (s.setPorts x).afld o₁ f₁ = s.afld o₁ f₁ := rfl
@[simp] theorem State.setPorts_thread (x : Tbl HostPort) (k₁ : Nat) : (s.setPorts x).thread k₁ = s.thread k₁ := rfl
@[simp] theorem State.setPorts_queue (x : Tbl HostPort) (c₁ q₁ : Nat) : (s.setPorts x).queue c₁ q₁ = s.queue c₁ q₁ := rfl
@[simp] theorem State.setPorts_part (x : Tbl HostPort) (k₁ : Nat) : (s.setPorts x).part k₁ = s.part k₁ := rfl
@[simp] theorem State.setPorts_layer (x : Tbl HostPort) (k₁ : Nat) : (s.setPorts x).layer k₁ = s.layer k₁ := rfl
@[simp] theorem State.setPorts_snp (x : Tbl HostPort) (k₁ : Nat) : (s.setPorts x).snp k₁ = s.snp k₁ := rfl
@[simp] theorem State.setPorts_mirror (x : Tbl HostPort) (k₁ : Nat) : (s.setPorts x).mirror k₁ = s.mirror k₁ := rfl
@[simp] theorem State.setPorts_bytes (x : Tbl HostPort) (a₁ n₁ : Nat) : (s.setPorts x).bytes a₁ n₁ = s.bytes a₁ n₁ := rfl
@[simp] theorem State.setPorts_item (x : Tbl HostPort) (k₁ : Nat) : (s.setPorts x).item k₁ = s.item k₁ := rfl

@[simp] theorem State.setTwis_twi (x : Tbl TwiLink) : (s.setTwis x).twi = x := rfl
@[simp] theorem State.setTwis_now (x : Tbl TwiLink) : (s.setTwis x).now = s.now := rfl
@[simp] theorem State.setTwis_regs (x : Tbl TwiLink) : (s.setTwis x).regs = s.regs := rfl
@[simp] theorem State.setTwis_mem (x : Tbl TwiLink) : (s.setTwis x).mem = s.mem := rfl
@[simp] theorem State.setTwis_log (x : Tbl TwiLink) : (s.setTwis x).log = s.log := rfl
@[simp] theorem State.setTwis_items (x : Tbl TwiLink) : (s.setTwis x).items = s.items := rfl
@[simp] theorem State.setTwis_threads (x : Tbl TwiLink) : (s.setTwis x).threads = s.threads := rfl
@[simp] theorem State.setTwis_progs (x : Tbl TwiLink) : (s.setTwis x).progs = s.progs := rfl
@[simp] theorem State.setTwis_parts (x : Tbl TwiLink) : (s.setTwis x).parts = s.parts := rfl
@[simp] theorem State.setTwis_clrpend (x : Tbl TwiLink) : (s.setTwis x).clrpend = s.clrpend := rfl
@[simp] theorem State.setTwis_queues (x : Tbl TwiLink) : (s.setTwis x).queues = s.queues := rfl
@[simp] theorem State.setTwis_stash (x : Tbl TwiLink) : (s.setTwis x).stash = s.stash := rfl
@[simp] theorem State.setTwis_cores (x : Tbl TwiLink) : (s.setTwis x).cores = s.cores := rfl
@[simp] theorem State.setTwis_vctxs (x : Tbl TwiLink) : (s.setTwis x).vctxs = s.vctxs := rfl
@[simp] theorem State.setTwis_curves (x : Tbl TwiLink) : (s.setTwis x).curves = s.curves := rfl
@[simp] theorem State.setTwis_chans (x : Tbl TwiLink) : (s.setTwis x).chans = s.chans := rfl
@[simp] theorem State.setTwis_stackTab (x : Tbl TwiLink) : (s.setTwis x).stackTab = s.stackTab := rfl
@[simp] theorem State.setTwis_retSave (x : Tbl TwiLink) : (s.setTwis x).retSave = s.retSave := rfl
@[simp] theorem State.setTwis_snps (x : Tbl TwiLink) : (s.setTwis x).snps = s.snps := rfl
@[simp] theorem State.setTwis_layers (x : Tbl TwiLink) : (s.setTwis x).layers = s.layers := rfl
@[simp] theorem State.setTwis_fab (x : Tbl TwiLink) : (s.setTwis x).fab = s.fab := rfl
@[simp] theorem State.setTwis_drift (x : Tbl TwiLink) : (s.setTwis x).drift = s.drift := rfl
@[simp] theorem State.setTwis_ports (x : Tbl TwiLink) : (s.setTwis x).ports = s.ports := rfl
@[simp] theorem State.setTwis_hub (x : Tbl TwiLink) : (s.setTwis x).hub = s.hub := rfl
@[simp] theorem State.setTwis_power (x : Tbl TwiLink) : (s.setTwis x).power = s.power := rfl
@[simp] theorem State.setTwis_flash (x : Tbl TwiLink) : (s.setTwis x).flash = s.flash := rfl
@[simp] theorem State.setTwis_mirrors (x : Tbl TwiLink) : (s.setTwis x).mirrors = s.mirrors := rfl
@[simp] theorem State.setTwis_free (x : Tbl TwiLink) : (s.setTwis x).free = s.free := rfl
@[simp] theorem State.setTwis_out (x : Tbl TwiLink) : (s.setTwis x).out = s.out := rfl
@[simp] theorem State.setTwis_pending (x : Tbl TwiLink) : (s.setTwis x).pending = s.pending := rfl
@[simp] theorem State.setTwis_reg (x : Tbl TwiLink) (o₁ : Nat) : (s.setTwis x).reg o₁ = s.reg o₁ := rfl
@[simp] theorem State.setTwis_areg (x : Tbl TwiLink) (o₁ : Nat) : (s.setTwis x).areg o₁ = s.areg o₁ := rfl
@[simp] theorem State.setTwis_fld (x : Tbl TwiLink) (o₁ : Nat) (f₁ : Fld) : (s.setTwis x).fld o₁ f₁ = s.fld o₁ f₁ := rfl
@[simp] theorem State.setTwis_afld (x : Tbl TwiLink) (o₁ : Nat) (f₁ : Fld) : (s.setTwis x).afld o₁ f₁ = s.afld o₁ f₁ := rfl
@[simp] theorem State.setTwis_thread (x : Tbl TwiLink) (k₁ : Nat) : (s.setTwis x).thread k₁ = s.thread k₁ := rfl
@[simp] theorem State.setTwis_queue (x : Tbl TwiLink) (c₁ q₁ : Nat) : (s.setTwis x).queue c₁ q₁ = s.queue c₁ q₁ := rfl
@[simp] theorem State.setTwis_part (x : Tbl TwiLink) (k₁ : Nat) : (s.setTwis x).part k₁ = s.part k₁ := rfl
@[simp] theorem State.setTwis_layer (x : Tbl TwiLink) (k₁ : Nat) : (s.setTwis x).layer k₁ = s.layer k₁ := rfl
@[simp] theorem State.setTwis_snp (x : Tbl TwiLink) (k₁ : Nat) : (s.setTwis x).snp k₁ = s.snp k₁ := rfl
@[simp] theorem State.setTwis_mirror (x : Tbl TwiLink) (k₁ : Nat) : (s.setTwis x).mirror k₁ = s.mirror k₁ := rfl
@[simp] theorem State.setTwis_bytes (x : Tbl TwiLink) (a₁ n₁ : Nat) : (s.setTwis x).bytes a₁ n₁ = s.bytes a₁ n₁ := rfl
@[simp] theorem State.setTwis_item (x : Tbl TwiLink) (k₁ : Nat) : (s.setTwis x).item k₁ = s.item k₁ := rfl

@[simp] theorem State.setHub_hub (x : Hub) : (s.setHub x).hub = x := rfl
@[simp] theorem State.setHub_now (x : Hub) : (s.setHub x).now = s.now := rfl
@[simp] theorem State.setHub_regs (x : Hub) : (s.setHub x).regs = s.regs := rfl
@[simp] theorem State.setHub_mem (x : Hub) : (s.setHub x).mem = s.mem := rfl
@[simp] theorem State.setHub_log (x : Hub) : (s.setHub x).log = s.log := rfl
@[simp] theorem State.setHub_items (x : Hub) : (s.setHub x).items = s.items := rfl
@[simp] theorem State.setHub_threads (x : Hub) : (s.setHub x).threads = s.threads := rfl
@[simp] theorem State.setHub_progs (x : Hub) : (s.setHub x).progs = s.progs := rfl
@[simp] theorem State.setHub_parts (x : Hub) : (s.setHub x).parts = s.parts := rfl
@[simp] theorem State.setHub_clrpend (x : Hub) : (s.setHub x).clrpend = s.clrpend := rfl
@[simp] theorem State.setHub_queues (x : Hub) : (s.setHub x).queues = s.queues := rfl
@[simp] theorem State.setHub_stash (x : Hub) : (s.setHub x).stash = s.stash := rfl
@[simp] theorem State.setHub_cores (x : Hub) : (s.setHub x).cores = s.cores := rfl
@[simp] theorem State.setHub_vctxs (x : Hub) : (s.setHub x).vctxs = s.vctxs := rfl
@[simp] theorem State.setHub_curves (x : Hub) : (s.setHub x).curves = s.curves := rfl
@[simp] theorem State.setHub_chans (x : Hub) : (s.setHub x).chans = s.chans := rfl
@[simp] theorem State.setHub_stackTab (x : Hub) : (s.setHub x).stackTab = s.stackTab := rfl
@[simp] theorem State.setHub_retSave (x : Hub) : (s.setHub x).retSave = s.retSave := rfl
@[simp] theorem State.setHub_snps (x : Hub) : (s.setHub x).snps = s.snps := rfl
@[simp] theorem State.setHub_layers (x : Hub) : (s.setHub x).layers = s.layers := rfl
@[simp] theorem State.setHub_fab (x : Hub) : (s.setHub x).fab = s.fab := rfl
@[simp] theorem State.setHub_drift (x : Hub) : (s.setHub x).drift = s.drift := rfl
@[simp] theorem State.setHub_ports (x : Hub) : (s.setHub x).ports = s.ports := rfl
@[simp] theorem State.setHub_twi (x : Hub) : (s.setHub x).twi = s.twi := rfl
@[simp] theorem State.setHub_power (x : Hub) : (s.setHub x).power = s.power := rfl
@[simp] theorem State.setHub_flash (x : Hub) : (s.setHub x).flash = s.flash := rfl
@[simp] theorem State.setHub_mirrors (x : Hub) : (s.setHub x).mirrors = s.mirrors := rfl
@[simp] theorem State.setHub_free (x : Hub) : (s.setHub x).free = s.free := rfl
@[simp] theorem State.setHub_out (x : Hub) : (s.setHub x).out = s.out := rfl
@[simp] theorem State.setHub_pending (x : Hub) : (s.setHub x).pending = s.pending := rfl
@[simp] theorem State.setHub_reg (x : Hub) (o₁ : Nat) : (s.setHub x).reg o₁ = s.reg o₁ := rfl
@[simp] theorem State.setHub_areg (x : Hub) (o₁ : Nat) : (s.setHub x).areg o₁ = s.areg o₁ := rfl
@[simp] theorem State.setHub_fld (x : Hub) (o₁ : Nat) (f₁ : Fld) : (s.setHub x).fld o₁ f₁ = s.fld o₁ f₁ := rfl
@[simp] theorem State.setHub_afld (x : Hub) (o₁ : Nat) (f₁ : Fld) : (s.setHub x).afld o₁ f₁ = s.afld o₁ f₁ := rfl
@[simp] theorem State.setHub_thread (x : Hub) (k₁ : Nat) : (s.setHub x).thread k₁ = s.thread k₁ := rfl
@[simp] theorem State.setHub_queue (x : Hub) (c₁ q₁ : Nat) : (s.setHub x).queue c₁ q₁ = s.queue c₁ q₁ := rfl
@[simp] theorem State.setHub_part (x : Hub) (k₁ : Nat) : (s.setHub x).part k₁ = s.part k₁ := rfl
@[simp] theorem State.setHub_layer (x : Hub) (k₁ : Nat) : (s.setHub x).layer k₁ = s.layer k₁ := rfl
@[simp] theorem State.setHub_snp (x : Hub) (k₁ : Nat) : (s.setHub x).snp k₁ = s.snp k₁ := rfl
@[simp] theorem State.setHub_mirror (x : Hub) (k₁ : Nat) : (s.setHub x).mirror k₁ = s.mirror k₁ := rfl
@[simp] theorem State.setHub_bytes (x : Hub) (a₁ n₁ : Nat) : (s.setHub x).bytes a₁ n₁ = s.bytes a₁ n₁ := rfl
@[simp] theorem State.setHub_item (x : Hub) (k₁ : Nat) : (s.setHub x).item k₁ = s.item k₁ := rfl

@[simp] theorem State.setPower_power (x : Power) : (s.setPower x).power = x := rfl
@[simp] theorem State.setPower_now (x : Power) : (s.setPower x).now = s.now := rfl
@[simp] theorem State.setPower_regs (x : Power) : (s.setPower x).regs = s.regs := rfl
@[simp] theorem State.setPower_mem (x : Power) : (s.setPower x).mem = s.mem := rfl
@[simp] theorem State.setPower_log (x : Power) : (s.setPower x).log = s.log := rfl
@[simp] theorem State.setPower_items (x : Power) : (s.setPower x).items = s.items := rfl
@[simp] theorem State.setPower_threads (x : Power) : (s.setPower x).threads = s.threads := rfl
@[simp] theorem State.setPower_progs (x : Power) : (s.setPower x).progs = s.progs := rfl
@[simp] theorem State.setPower_parts (x : Power) : (s.setPower x).parts = s.parts := rfl
@[simp] theorem State.setPower_clrpend (x : Power) : (s.setPower x).clrpend = s.clrpend := rfl
@[simp] theorem State.setPower_queues (x : Power) : (s.setPower x).queues = s.queues := rfl
@[simp] theorem State.setPower_stash (x : Power) : (s.setPower x).stash = s.stash := rfl
@[simp] theorem State.setPower_cores (x : Power) : (s.setPower x).cores = s.cores := rfl
@[simp] theorem State.setPower_vctxs (x : Power) : (s.setPower x).vctxs = s.vctxs := rfl
@[simp] theorem State.setPower_curves (x : Power) : (s.setPower x).curves = s.curves := rfl
@[simp] theorem State.setPower_chans (x : Power) : (s.setPower x).chans = s.chans := rfl
@[simp] theorem State.setPower_stackTab (x : Power) : (s.setPower x).stackTab = s.stackTab := rfl
@[simp] theorem State.setPower_retSave (x : Power) : (s.setPower x).retSave = s.retSave := rfl
@[simp] theorem State.setPower_snps (x : Power) : (s.setPower x).snps = s.snps := rfl
@[simp] theorem State.setPower_layers (x : Power) : (s.setPower x).layers = s.layers := rfl
@[simp] theorem State.setPower_fab (x : Power) : (s.setPower x).fab = s.fab := rfl
@[simp] theorem State.setPower_drift (x : Power) : (s.setPower x).drift = s.drift := rfl
@[simp] theorem State.setPower_ports (x : Power) : (s.setPower x).ports = s.ports := rfl
@[simp] theorem State.setPower_twi (x : Power) : (s.setPower x).twi = s.twi := rfl
@[simp] theorem State.setPower_hub (x : Power) : (s.setPower x).hub = s.hub := rfl
@[simp] theorem State.setPower_flash (x : Power) : (s.setPower x).flash = s.flash := rfl
@[simp] theorem State.setPower_mirrors (x : Power) : (s.setPower x).mirrors = s.mirrors := rfl
@[simp] theorem State.setPower_free (x : Power) : (s.setPower x).free = s.free := rfl
@[simp] theorem State.setPower_out (x : Power) : (s.setPower x).out = s.out := rfl
@[simp] theorem State.setPower_pending (x : Power) : (s.setPower x).pending = s.pending := rfl
@[simp] theorem State.setPower_reg (x : Power) (o₁ : Nat) : (s.setPower x).reg o₁ = s.reg o₁ := rfl
@[simp] theorem State.setPower_areg (x : Power) (o₁ : Nat) : (s.setPower x).areg o₁ = s.areg o₁ := rfl
@[simp] theorem State.setPower_fld (x : Power) (o₁ : Nat) (f₁ : Fld) : (s.setPower x).fld o₁ f₁ = s.fld o₁ f₁ := rfl
@[simp] theorem State.setPower_afld (x : Power) (o₁ : Nat) (f₁ : Fld) : (s.setPower x).afld o₁ f₁ = s.afld o₁ f₁ := rfl
@[simp] theorem State.setPower_thread (x : Power) (k₁ : Nat) : (s.setPower x).thread k₁ = s.thread k₁ := rfl
@[simp] theorem State.setPower_queue (x : Power) (c₁ q₁ : Nat) : (s.setPower x).queue c₁ q₁ = s.queue c₁ q₁ := rfl
@[simp] theorem State.setPower_part (x : Power) (k₁ : Nat) : (s.setPower x).part k₁ = s.part k₁ := rfl
@[simp] theorem State.setPower_layer (x : Power) (k₁ : Nat) : (s.setPower x).layer k₁ = s.layer k₁ := rfl
@[simp] theorem State.setPower_snp (x : Power) (k₁ : Nat) : (s.setPower x).snp k₁ = s.snp k₁ := rfl
@[simp] theorem State.setPower_mirror (x : Power) (k₁ : Nat) : (s.setPower x).mirror k₁ = s.mirror k₁ := rfl
@[simp] theorem State.setPower_bytes (x : Power) (a₁ n₁ : Nat) : (s.setPower x).bytes a₁ n₁ = s.bytes a₁ n₁ := rfl
@[simp] theorem State.setPower_item (x : Power) (k₁ : Nat) : (s.setPower x).item k₁ = s.item k₁ := rfl

@[simp] theorem State.setFlash_flash (x : Memory) : (s.setFlash x).flash = x := rfl
@[simp] theorem State.setFlash_now (x : Memory) : (s.setFlash x).now = s.now := rfl
@[simp] theorem State.setFlash_regs (x : Memory) : (s.setFlash x).regs = s.regs := rfl
@[simp] theorem State.setFlash_mem (x : Memory) : (s.setFlash x).mem = s.mem := rfl
@[simp] theorem State.setFlash_log (x : Memory) : (s.setFlash x).log = s.log := rfl
@[simp] theorem State.setFlash_items (x : Memory) : (s.setFlash x).items = s.items := rfl
@[simp] theorem State.setFlash_threads (x : Memory) : (s.setFlash x).threads = s.threads := rfl
@[simp] theorem State.setFlash_progs (x : Memory) : (s.setFlash x).progs = s.progs := rfl
@[simp] theorem State.setFlash_parts (x : Memory) : (s.setFlash x).parts = s.parts := rfl
@[simp] theorem State.setFlash_clrpend (x : Memory) : (s.setFlash x).clrpend = s.clrpend := rfl
@[simp] theorem State.setFlash_queues (x : Memory) : (s.setFlash x).queues = s.queues := rfl
@[simp] theorem State.setFlash_stash (x : Memory) : (s.setFlash x).stash = s.stash := rfl
@[simp] theorem State.setFlash_cores (x : Memory) : (s.setFlash x).cores = s.cores := rfl
@[simp] theorem State.setFlash_vctxs (x : Memory) : (s.setFlash x).vctxs = s.vctxs := rfl
@[simp] theorem State.setFlash_curves (x : Memory) : (s.setFlash x).curves = s.curves := rfl
@[simp] theorem State.setFlash_chans (x : Memory) : (s.setFlash x).chans = s.chans := rfl
@[simp] theorem State.setFlash_stackTab (x : Memory) : (s.setFlash x).stackTab = s.stackTab := rfl
@[simp] theorem State.setFlash_retSave (x : Memory) : (s.setFlash x).retSave = s.retSave := rfl
@[simp] theorem State.setFlash_snps (x : Memory) : (s.setFlash x).snps = s.snps := rfl
@[simp] theorem State.setFlash_layers (x : Memory) : (s.setFlash x).layers = s.layers := rfl
@[simp] theorem State.setFlash_fab (x : Memory) : (s.setFlash x).fab = s.fab := rfl
@[simp] theorem State.setFlash_drift (x : Memory) : (s.setFlash x).drift = s.drift := rfl
@[simp] theorem State.setFlash_ports (x : Memory) : (s.setFlash x).ports = s.ports := rfl
@[simp] theorem State.setFlash_twi (x : Memory) : (s.setFlash x).twi = s.twi := rfl
@[simp] theorem State.setFlash_hub (x : Memory) : (s.setFlash x).hub = s.hub := rfl
@[simp] theorem State.setFlash_power (x : Memory) : (s.setFlash x).power = s.power := rfl
@[simp] theorem State.setFlash_mirrors (x : Memory) : (s.setFlash x).mirrors = s.mirrors := rfl
@[simp] theorem State.setFlash_free (x : Memory) : (s.setFlash x).free = s.free := rfl
@[simp] theorem State.setFlash_out (x : Memory) : (s.setFlash x).out = s.out := rfl
@[simp] theorem State.setFlash_pending (x : Memory) : (s.setFlash x).pending = s.pending := rfl
@[simp] theorem State.setFlash_reg (x : Memory) (o₁ : Nat) : (s.setFlash x).reg o₁ = s.reg o₁ := rfl
@[simp] theorem State.setFlash_areg (x : Memory) (o₁ : Nat) : (s.setFlash x).areg o₁ = s.areg o₁ := rfl
@[simp] theorem State.setFlash_fld (x : Memory) (o₁ : Nat) (f₁ : Fld) : (s.setFlash x).fld o₁ f₁ = s.fld o₁ f₁ := rfl
@[simp] theorem State.setFlash_afld (x : Memory) (o₁ : Nat) (f₁ : Fld) : (s.setFlash x).afld o₁ f₁ = s.afld o₁ f₁ := rfl
@[simp] theorem State.setFlash_thread (x : Memory) (k₁ : Nat) : (s.setFlash x).thread k₁ = s.thread k₁ := rfl
@[simp] theorem State.setFlash_queue (x : Memory) (c₁ q₁ : Nat) : (s.setFlash x).queue c₁ q₁ = s.queue c₁ q₁ := rfl
@[simp] theorem State.setFlash_part (x : Memory) (k₁ : Nat) : (s.setFlash x).part k₁ = s.part k₁ := rfl
@[simp] theorem State.setFlash_layer (x : Memory) (k₁ : Nat) : (s.setFlash x).layer k₁ = s.layer k₁ := rfl
@[simp] theorem State.setFlash_snp (x : Memory) (k₁ : Nat) : (s.setFlash x).snp k₁ = s.snp k₁ := rfl
@[simp] theorem State.setFlash_mirror (x : Memory) (k₁ : Nat) : (s.setFlash x).mirror k₁ = s.mirror k₁ := rfl
@[simp] theorem State.setFlash_bytes (x : Memory) (a₁ n₁ : Nat) : (s.setFlash x).bytes a₁ n₁ = s.bytes a₁ n₁ := rfl
@[simp] theorem State.setFlash_item (x : Memory) (k₁ : Nat) : (s.setFlash x).item k₁ = s.item k₁ := rfl

@[simp] theorem State.setMirrors_mirrors (x : Tbl Mirror) : (s.setMirrors x).mirrors = x := rfl
@[simp] theorem State.setMirrors_now (x : Tbl Mirror) : (s.setMirrors x).now = s.now := rfl
@[simp] theorem State.setMirrors_regs (x : Tbl Mirror) : (s.setMirrors x).regs = s.regs := rfl
@[simp] theorem State.setMirrors_mem (x : Tbl Mirror) : (s.setMirrors x).mem = s.mem := rfl
@[simp] theorem State.setMirrors_log (x : Tbl Mirror) : (s.setMirrors x).log = s.log := rfl
@[simp] theorem State.setMirrors_items (x : Tbl Mirror) : (s.setMirrors x).items = s.items := rfl
@[simp] theorem State.setMirrors_threads (x : Tbl Mirror) : (s.setMirrors x).threads = s.threads := rfl
@[simp] theorem State.setMirrors_progs (x : Tbl Mirror) : (s.setMirrors x).progs = s.progs := rfl
@[simp] theorem State.setMirrors_parts (x : Tbl Mirror) : (s.setMirrors x).parts = s.parts := rfl
@[simp] theorem State.setMirrors_clrpend (x : Tbl Mirror) : (s.setMirrors x).clrpend = s.clrpend := rfl
@[simp] theorem State.setMirrors_queues (x : Tbl Mirror) : (s.setMirrors x).queues = s.queues := rfl
@[simp] theorem State.setMirrors_stash (x : Tbl Mirror) : (s.setMirrors x).stash = s.stash := rfl
@[simp] theorem State.setMirrors_cores (x : Tbl Mirror) : (s.setMirrors x).cores = s.cores := rfl
@[simp] theorem State.setMirrors_vctxs (x : Tbl Mirror) : (s.setMirrors x).vctxs = s.vctxs := rfl
@[simp] theorem State.setMirrors_curves (x : Tbl Mirror) : (s.setMirrors x).curves = s.curves := rfl
@[simp] theorem State.setMirrors_chans (x : Tbl Mirror) : (s.setMirrors x).chans = s.chans := rfl
@[simp] theorem State.setMirrors_stackTab (x : Tbl Mirror) : (s.setMirrors x).stackTab = s.stackTab := rfl
@[simp] theorem State.setMirrors_retSave (x : Tbl Mirror) : (s.setMirrors x).retSave = s.retSave := rfl
@[simp] theorem State.setMirrors_snps (x : Tbl Mirror) : (s.setMirrors x).snps = s.snps := rfl
@[simp] theorem State.setMirrors_layers (x : Tbl Mirror) : (s.setMirrors x).layers = s.layers := rfl
@[simp] theorem State.setMirrors_fab (x : Tbl Mirror) : (s.setMirrors x).fab = s.fab := rfl
@[simp] theorem State.setMirrors_drift (x : Tbl Mirror) : (s.setMirrors x).drift = s.drift := rfl
@[simp] theorem State.setMirrors_ports (x : Tbl Mirror) : (s.setMirrors x).ports = s.ports := rfl
@[simp] theorem State.setMirrors_twi (x : Tbl Mirror) : (s.setMirrors x).twi = s.twi := rfl
@[simp] theorem State.setMirrors_hub (x : Tbl Mirror) : (s.setMirrors x).hub = s.hub := rfl
@[simp] theorem State.setMirrors_power (x : Tbl Mirror) : (s.setMirrors x).power = s.power := rfl
@[simp] theorem State.setMirrors_flash (x : Tbl Mirror) : (s.setMirrors x).flash = s.flash := rfl
@[simp] theorem State.setMirrors_free (x : Tbl Mirror) : (s.setMirrors x).free = s.free := rfl
@[simp] theorem State.setMirrors_out (x : Tbl Mirror) : (s.setMirrors x).out = s.out := rfl
@[simp] theorem State.setMirrors_pending (x : Tbl Mirror) : (s.setMirrors x).pending = s.pending := rfl
@[simp] theorem State.setMirrors_reg (x : Tbl Mirror) (o₁ : Nat) : (s.setMirrors x).reg o₁ = s.reg o₁ := rfl
@[simp] theorem State.setMirrors_areg (x : Tbl Mirror) (o₁ : Nat) : (s.setMirrors x).areg o₁ = s.areg o₁ := rfl
@[simp] theorem State.setMirrors_fld (x : Tbl Mirror) (o₁ : Nat) (f₁ : Fld) : (s.setMirrors x).fld o₁ f₁ = s.fld o₁ f₁ := rfl
@[simp] theorem State.setMirrors_afld (x : Tbl Mirror) (o₁ : Nat) (f₁ : Fld) : (s.setMirrors x).afld o₁ f₁ = s.afld o₁ f₁ := rfl
@[simp] theorem State.setMirrors_thread (x : Tbl Mirror) (k₁ : Nat) : (s.setMirrors x).thread k₁ = s.thread k₁ := rfl
@[simp] theorem State.setMirrors_queue (x : Tbl Mirror) (c₁ q₁ : Nat) : (s.setMirrors x).queue c₁ q₁ = s.queue c₁ q₁ := rfl
@[simp] theorem State.setMirrors_part (x : Tbl Mirror) (k₁ : Nat) : (s.setMirrors x).part k₁ = s.part k₁ := rfl
@[simp] theorem State.setMirrors_layer (x : Tbl Mirror) (k₁ : Nat) : (s.setMirrors x).layer k₁ = s.layer k₁ := rfl
@[simp] theorem State.setMirrors_snp (x : Tbl Mirror) (k₁ : Nat) : (s.setMirrors x).snp k₁ = s.snp k₁ := rfl
@[simp] theorem State.setMirrors_bytes (x : Tbl Mirror) (a₁ n₁ : Nat) : (s.setMirrors x).bytes a₁ n₁ = s.bytes a₁ n₁ := rfl
@[simp] theorem State.setMirrors_item (x : Tbl Mirror) (k₁ : Nat) : (s.setMirrors x).item k₁ = s.item k₁ := rfl

@[simp] theorem State.setFree_free (x : Nat) : (s.setFree x).free = x := rfl
@[simp] theorem State.setFree_now (x : Nat) : (s.setFree x).now = s.now := rfl
@[simp] theorem State.setFree_regs (x : Nat) : (s.setFree x).regs = s.regs := rfl
@[simp] theorem State.setFree_mem (x : Nat) : (s.setFree x).mem = s.mem := rfl
@[simp] theorem State.setFree_log (x : Nat) : (s.setFree x).log = s.log := rfl
@[simp] theorem State.setFree_items (x : Nat) : (s.setFree x).items = s.items := rfl
@[simp] theorem State.setFree_threads (x : Nat) : (s.setFree x).threads = s.threads := rfl
@[simp] theorem State.setFree_progs (x : Nat) : (s.setFree x).progs = s.progs := rfl
@[simp] theorem State.setFree_parts (x : Nat) : (s.setFree x).parts = s.parts := rfl
@[simp] theorem State.setFree_clrpend (x : Nat) : (s.setFree x).clrpend = s.clrpend := rfl
@[simp] theorem State.setFree_queues (x : Nat) : (s.setFree x).queues = s.queues := rfl
@[simp] theorem State.setFree_stash (x : Nat) : (s.setFree x).stash = s.stash := rfl
@[simp] theorem State.setFree_cores (x : Nat) : (s.setFree x).cores = s.cores := rfl
@[simp] theorem State.setFree_vctxs (x : Nat) : (s.setFree x).vctxs = s.vctxs := rfl
@[simp] theorem State.setFree_curves (x : Nat) : (s.setFree x).curves = s.curves := rfl
@[simp] theorem State.setFree_chans (x : Nat) : (s.setFree x).chans = s.chans := rfl
@[simp] theorem State.setFree_stackTab (x : Nat) : (s.setFree x).stackTab = s.stackTab := rfl
@[simp] theorem State.setFree_retSave (x : Nat) : (s.setFree x).retSave = s.retSave := rfl
@[simp] theorem State.setFree_snps (x : Nat) : (s.setFree x).snps = s.snps := rfl
@[simp] theorem State.setFree_layers (x : Nat) : (s.setFree x).layers = s.layers := rfl
@[simp] theorem State.setFree_fab (x : Nat) : (s.setFree x).fab = s.fab := rfl
@[simp] theorem State.setFree_drift (x : Nat) : (s.setFree x).drift = s.drift := rfl
@[simp] theorem State.setFree_ports (x : Nat) : (s.setFree x).ports = s.ports := rfl
@[simp] theorem State.setFree_twi (x : Nat) : (s.setFree x).twi = s.twi := rfl
@[simp] theorem State.setFree_hub (x : Nat) : (s.setFree x).hub = s.hub := rfl
@[simp] theorem State.setFree_power (x : Nat) : (s.setFree x).power = s.power := rfl
@[simp] theorem State.setFree_flash (x : Nat) : (s.setFree x).flash = s.flash := rfl
@[simp] theorem State.setFree_mirrors (x : Nat) : (s.setFree x).mirrors = s.mirrors := rfl
@[simp] theorem State.setFree_out (x : Nat) : (s.setFree x).out = s.out := rfl
@[simp] theorem State.setFree_pending (x : Nat) : (s.setFree x).pending = s.pending := rfl
@[simp] theorem State.setFree_reg (x : Nat) (o₁ : Nat) : (s.setFree x).reg o₁ = s.reg o₁ := rfl
@[simp] theorem State.setFree_areg (x : Nat) (o₁ : Nat) : (s.setFree x).areg o₁ = s.areg o₁ := rfl
@[simp] theorem State.setFree_fld (x : Nat) (o₁ : Nat) (f₁ : Fld) : (s.setFree x).fld o₁ f₁ = s.fld o₁ f₁ := rfl
@[simp] theorem State.setFree_afld (x : Nat) (o₁ : Nat) (f₁ : Fld) : (s.setFree x).afld o₁ f₁ = s.afld o₁ f₁ := rfl
@[simp] theorem State.setFree_thread (x : Nat) (k₁ : Nat) : (s.setFree x).thread k₁ = s.thread k₁ := rfl
@[simp] theorem State.setFree_queue (x : Nat) (c₁ q₁ : Nat) : (s.setFree x).queue c₁ q₁ = s.queue c₁ q₁ := rfl
@[simp] theorem State.setFree_part (x : Nat) (k₁ : Nat) : (s.setFree x).part k₁ = s.part k₁ := rfl
@[simp] theorem State.setFree_layer (x : Nat) (k₁ : Nat) : (s.setFree x).layer k₁ = s.layer k₁ := rfl
@[simp] theorem State.setFree_snp (x : Nat) (k₁ : Nat) : (s.setFree x).snp k₁ = s.snp k₁ := rfl
@[simp] theorem State.setFree_mirror (x : Nat) (k₁ : Nat) : (s.setFree x).mirror k₁ = s.mirror k₁ := rfl
@[simp] theorem State.setFree_bytes (x : Nat) (a₁ n₁ : Nat) : (s.setFree x).bytes a₁ n₁ = s.bytes a₁ n₁ := rfl
@[simp] theorem State.setFree_item (x : Nat) (k₁ : Nat) : (s.setFree x).item k₁ = s.item k₁ := rfl

@[simp] theorem State.setOut_out (x : List Out) : (s.setOut x).out = x := rfl
@[simp] theorem State.setOut_now (x : List Out) : (s.setOut x).now = s.now := rfl
@[simp] theorem State.setOut_regs (x : List Out) : (s.setOut x).regs = s.regs := rfl
@[simp] theorem State.setOut_mem (x : List Out) : (s.setOut x).mem = s.mem := rfl
@[simp] theorem State.setOut_log (x : List Out) : (s.setOut x).log = s.log := rfl
@[simp] theorem State.setOut_items (x : List Out) : (s.setOut x).items = s.items := rfl
@[simp] theorem State.setOut_threads (x : List Out) : (s.setOut x).threads = s.threads := rfl
@[simp] theorem State.setOut_progs (x : List Out) : (s.setOut x).progs = s.progs := rfl
@[simp] theorem State.setOut_parts (x : List Out) : (s.setOut x).parts = s.parts := rfl
@[simp] theorem State.setOut_clrpend (x : List Out) : (s.setOut x).clrpend = s.clrpend := rfl
@[simp] theorem State.setOut_queues (x : List Out) : (s.setOut x).queues = s.queues := rfl
@[simp] theorem State.setOut_stash (x : List Out) : (s.setOut x).stash = s.stash := rfl
@[simp] theorem State.setOut_cores (x : List Out) : (s.setOut x).cores = s.cores := rfl
@[simp] theorem State.setOut_vctxs (x : List Out) : (s.setOut x).vctxs = s.vctxs := rfl
@[simp] theorem State.setOut_curves (x : List Out) : (s.setOut x).curves = s.curves := rfl
@[simp] theorem State.setOut_chans (x : List Out) : (s.setOut x).chans = s.chans := rfl
@[simp] theorem State.setOut_stackTab (x : List Out) : (s.setOut x).stackTab = s.stackTab := rfl
@[simp] theorem State.setOut_retSave (x : List Out) : (s.setOut x).retSave = s.retSave := rfl
@[simp] theorem State.setOut_snps (x : List Out) : (s.setOut x).snps = s.snps := rfl
@[simp] theorem State.setOut_layers (x : List Out) : (s.setOut x).layers = s.layers := rfl
@[simp] theorem State.setOut_fab (x : List Out) : (s.setOut x).fab = s.fab := rfl
@[simp] theorem State.setOut_drift (x : List Out) : (s.setOut x).drift = s.drift := rfl
@[simp] theorem State.setOut_ports (x : List Out) : (s.setOut x).ports = s.ports := rfl
@[simp] theorem State.setOut_twi (x : List Out) : (s.setOut x).twi = s.twi := rfl
@[simp] theorem State.setOut_hub (x : List Out) : (s.setOut x).hub = s.hub := rfl
@[simp] theorem State.setOut_power (x : List Out) : (s.setOut x).power = s.power := rfl
@[simp] theorem State.setOut_flash (x : List Out) : (s.setOut x).flash = s.flash := rfl
@[simp] theorem State.setOut_mirrors (x : List Out) : (s.setOut x).mirrors = s.mirrors := rfl
@[simp] theorem State.setOut_free (x : List Out) : (s.setOut x).free = s.free := rfl
@[simp] theorem State.setOut_pending (x : List Out) : (s.setOut x).pending = s.pending := rfl
@[simp] theorem State.setOut_reg (x : List Out) (o₁ : Nat) : (s.setOut x).reg o₁ = s.reg o₁ := rfl
@[simp] theorem State.setOut_areg (x : List Out) (o₁ : Nat) : (s.setOut x).areg o₁ = s.areg o₁ := rfl
@[simp] theorem State.setOut_fld (x : List Out) (o₁ : Nat) (f₁ : Fld) : (s.setOut x).fld o₁ f₁ = s.fld o₁ f₁ := rfl
@[simp] theorem State.setOut_afld (x : List Out) (o₁ : Nat) (f₁ : Fld) : (s.setOut x).afld o₁ f₁ = s.afld o₁ f₁ := rfl
@[simp] theorem State.setOut_thread (x : List Out) (k₁ : Nat) : (s.setOut x).thread k₁ = s.thread k₁ := rfl
@[simp] theorem State.setOut_queue (x : List Out) (c₁ q₁ : Nat) : (s.setOut x).queue c₁ q₁ = s.queue c₁ q₁ := rfl
@[simp] theorem State.setOut_part (x : List Out) (k₁ : Nat) : (s.setOut x).part k₁ = s.part k₁ := rfl
@[simp] theorem State.setOut_layer (x : List Out) (k₁ : Nat) : (s.setOut x).layer k₁ = s.layer k₁ := rfl
@[simp] theorem State.setOut_snp (x : List Out) (k₁ : Nat) : (s.setOut x).snp k₁ = s.snp k₁ := rfl
@[simp] theorem State.setOut_mirror (x : List Out) (k₁ : Nat) : (s.setOut x).mirror k₁ = s.mirror k₁ := rfl
@[simp] theorem State.setOut_bytes (x : List Out) (a₁ n₁ : Nat) : (s.setOut x).bytes a₁ n₁ = s.bytes a₁ n₁ := rfl
@[simp] theorem State.setOut_item (x : List Out) (k₁ : Nat) : (s.setOut x).item k₁ = s.item k₁ := rfl

@[simp] theorem State.setPending_pending (x : List Sys2Proof.Instr) : (s.setPending x).pending = x := rfl
@[simp] theorem State.setPending_now (x : List Sys2Proof.Instr) : (s.setPending x).now = s.now := rfl
@[simp] theorem State.setPending_regs (x : List Sys2Proof.Instr) : (s.setPending x).regs = s.regs := rfl
@[simp] theorem State.setPending_mem (x : List Sys2Proof.Instr) : (s.setPending x).mem = s.mem := rfl
@[simp] theorem State.setPending_log (x : List Sys2Proof.Instr) : (s.setPending x).log = s.log := rfl
@[simp] theorem State.setPending_items (x : List Sys2Proof.Instr) : (s.setPending x).items = s.items := rfl
@[simp] theorem State.setPending_threads (x : List Sys2Proof.Instr) : (s.setPending x).threads = s.threads := rfl
@[simp] theorem State.setPending_progs (x : List Sys2Proof.Instr) : (s.setPending x).progs = s.progs := rfl
@[simp] theorem State.setPending_parts (x : List Sys2Proof.Instr) : (s.setPending x).parts = s.parts := rfl
@[simp] theorem State.setPending_clrpend (x : List Sys2Proof.Instr) : (s.setPending x).clrpend = s.clrpend := rfl
@[simp] theorem State.setPending_queues (x : List Sys2Proof.Instr) : (s.setPending x).queues = s.queues := rfl
@[simp] theorem State.setPending_stash (x : List Sys2Proof.Instr) : (s.setPending x).stash = s.stash := rfl
@[simp] theorem State.setPending_cores (x : List Sys2Proof.Instr) : (s.setPending x).cores = s.cores := rfl
@[simp] theorem State.setPending_vctxs (x : List Sys2Proof.Instr) : (s.setPending x).vctxs = s.vctxs := rfl
@[simp] theorem State.setPending_curves (x : List Sys2Proof.Instr) : (s.setPending x).curves = s.curves := rfl
@[simp] theorem State.setPending_chans (x : List Sys2Proof.Instr) : (s.setPending x).chans = s.chans := rfl
@[simp] theorem State.setPending_stackTab (x : List Sys2Proof.Instr) : (s.setPending x).stackTab = s.stackTab := rfl
@[simp] theorem State.setPending_retSave (x : List Sys2Proof.Instr) : (s.setPending x).retSave = s.retSave := rfl
@[simp] theorem State.setPending_snps (x : List Sys2Proof.Instr) : (s.setPending x).snps = s.snps := rfl
@[simp] theorem State.setPending_layers (x : List Sys2Proof.Instr) : (s.setPending x).layers = s.layers := rfl
@[simp] theorem State.setPending_fab (x : List Sys2Proof.Instr) : (s.setPending x).fab = s.fab := rfl
@[simp] theorem State.setPending_drift (x : List Sys2Proof.Instr) : (s.setPending x).drift = s.drift := rfl
@[simp] theorem State.setPending_ports (x : List Sys2Proof.Instr) : (s.setPending x).ports = s.ports := rfl
@[simp] theorem State.setPending_twi (x : List Sys2Proof.Instr) : (s.setPending x).twi = s.twi := rfl
@[simp] theorem State.setPending_hub (x : List Sys2Proof.Instr) : (s.setPending x).hub = s.hub := rfl
@[simp] theorem State.setPending_power (x : List Sys2Proof.Instr) : (s.setPending x).power = s.power := rfl
@[simp] theorem State.setPending_flash (x : List Sys2Proof.Instr) : (s.setPending x).flash = s.flash := rfl
@[simp] theorem State.setPending_mirrors (x : List Sys2Proof.Instr) : (s.setPending x).mirrors = s.mirrors := rfl
@[simp] theorem State.setPending_free (x : List Sys2Proof.Instr) : (s.setPending x).free = s.free := rfl
@[simp] theorem State.setPending_out (x : List Sys2Proof.Instr) : (s.setPending x).out = s.out := rfl
@[simp] theorem State.setPending_reg (x : List Sys2Proof.Instr) (o₁ : Nat) : (s.setPending x).reg o₁ = s.reg o₁ := rfl
@[simp] theorem State.setPending_areg (x : List Sys2Proof.Instr) (o₁ : Nat) : (s.setPending x).areg o₁ = s.areg o₁ := rfl
@[simp] theorem State.setPending_fld (x : List Sys2Proof.Instr) (o₁ : Nat) (f₁ : Fld) : (s.setPending x).fld o₁ f₁ = s.fld o₁ f₁ := rfl
@[simp] theorem State.setPending_afld (x : List Sys2Proof.Instr) (o₁ : Nat) (f₁ : Fld) : (s.setPending x).afld o₁ f₁ = s.afld o₁ f₁ := rfl
@[simp] theorem State.setPending_thread (x : List Sys2Proof.Instr) (k₁ : Nat) : (s.setPending x).thread k₁ = s.thread k₁ := rfl
@[simp] theorem State.setPending_queue (x : List Sys2Proof.Instr) (c₁ q₁ : Nat) : (s.setPending x).queue c₁ q₁ = s.queue c₁ q₁ := rfl
@[simp] theorem State.setPending_part (x : List Sys2Proof.Instr) (k₁ : Nat) : (s.setPending x).part k₁ = s.part k₁ := rfl
@[simp] theorem State.setPending_layer (x : List Sys2Proof.Instr) (k₁ : Nat) : (s.setPending x).layer k₁ = s.layer k₁ := rfl
@[simp] theorem State.setPending_snp (x : List Sys2Proof.Instr) (k₁ : Nat) : (s.setPending x).snp k₁ = s.snp k₁ := rfl
@[simp] theorem State.setPending_mirror (x : List Sys2Proof.Instr) (k₁ : Nat) : (s.setPending x).mirror k₁ = s.mirror k₁ := rfl
@[simp] theorem State.setPending_bytes (x : List Sys2Proof.Instr) (a₁ n₁ : Nat) : (s.setPending x).bytes a₁ n₁ = s.bytes a₁ n₁ := rfl
@[simp] theorem State.setPending_item (x : List Sys2Proof.Instr) (k₁ : Nat) : (s.setPending x).item k₁ = s.item k₁ := rfl

@[simp] theorem State.setReg_now (off : Nat) (v : W32) : (s.setReg off v).now = s.now := rfl
@[simp] theorem State.setReg_mem (off : Nat) (v : W32) : (s.setReg off v).mem = s.mem := rfl
@[simp] theorem State.setReg_log (off : Nat) (v : W32) : (s.setReg off v).log = s.log := rfl
@[simp] theorem State.setReg_items (off : Nat) (v : W32) : (s.setReg off v).items = s.items := rfl
@[simp] theorem State.setReg_threads (off : Nat) (v : W32) : (s.setReg off v).threads = s.threads := rfl
@[simp] theorem State.setReg_progs (off : Nat) (v : W32) : (s.setReg off v).progs = s.progs := rfl
@[simp] theorem State.setReg_parts (off : Nat) (v : W32) : (s.setReg off v).parts = s.parts := rfl
@[simp] theorem State.setReg_clrpend (off : Nat) (v : W32) : (s.setReg off v).clrpend = s.clrpend := rfl
@[simp] theorem State.setReg_queues (off : Nat) (v : W32) : (s.setReg off v).queues = s.queues := rfl
@[simp] theorem State.setReg_stash (off : Nat) (v : W32) : (s.setReg off v).stash = s.stash := rfl
@[simp] theorem State.setReg_cores (off : Nat) (v : W32) : (s.setReg off v).cores = s.cores := rfl
@[simp] theorem State.setReg_vctxs (off : Nat) (v : W32) : (s.setReg off v).vctxs = s.vctxs := rfl
@[simp] theorem State.setReg_curves (off : Nat) (v : W32) : (s.setReg off v).curves = s.curves := rfl
@[simp] theorem State.setReg_chans (off : Nat) (v : W32) : (s.setReg off v).chans = s.chans := rfl
@[simp] theorem State.setReg_stackTab (off : Nat) (v : W32) : (s.setReg off v).stackTab = s.stackTab := rfl
@[simp] theorem State.setReg_retSave (off : Nat) (v : W32) : (s.setReg off v).retSave = s.retSave := rfl
@[simp] theorem State.setReg_snps (off : Nat) (v : W32) : (s.setReg off v).snps = s.snps := rfl
@[simp] theorem State.setReg_layers (off : Nat) (v : W32) : (s.setReg off v).layers = s.layers := rfl
@[simp] theorem State.setReg_fab (off : Nat) (v : W32) : (s.setReg off v).fab = s.fab := rfl
@[simp] theorem State.setReg_drift (off : Nat) (v : W32) : (s.setReg off v).drift = s.drift := rfl
@[simp] theorem State.setReg_ports (off : Nat) (v : W32) : (s.setReg off v).ports = s.ports := rfl
@[simp] theorem State.setReg_twi (off : Nat) (v : W32) : (s.setReg off v).twi = s.twi := rfl
@[simp] theorem State.setReg_hub (off : Nat) (v : W32) : (s.setReg off v).hub = s.hub := rfl
@[simp] theorem State.setReg_power (off : Nat) (v : W32) : (s.setReg off v).power = s.power := rfl
@[simp] theorem State.setReg_flash (off : Nat) (v : W32) : (s.setReg off v).flash = s.flash := rfl
@[simp] theorem State.setReg_mirrors (off : Nat) (v : W32) : (s.setReg off v).mirrors = s.mirrors := rfl
@[simp] theorem State.setReg_free (off : Nat) (v : W32) : (s.setReg off v).free = s.free := rfl
@[simp] theorem State.setReg_out (off : Nat) (v : W32) : (s.setReg off v).out = s.out := rfl
@[simp] theorem State.setReg_pending (off : Nat) (v : W32) : (s.setReg off v).pending = s.pending := rfl
@[simp] theorem State.setReg_thread (off : Nat) (v : W32) (k₁ : Nat) : (s.setReg off v).thread k₁ = s.thread k₁ := rfl
@[simp] theorem State.setReg_queue (off : Nat) (v : W32) (c₁ q₁ : Nat) : (s.setReg off v).queue c₁ q₁ = s.queue c₁ q₁ := rfl
@[simp] theorem State.setReg_part (off : Nat) (v : W32) (k₁ : Nat) : (s.setReg off v).part k₁ = s.part k₁ := rfl
@[simp] theorem State.setReg_layer (off : Nat) (v : W32) (k₁ : Nat) : (s.setReg off v).layer k₁ = s.layer k₁ := rfl
@[simp] theorem State.setReg_snp (off : Nat) (v : W32) (k₁ : Nat) : (s.setReg off v).snp k₁ = s.snp k₁ := rfl
@[simp] theorem State.setReg_mirror (off : Nat) (v : W32) (k₁ : Nat) : (s.setReg off v).mirror k₁ = s.mirror k₁ := rfl
@[simp] theorem State.setReg_item (off : Nat) (v : W32) (k₁ : Nat) : (s.setReg off v).item k₁ = s.item k₁ := rfl

@[simp] theorem State.setApp_now (off : Nat) (v : W32) : (s.setApp off v).now = s.now := rfl
@[simp] theorem State.setApp_mem (off : Nat) (v : W32) : (s.setApp off v).mem = s.mem := rfl
@[simp] theorem State.setApp_log (off : Nat) (v : W32) : (s.setApp off v).log = s.log := rfl
@[simp] theorem State.setApp_items (off : Nat) (v : W32) : (s.setApp off v).items = s.items := rfl
@[simp] theorem State.setApp_threads (off : Nat) (v : W32) : (s.setApp off v).threads = s.threads := rfl
@[simp] theorem State.setApp_progs (off : Nat) (v : W32) : (s.setApp off v).progs = s.progs := rfl
@[simp] theorem State.setApp_parts (off : Nat) (v : W32) : (s.setApp off v).parts = s.parts := rfl
@[simp] theorem State.setApp_clrpend (off : Nat) (v : W32) : (s.setApp off v).clrpend = s.clrpend := rfl
@[simp] theorem State.setApp_queues (off : Nat) (v : W32) : (s.setApp off v).queues = s.queues := rfl
@[simp] theorem State.setApp_stash (off : Nat) (v : W32) : (s.setApp off v).stash = s.stash := rfl
@[simp] theorem State.setApp_cores (off : Nat) (v : W32) : (s.setApp off v).cores = s.cores := rfl
@[simp] theorem State.setApp_vctxs (off : Nat) (v : W32) : (s.setApp off v).vctxs = s.vctxs := rfl
@[simp] theorem State.setApp_curves (off : Nat) (v : W32) : (s.setApp off v).curves = s.curves := rfl
@[simp] theorem State.setApp_chans (off : Nat) (v : W32) : (s.setApp off v).chans = s.chans := rfl
@[simp] theorem State.setApp_stackTab (off : Nat) (v : W32) : (s.setApp off v).stackTab = s.stackTab := rfl
@[simp] theorem State.setApp_retSave (off : Nat) (v : W32) : (s.setApp off v).retSave = s.retSave := rfl
@[simp] theorem State.setApp_snps (off : Nat) (v : W32) : (s.setApp off v).snps = s.snps := rfl
@[simp] theorem State.setApp_layers (off : Nat) (v : W32) : (s.setApp off v).layers = s.layers := rfl
@[simp] theorem State.setApp_fab (off : Nat) (v : W32) : (s.setApp off v).fab = s.fab := rfl
@[simp] theorem State.setApp_drift (off : Nat) (v : W32) : (s.setApp off v).drift = s.drift := rfl
@[simp] theorem State.setApp_ports (off : Nat) (v : W32) : (s.setApp off v).ports = s.ports := rfl
@[simp] theorem State.setApp_twi (off : Nat) (v : W32) : (s.setApp off v).twi = s.twi := rfl
@[simp] theorem State.setApp_hub (off : Nat) (v : W32) : (s.setApp off v).hub = s.hub := rfl
@[simp] theorem State.setApp_power (off : Nat) (v : W32) : (s.setApp off v).power = s.power := rfl
@[simp] theorem State.setApp_flash (off : Nat) (v : W32) : (s.setApp off v).flash = s.flash := rfl
@[simp] theorem State.setApp_mirrors (off : Nat) (v : W32) : (s.setApp off v).mirrors = s.mirrors := rfl
@[simp] theorem State.setApp_free (off : Nat) (v : W32) : (s.setApp off v).free = s.free := rfl
@[simp] theorem State.setApp_out (off : Nat) (v : W32) : (s.setApp off v).out = s.out := rfl
@[simp] theorem State.setApp_pending (off : Nat) (v : W32) : (s.setApp off v).pending = s.pending := rfl
@[simp] theorem State.setApp_thread (off : Nat) (v : W32) (k₁ : Nat) : (s.setApp off v).thread k₁ = s.thread k₁ := rfl
@[simp] theorem State.setApp_queue (off : Nat) (v : W32) (c₁ q₁ : Nat) : (s.setApp off v).queue c₁ q₁ = s.queue c₁ q₁ := rfl
@[simp] theorem State.setApp_part (off : Nat) (v : W32) (k₁ : Nat) : (s.setApp off v).part k₁ = s.part k₁ := rfl
@[simp] theorem State.setApp_layer (off : Nat) (v : W32) (k₁ : Nat) : (s.setApp off v).layer k₁ = s.layer k₁ := rfl
@[simp] theorem State.setApp_snp (off : Nat) (v : W32) (k₁ : Nat) : (s.setApp off v).snp k₁ = s.snp k₁ := rfl
@[simp] theorem State.setApp_mirror (off : Nat) (v : W32) (k₁ : Nat) : (s.setApp off v).mirror k₁ = s.mirror k₁ := rfl
@[simp] theorem State.setApp_item (off : Nat) (v : W32) (k₁ : Nat) : (s.setApp off v).item k₁ = s.item k₁ := rfl

@[simp] theorem State.setFld_now (off : Nat) (f : Fld) (v : Nat) : (s.setFld off f v).now = s.now := rfl
@[simp] theorem State.setFld_mem (off : Nat) (f : Fld) (v : Nat) : (s.setFld off f v).mem = s.mem := rfl
@[simp] theorem State.setFld_log (off : Nat) (f : Fld) (v : Nat) : (s.setFld off f v).log = s.log := rfl
@[simp] theorem State.setFld_items (off : Nat) (f : Fld) (v : Nat) : (s.setFld off f v).items = s.items := rfl
@[simp] theorem State.setFld_threads (off : Nat) (f : Fld) (v : Nat) : (s.setFld off f v).threads = s.threads := rfl
@[simp] theorem State.setFld_progs (off : Nat) (f : Fld) (v : Nat) : (s.setFld off f v).progs = s.progs := rfl
@[simp] theorem State.setFld_parts (off : Nat) (f : Fld) (v : Nat) : (s.setFld off f v).parts = s.parts := rfl
@[simp] theorem State.setFld_clrpend (off : Nat) (f : Fld) (v : Nat) : (s.setFld off f v).clrpend = s.clrpend := rfl
@[simp] theorem State.setFld_queues (off : Nat) (f : Fld) (v : Nat) : (s.setFld off f v).queues = s.queues := rfl
@[simp] theorem State.setFld_stash (off : Nat) (f : Fld) (v : Nat) : (s.setFld off f v).stash = s.stash := rfl
@[simp] theorem State.setFld_cores (off : Nat) (f : Fld) (v : Nat) : (s.setFld off f v).cores = s.cores := rfl
@[simp] theorem State.setFld_vctxs (off : Nat) (f : Fld) (v : Nat) : (s.setFld off f v).vctxs = s.vctxs := rfl
@[simp] theorem State.setFld_curves (off : Nat) (f : Fld) (v : Nat) : (s.setFld off f v).curves = s.curves := rfl
@[simp] theorem State.setFld_chans (off : Nat) (f : Fld) (v : Nat) : (s.setFld off f v).chans = s.chans := rfl
@[simp] theorem State.setFld_stackTab (off : Nat) (f : Fld) (v : Nat) : (s.setFld off f v).stackTab = s.stackTab := rfl
@[simp] theorem State.setFld_retSave (off : Nat) (f : Fld) (v : Nat) : (s.setFld off f v).retSave = s.retSave := rfl
@[simp] theorem State.setFld_snps (off : Nat) (f : Fld) (v : Nat) : (s.setFld off f v).snps = s.snps := rfl
@[simp] theorem State.setFld_layers (off : Nat) (f : Fld) (v : Nat) : (s.setFld off f v).layers = s.layers := rfl
@[simp] theorem State.setFld_fab (off : Nat) (f : Fld) (v : Nat) : (s.setFld off f v).fab = s.fab := rfl
@[simp] theorem State.setFld_drift (off : Nat) (f : Fld) (v : Nat) : (s.setFld off f v).drift = s.drift := rfl
@[simp] theorem State.setFld_ports (off : Nat) (f : Fld) (v : Nat) : (s.setFld off f v).ports = s.ports := rfl
@[simp] theorem State.setFld_twi (off : Nat) (f : Fld) (v : Nat) : (s.setFld off f v).twi = s.twi := rfl
@[simp] theorem State.setFld_hub (off : Nat) (f : Fld) (v : Nat) : (s.setFld off f v).hub = s.hub := rfl
@[simp] theorem State.setFld_power (off : Nat) (f : Fld) (v : Nat) : (s.setFld off f v).power = s.power := rfl
@[simp] theorem State.setFld_flash (off : Nat) (f : Fld) (v : Nat) : (s.setFld off f v).flash = s.flash := rfl
@[simp] theorem State.setFld_mirrors (off : Nat) (f : Fld) (v : Nat) : (s.setFld off f v).mirrors = s.mirrors := rfl
@[simp] theorem State.setFld_free (off : Nat) (f : Fld) (v : Nat) : (s.setFld off f v).free = s.free := rfl
@[simp] theorem State.setFld_out (off : Nat) (f : Fld) (v : Nat) : (s.setFld off f v).out = s.out := rfl
@[simp] theorem State.setFld_pending (off : Nat) (f : Fld) (v : Nat) : (s.setFld off f v).pending = s.pending := rfl
@[simp] theorem State.setFld_thread (off : Nat) (f : Fld) (v : Nat) (k₁ : Nat) : (s.setFld off f v).thread k₁ = s.thread k₁ := rfl
@[simp] theorem State.setFld_queue (off : Nat) (f : Fld) (v : Nat) (c₁ q₁ : Nat) : (s.setFld off f v).queue c₁ q₁ = s.queue c₁ q₁ := rfl
@[simp] theorem State.setFld_part (off : Nat) (f : Fld) (v : Nat) (k₁ : Nat) : (s.setFld off f v).part k₁ = s.part k₁ := rfl
@[simp] theorem State.setFld_layer (off : Nat) (f : Fld) (v : Nat) (k₁ : Nat) : (s.setFld off f v).layer k₁ = s.layer k₁ := rfl
@[simp] theorem State.setFld_snp (off : Nat) (f : Fld) (v : Nat) (k₁ : Nat) : (s.setFld off f v).snp k₁ = s.snp k₁ := rfl
@[simp] theorem State.setFld_mirror (off : Nat) (f : Fld) (v : Nat) (k₁ : Nat) : (s.setFld off f v).mirror k₁ = s.mirror k₁ := rfl
@[simp] theorem State.setFld_item (off : Nat) (f : Fld) (v : Nat) (k₁ : Nat) : (s.setFld off f v).item k₁ = s.item k₁ := rfl

@[simp] theorem State.resetReg_now (off : Nat) : (s.resetReg off).now = s.now := rfl
@[simp] theorem State.resetReg_mem (off : Nat) : (s.resetReg off).mem = s.mem := rfl
@[simp] theorem State.resetReg_log (off : Nat) : (s.resetReg off).log = s.log := rfl
@[simp] theorem State.resetReg_items (off : Nat) : (s.resetReg off).items = s.items := rfl
@[simp] theorem State.resetReg_threads (off : Nat) : (s.resetReg off).threads = s.threads := rfl
@[simp] theorem State.resetReg_progs (off : Nat) : (s.resetReg off).progs = s.progs := rfl
@[simp] theorem State.resetReg_parts (off : Nat) : (s.resetReg off).parts = s.parts := rfl
@[simp] theorem State.resetReg_clrpend (off : Nat) : (s.resetReg off).clrpend = s.clrpend := rfl
@[simp] theorem State.resetReg_queues (off : Nat) : (s.resetReg off).queues = s.queues := rfl
@[simp] theorem State.resetReg_stash (off : Nat) : (s.resetReg off).stash = s.stash := rfl
@[simp] theorem State.resetReg_cores (off : Nat) : (s.resetReg off).cores = s.cores := rfl
@[simp] theorem State.resetReg_vctxs (off : Nat) : (s.resetReg off).vctxs = s.vctxs := rfl
@[simp] theorem State.resetReg_curves (off : Nat) : (s.resetReg off).curves = s.curves := rfl
@[simp] theorem State.resetReg_chans (off : Nat) : (s.resetReg off).chans = s.chans := rfl
@[simp] theorem State.resetReg_stackTab (off : Nat) : (s.resetReg off).stackTab = s.stackTab := rfl
@[simp] theorem State.resetReg_retSave (off : Nat) : (s.resetReg off).retSave = s.retSave := rfl
@[simp] theorem State.resetReg_snps (off : Nat) : (s.resetReg off).snps = s.snps := rfl
@[simp] theorem State.resetReg_layers (off : Nat) : (s.resetReg off).layers = s.layers := rfl
@[simp] theorem State.resetReg_fab (off : Nat) : (s.resetReg off).fab = s.fab := rfl
@[simp] theorem State.resetReg_drift (off : Nat) : (s.resetReg off).drift = s.drift := rfl
@[simp] theorem State.resetReg_ports (off : Nat) : (s.resetReg off).ports = s.ports := rfl
@[simp] theorem State.resetReg_twi (off : Nat) : (s.resetReg off).twi = s.twi := rfl
@[simp] theorem State.resetReg_hub (off : Nat) : (s.resetReg off).hub = s.hub := rfl
@[simp] theorem State.resetReg_power (off : Nat) : (s.resetReg off).power = s.power := rfl
@[simp] theorem State.resetReg_flash (off : Nat) : (s.resetReg off).flash = s.flash := rfl
@[simp] theorem State.resetReg_mirrors (off : Nat) : (s.resetReg off).mirrors = s.mirrors := rfl
@[simp] theorem State.resetReg_free (off : Nat) : (s.resetReg off).free = s.free := rfl
@[simp] theorem State.resetReg_out (off : Nat) : (s.resetReg off).out = s.out := rfl
@[simp] theorem State.resetReg_pending (off : Nat) : (s.resetReg off).pending = s.pending := rfl
@[simp] theorem State.resetReg_thread (off : Nat) (k₁ : Nat) : (s.resetReg off).thread k₁ = s.thread k₁ := rfl
@[simp] theorem State.resetReg_queue (off : Nat) (c₁ q₁ : Nat) : (s.resetReg off).queue c₁ q₁ = s.queue c₁ q₁ := rfl
@[simp] theorem State.resetReg_part (off : Nat) (k₁ : Nat) : (s.resetReg off).part k₁ = s.part k₁ := rfl
@[simp] theorem State.resetReg_layer (off : Nat) (k₁ : Nat) : (s.resetReg off).layer k₁ = s.layer k₁ := rfl
@[simp] theorem State.resetReg_snp (off : Nat) (k₁ : Nat) : (s.resetReg off).snp k₁ = s.snp k₁ := rfl
@[simp] theorem State.resetReg_mirror (off : Nat) (k₁ : Nat) : (s.resetReg off).mirror k₁ = s.mirror k₁ := rfl
@[simp] theorem State.resetReg_item (off : Nat) (k₁ : Nat) : (s.resetReg off).item k₁ = s.item k₁ := rfl

@[simp] theorem State.bumpBy_now (off n : Nat) : (s.bumpBy off n).now = s.now := rfl
@[simp] theorem State.bumpBy_mem (off n : Nat) : (s.bumpBy off n).mem = s.mem := rfl
@[simp] theorem State.bumpBy_log (off n : Nat) : (s.bumpBy off n).log = s.log := rfl
@[simp] theorem State.bumpBy_items (off n : Nat) : (s.bumpBy off n).items = s.items := rfl
@[simp] theorem State.bumpBy_threads (off n : Nat) : (s.bumpBy off n).threads = s.threads := rfl
@[simp] theorem State.bumpBy_progs (off n : Nat) : (s.bumpBy off n).progs = s.progs := rfl
@[simp] theorem State.bumpBy_parts (off n : Nat) : (s.bumpBy off n).parts = s.parts := rfl
@[simp] theorem State.bumpBy_clrpend (off n : Nat) : (s.bumpBy off n).clrpend = s.clrpend := rfl
@[simp] theorem State.bumpBy_queues (off n : Nat) : (s.bumpBy off n).queues = s.queues := rfl
@[simp] theorem State.bumpBy_stash (off n : Nat) : (s.bumpBy off n).stash = s.stash := rfl
@[simp] theorem State.bumpBy_cores (off n : Nat) : (s.bumpBy off n).cores = s.cores := rfl
@[simp] theorem State.bumpBy_vctxs (off n : Nat) : (s.bumpBy off n).vctxs = s.vctxs := rfl
@[simp] theorem State.bumpBy_curves (off n : Nat) : (s.bumpBy off n).curves = s.curves := rfl
@[simp] theorem State.bumpBy_chans (off n : Nat) : (s.bumpBy off n).chans = s.chans := rfl
@[simp] theorem State.bumpBy_stackTab (off n : Nat) : (s.bumpBy off n).stackTab = s.stackTab := rfl
@[simp] theorem State.bumpBy_retSave (off n : Nat) : (s.bumpBy off n).retSave = s.retSave := rfl
@[simp] theorem State.bumpBy_snps (off n : Nat) : (s.bumpBy off n).snps = s.snps := rfl
@[simp] theorem State.bumpBy_layers (off n : Nat) : (s.bumpBy off n).layers = s.layers := rfl
@[simp] theorem State.bumpBy_fab (off n : Nat) : (s.bumpBy off n).fab = s.fab := rfl
@[simp] theorem State.bumpBy_drift (off n : Nat) : (s.bumpBy off n).drift = s.drift := rfl
@[simp] theorem State.bumpBy_ports (off n : Nat) : (s.bumpBy off n).ports = s.ports := rfl
@[simp] theorem State.bumpBy_twi (off n : Nat) : (s.bumpBy off n).twi = s.twi := rfl
@[simp] theorem State.bumpBy_hub (off n : Nat) : (s.bumpBy off n).hub = s.hub := rfl
@[simp] theorem State.bumpBy_power (off n : Nat) : (s.bumpBy off n).power = s.power := rfl
@[simp] theorem State.bumpBy_flash (off n : Nat) : (s.bumpBy off n).flash = s.flash := rfl
@[simp] theorem State.bumpBy_mirrors (off n : Nat) : (s.bumpBy off n).mirrors = s.mirrors := rfl
@[simp] theorem State.bumpBy_free (off n : Nat) : (s.bumpBy off n).free = s.free := rfl
@[simp] theorem State.bumpBy_out (off n : Nat) : (s.bumpBy off n).out = s.out := rfl
@[simp] theorem State.bumpBy_pending (off n : Nat) : (s.bumpBy off n).pending = s.pending := rfl
@[simp] theorem State.bumpBy_thread (off n : Nat) (k₁ : Nat) : (s.bumpBy off n).thread k₁ = s.thread k₁ := rfl
@[simp] theorem State.bumpBy_queue (off n : Nat) (c₁ q₁ : Nat) : (s.bumpBy off n).queue c₁ q₁ = s.queue c₁ q₁ := rfl
@[simp] theorem State.bumpBy_part (off n : Nat) (k₁ : Nat) : (s.bumpBy off n).part k₁ = s.part k₁ := rfl
@[simp] theorem State.bumpBy_layer (off n : Nat) (k₁ : Nat) : (s.bumpBy off n).layer k₁ = s.layer k₁ := rfl
@[simp] theorem State.bumpBy_snp (off n : Nat) (k₁ : Nat) : (s.bumpBy off n).snp k₁ = s.snp k₁ := rfl
@[simp] theorem State.bumpBy_mirror (off n : Nat) (k₁ : Nat) : (s.bumpBy off n).mirror k₁ = s.mirror k₁ := rfl
@[simp] theorem State.bumpBy_item (off n : Nat) (k₁ : Nat) : (s.bumpBy off n).item k₁ = s.item k₁ := rfl

@[simp] theorem State.bump_now (off : Nat) : (s.bump off).now = s.now := rfl
@[simp] theorem State.bump_mem (off : Nat) : (s.bump off).mem = s.mem := rfl
@[simp] theorem State.bump_log (off : Nat) : (s.bump off).log = s.log := rfl
@[simp] theorem State.bump_items (off : Nat) : (s.bump off).items = s.items := rfl
@[simp] theorem State.bump_threads (off : Nat) : (s.bump off).threads = s.threads := rfl
@[simp] theorem State.bump_progs (off : Nat) : (s.bump off).progs = s.progs := rfl
@[simp] theorem State.bump_parts (off : Nat) : (s.bump off).parts = s.parts := rfl
@[simp] theorem State.bump_clrpend (off : Nat) : (s.bump off).clrpend = s.clrpend := rfl
@[simp] theorem State.bump_queues (off : Nat) : (s.bump off).queues = s.queues := rfl
@[simp] theorem State.bump_stash (off : Nat) : (s.bump off).stash = s.stash := rfl
@[simp] theorem State.bump_cores (off : Nat) : (s.bump off).cores = s.cores := rfl
@[simp] theorem State.bump_vctxs (off : Nat) : (s.bump off).vctxs = s.vctxs := rfl
@[simp] theorem State.bump_curves (off : Nat) : (s.bump off).curves = s.curves := rfl
@[simp] theorem State.bump_chans (off : Nat) : (s.bump off).chans = s.chans := rfl
@[simp] theorem State.bump_stackTab (off : Nat) : (s.bump off).stackTab = s.stackTab := rfl
@[simp] theorem State.bump_retSave (off : Nat) : (s.bump off).retSave = s.retSave := rfl
@[simp] theorem State.bump_snps (off : Nat) : (s.bump off).snps = s.snps := rfl
@[simp] theorem State.bump_layers (off : Nat) : (s.bump off).layers = s.layers := rfl
@[simp] theorem State.bump_fab (off : Nat) : (s.bump off).fab = s.fab := rfl
@[simp] theorem State.bump_drift (off : Nat) : (s.bump off).drift = s.drift := rfl
@[simp] theorem State.bump_ports (off : Nat) : (s.bump off).ports = s.ports := rfl
@[simp] theorem State.bump_twi (off : Nat) : (s.bump off).twi = s.twi := rfl
@[simp] theorem State.bump_hub (off : Nat) : (s.bump off).hub = s.hub := rfl
@[simp] theorem State.bump_power (off : Nat) : (s.bump off).power = s.power := rfl
@[simp] theorem State.bump_flash (off : Nat) : (s.bump off).flash = s.flash := rfl
@[simp] theorem State.bump_mirrors (off : Nat) : (s.bump off).mirrors = s.mirrors := rfl
@[simp] theorem State.bump_free (off : Nat) : (s.bump off).free = s.free := rfl
@[simp] theorem State.bump_out (off : Nat) : (s.bump off).out = s.out := rfl
@[simp] theorem State.bump_pending (off : Nat) : (s.bump off).pending = s.pending := rfl
@[simp] theorem State.bump_thread (off : Nat) (k₁ : Nat) : (s.bump off).thread k₁ = s.thread k₁ := rfl
@[simp] theorem State.bump_queue (off : Nat) (c₁ q₁ : Nat) : (s.bump off).queue c₁ q₁ = s.queue c₁ q₁ := rfl
@[simp] theorem State.bump_part (off : Nat) (k₁ : Nat) : (s.bump off).part k₁ = s.part k₁ := rfl
@[simp] theorem State.bump_layer (off : Nat) (k₁ : Nat) : (s.bump off).layer k₁ = s.layer k₁ := rfl
@[simp] theorem State.bump_snp (off : Nat) (k₁ : Nat) : (s.bump off).snp k₁ = s.snp k₁ := rfl
@[simp] theorem State.bump_mirror (off : Nat) (k₁ : Nat) : (s.bump off).mirror k₁ = s.mirror k₁ := rfl
@[simp] theorem State.bump_item (off : Nat) (k₁ : Nat) : (s.bump off).item k₁ = s.item k₁ := rfl

@[simp] theorem State.bumpFld_now (off : Nat) (f : Fld) (n : Nat) : (s.bumpFld off f n).now = s.now := rfl
@[simp] theorem State.bumpFld_mem (off : Nat) (f : Fld) (n : Nat) : (s.bumpFld off f n).mem = s.mem := rfl
@[simp] theorem State.bumpFld_log (off : Nat) (f : Fld) (n : Nat) : (s.bumpFld off f n).log = s.log := rfl
@[simp] theorem State.bumpFld_items (off : Nat) (f : Fld) (n : Nat) : (s.bumpFld off f n).items = s.items := rfl
@[simp] theorem State.bumpFld_threads (off : Nat) (f : Fld) (n : Nat) : (s.bumpFld off f n).threads = s.threads := rfl
@[simp] theorem State.bumpFld_progs (off : Nat) (f : Fld) (n : Nat) : (s.bumpFld off f n).progs = s.progs := rfl
@[simp] theorem State.bumpFld_parts (off : Nat) (f : Fld) (n : Nat) : (s.bumpFld off f n).parts = s.parts := rfl
@[simp] theorem State.bumpFld_clrpend (off : Nat) (f : Fld) (n : Nat) : (s.bumpFld off f n).clrpend = s.clrpend := rfl
@[simp] theorem State.bumpFld_queues (off : Nat) (f : Fld) (n : Nat) : (s.bumpFld off f n).queues = s.queues := rfl
@[simp] theorem State.bumpFld_stash (off : Nat) (f : Fld) (n : Nat) : (s.bumpFld off f n).stash = s.stash := rfl
@[simp] theorem State.bumpFld_cores (off : Nat) (f : Fld) (n : Nat) : (s.bumpFld off f n).cores = s.cores := rfl
@[simp] theorem State.bumpFld_vctxs (off : Nat) (f : Fld) (n : Nat) : (s.bumpFld off f n).vctxs = s.vctxs := rfl
@[simp] theorem State.bumpFld_curves (off : Nat) (f : Fld) (n : Nat) : (s.bumpFld off f n).curves = s.curves := rfl
@[simp] theorem State.bumpFld_chans (off : Nat) (f : Fld) (n : Nat) : (s.bumpFld off f n).chans = s.chans := rfl
@[simp] theorem State.bumpFld_stackTab (off : Nat) (f : Fld) (n : Nat) : (s.bumpFld off f n).stackTab = s.stackTab := rfl
@[simp] theorem State.bumpFld_retSave (off : Nat) (f : Fld) (n : Nat) : (s.bumpFld off f n).retSave = s.retSave := rfl
@[simp] theorem State.bumpFld_snps (off : Nat) (f : Fld) (n : Nat) : (s.bumpFld off f n).snps = s.snps := rfl
@[simp] theorem State.bumpFld_layers (off : Nat) (f : Fld) (n : Nat) : (s.bumpFld off f n).layers = s.layers := rfl
@[simp] theorem State.bumpFld_fab (off : Nat) (f : Fld) (n : Nat) : (s.bumpFld off f n).fab = s.fab := rfl
@[simp] theorem State.bumpFld_drift (off : Nat) (f : Fld) (n : Nat) : (s.bumpFld off f n).drift = s.drift := rfl
@[simp] theorem State.bumpFld_ports (off : Nat) (f : Fld) (n : Nat) : (s.bumpFld off f n).ports = s.ports := rfl
@[simp] theorem State.bumpFld_twi (off : Nat) (f : Fld) (n : Nat) : (s.bumpFld off f n).twi = s.twi := rfl
@[simp] theorem State.bumpFld_hub (off : Nat) (f : Fld) (n : Nat) : (s.bumpFld off f n).hub = s.hub := rfl
@[simp] theorem State.bumpFld_power (off : Nat) (f : Fld) (n : Nat) : (s.bumpFld off f n).power = s.power := rfl
@[simp] theorem State.bumpFld_flash (off : Nat) (f : Fld) (n : Nat) : (s.bumpFld off f n).flash = s.flash := rfl
@[simp] theorem State.bumpFld_mirrors (off : Nat) (f : Fld) (n : Nat) : (s.bumpFld off f n).mirrors = s.mirrors := rfl
@[simp] theorem State.bumpFld_free (off : Nat) (f : Fld) (n : Nat) : (s.bumpFld off f n).free = s.free := rfl
@[simp] theorem State.bumpFld_out (off : Nat) (f : Fld) (n : Nat) : (s.bumpFld off f n).out = s.out := rfl
@[simp] theorem State.bumpFld_pending (off : Nat) (f : Fld) (n : Nat) : (s.bumpFld off f n).pending = s.pending := rfl
@[simp] theorem State.bumpFld_thread (off : Nat) (f : Fld) (n : Nat) (k₁ : Nat) : (s.bumpFld off f n).thread k₁ = s.thread k₁ := rfl
@[simp] theorem State.bumpFld_queue (off : Nat) (f : Fld) (n : Nat) (c₁ q₁ : Nat) : (s.bumpFld off f n).queue c₁ q₁ = s.queue c₁ q₁ := rfl
@[simp] theorem State.bumpFld_part (off : Nat) (f : Fld) (n : Nat) (k₁ : Nat) : (s.bumpFld off f n).part k₁ = s.part k₁ := rfl
@[simp] theorem State.bumpFld_layer (off : Nat) (f : Fld) (n : Nat) (k₁ : Nat) : (s.bumpFld off f n).layer k₁ = s.layer k₁ := rfl
@[simp] theorem State.bumpFld_snp (off : Nat) (f : Fld) (n : Nat) (k₁ : Nat) : (s.bumpFld off f n).snp k₁ = s.snp k₁ := rfl
@[simp] theorem State.bumpFld_mirror (off : Nat) (f : Fld) (n : Nat) (k₁ : Nat) : (s.bumpFld off f n).mirror k₁ = s.mirror k₁ := rfl
@[simp] theorem State.bumpFld_item (off : Nat) (f : Fld) (n : Nat) (k₁ : Nat) : (s.bumpFld off f n).item k₁ = s.item k₁ := rfl

@[simp] theorem State.raise_now (code : Nat) (job : Option Nat) (unit index a b : Nat) : (s.raise code job unit index a b).now = s.now := rfl
@[simp] theorem State.raise_regs (code : Nat) (job : Option Nat) (unit index a b : Nat) : (s.raise code job unit index a b).regs = s.regs := rfl
@[simp] theorem State.raise_mem (code : Nat) (job : Option Nat) (unit index a b : Nat) : (s.raise code job unit index a b).mem = s.mem := rfl
@[simp] theorem State.raise_items (code : Nat) (job : Option Nat) (unit index a b : Nat) : (s.raise code job unit index a b).items = s.items := rfl
@[simp] theorem State.raise_threads (code : Nat) (job : Option Nat) (unit index a b : Nat) : (s.raise code job unit index a b).threads = s.threads := rfl
@[simp] theorem State.raise_progs (code : Nat) (job : Option Nat) (unit index a b : Nat) : (s.raise code job unit index a b).progs = s.progs := rfl
@[simp] theorem State.raise_parts (code : Nat) (job : Option Nat) (unit index a b : Nat) : (s.raise code job unit index a b).parts = s.parts := rfl
@[simp] theorem State.raise_clrpend (code : Nat) (job : Option Nat) (unit index a b : Nat) : (s.raise code job unit index a b).clrpend = s.clrpend := rfl
@[simp] theorem State.raise_queues (code : Nat) (job : Option Nat) (unit index a b : Nat) : (s.raise code job unit index a b).queues = s.queues := rfl
@[simp] theorem State.raise_stash (code : Nat) (job : Option Nat) (unit index a b : Nat) : (s.raise code job unit index a b).stash = s.stash := rfl
@[simp] theorem State.raise_cores (code : Nat) (job : Option Nat) (unit index a b : Nat) : (s.raise code job unit index a b).cores = s.cores := rfl
@[simp] theorem State.raise_vctxs (code : Nat) (job : Option Nat) (unit index a b : Nat) : (s.raise code job unit index a b).vctxs = s.vctxs := rfl
@[simp] theorem State.raise_curves (code : Nat) (job : Option Nat) (unit index a b : Nat) : (s.raise code job unit index a b).curves = s.curves := rfl
@[simp] theorem State.raise_chans (code : Nat) (job : Option Nat) (unit index a b : Nat) : (s.raise code job unit index a b).chans = s.chans := rfl
@[simp] theorem State.raise_stackTab (code : Nat) (job : Option Nat) (unit index a b : Nat) : (s.raise code job unit index a b).stackTab = s.stackTab := rfl
@[simp] theorem State.raise_retSave (code : Nat) (job : Option Nat) (unit index a b : Nat) : (s.raise code job unit index a b).retSave = s.retSave := rfl
@[simp] theorem State.raise_snps (code : Nat) (job : Option Nat) (unit index a b : Nat) : (s.raise code job unit index a b).snps = s.snps := rfl
@[simp] theorem State.raise_layers (code : Nat) (job : Option Nat) (unit index a b : Nat) : (s.raise code job unit index a b).layers = s.layers := rfl
@[simp] theorem State.raise_fab (code : Nat) (job : Option Nat) (unit index a b : Nat) : (s.raise code job unit index a b).fab = s.fab := rfl
@[simp] theorem State.raise_drift (code : Nat) (job : Option Nat) (unit index a b : Nat) : (s.raise code job unit index a b).drift = s.drift := rfl
@[simp] theorem State.raise_ports (code : Nat) (job : Option Nat) (unit index a b : Nat) : (s.raise code job unit index a b).ports = s.ports := rfl
@[simp] theorem State.raise_twi (code : Nat) (job : Option Nat) (unit index a b : Nat) : (s.raise code job unit index a b).twi = s.twi := rfl
@[simp] theorem State.raise_hub (code : Nat) (job : Option Nat) (unit index a b : Nat) : (s.raise code job unit index a b).hub = s.hub := rfl
@[simp] theorem State.raise_power (code : Nat) (job : Option Nat) (unit index a b : Nat) : (s.raise code job unit index a b).power = s.power := rfl
@[simp] theorem State.raise_flash (code : Nat) (job : Option Nat) (unit index a b : Nat) : (s.raise code job unit index a b).flash = s.flash := rfl
@[simp] theorem State.raise_mirrors (code : Nat) (job : Option Nat) (unit index a b : Nat) : (s.raise code job unit index a b).mirrors = s.mirrors := rfl
@[simp] theorem State.raise_free (code : Nat) (job : Option Nat) (unit index a b : Nat) : (s.raise code job unit index a b).free = s.free := rfl
@[simp] theorem State.raise_out (code : Nat) (job : Option Nat) (unit index a b : Nat) : (s.raise code job unit index a b).out = s.out := rfl
@[simp] theorem State.raise_pending (code : Nat) (job : Option Nat) (unit index a b : Nat) : (s.raise code job unit index a b).pending = s.pending := rfl
@[simp] theorem State.raise_reg (code : Nat) (job : Option Nat) (unit index a b : Nat) (o₁ : Nat) : (s.raise code job unit index a b).reg o₁ = s.reg o₁ := rfl
@[simp] theorem State.raise_areg (code : Nat) (job : Option Nat) (unit index a b : Nat) (o₁ : Nat) : (s.raise code job unit index a b).areg o₁ = s.areg o₁ := rfl
@[simp] theorem State.raise_fld (code : Nat) (job : Option Nat) (unit index a b : Nat) (o₁ : Nat) (f₁ : Fld) : (s.raise code job unit index a b).fld o₁ f₁ = s.fld o₁ f₁ := rfl
@[simp] theorem State.raise_afld (code : Nat) (job : Option Nat) (unit index a b : Nat) (o₁ : Nat) (f₁ : Fld) : (s.raise code job unit index a b).afld o₁ f₁ = s.afld o₁ f₁ := rfl
@[simp] theorem State.raise_thread (code : Nat) (job : Option Nat) (unit index a b : Nat) (k₁ : Nat) : (s.raise code job unit index a b).thread k₁ = s.thread k₁ := rfl
@[simp] theorem State.raise_queue (code : Nat) (job : Option Nat) (unit index a b : Nat) (c₁ q₁ : Nat) : (s.raise code job unit index a b).queue c₁ q₁ = s.queue c₁ q₁ := rfl
@[simp] theorem State.raise_part (code : Nat) (job : Option Nat) (unit index a b : Nat) (k₁ : Nat) : (s.raise code job unit index a b).part k₁ = s.part k₁ := rfl
@[simp] theorem State.raise_layer (code : Nat) (job : Option Nat) (unit index a b : Nat) (k₁ : Nat) : (s.raise code job unit index a b).layer k₁ = s.layer k₁ := rfl
@[simp] theorem State.raise_snp (code : Nat) (job : Option Nat) (unit index a b : Nat) (k₁ : Nat) : (s.raise code job unit index a b).snp k₁ = s.snp k₁ := rfl
@[simp] theorem State.raise_mirror (code : Nat) (job : Option Nat) (unit index a b : Nat) (k₁ : Nat) : (s.raise code job unit index a b).mirror k₁ = s.mirror k₁ := rfl
@[simp] theorem State.raise_bytes (code : Nat) (job : Option Nat) (unit index a b : Nat) (a₁ n₁ : Nat) : (s.raise code job unit index a b).bytes a₁ n₁ = s.bytes a₁ n₁ := rfl
@[simp] theorem State.raise_item (code : Nat) (job : Option Nat) (unit index a b : Nat) (k₁ : Nat) : (s.raise code job unit index a b).item k₁ = s.item k₁ := rfl

@[simp] theorem State.send_now (m : Out) : (s.send m).now = s.now := rfl
@[simp] theorem State.send_regs (m : Out) : (s.send m).regs = s.regs := rfl
@[simp] theorem State.send_mem (m : Out) : (s.send m).mem = s.mem := rfl
@[simp] theorem State.send_log (m : Out) : (s.send m).log = s.log := rfl
@[simp] theorem State.send_items (m : Out) : (s.send m).items = s.items := rfl
@[simp] theorem State.send_threads (m : Out) : (s.send m).threads = s.threads := rfl
@[simp] theorem State.send_progs (m : Out) : (s.send m).progs = s.progs := rfl
@[simp] theorem State.send_parts (m : Out) : (s.send m).parts = s.parts := rfl
@[simp] theorem State.send_clrpend (m : Out) : (s.send m).clrpend = s.clrpend := rfl
@[simp] theorem State.send_queues (m : Out) : (s.send m).queues = s.queues := rfl
@[simp] theorem State.send_stash (m : Out) : (s.send m).stash = s.stash := rfl
@[simp] theorem State.send_cores (m : Out) : (s.send m).cores = s.cores := rfl
@[simp] theorem State.send_vctxs (m : Out) : (s.send m).vctxs = s.vctxs := rfl
@[simp] theorem State.send_curves (m : Out) : (s.send m).curves = s.curves := rfl
@[simp] theorem State.send_chans (m : Out) : (s.send m).chans = s.chans := rfl
@[simp] theorem State.send_stackTab (m : Out) : (s.send m).stackTab = s.stackTab := rfl
@[simp] theorem State.send_retSave (m : Out) : (s.send m).retSave = s.retSave := rfl
@[simp] theorem State.send_snps (m : Out) : (s.send m).snps = s.snps := rfl
@[simp] theorem State.send_layers (m : Out) : (s.send m).layers = s.layers := rfl
@[simp] theorem State.send_fab (m : Out) : (s.send m).fab = s.fab := rfl
@[simp] theorem State.send_drift (m : Out) : (s.send m).drift = s.drift := rfl
@[simp] theorem State.send_ports (m : Out) : (s.send m).ports = s.ports := rfl
@[simp] theorem State.send_twi (m : Out) : (s.send m).twi = s.twi := rfl
@[simp] theorem State.send_hub (m : Out) : (s.send m).hub = s.hub := rfl
@[simp] theorem State.send_power (m : Out) : (s.send m).power = s.power := rfl
@[simp] theorem State.send_flash (m : Out) : (s.send m).flash = s.flash := rfl
@[simp] theorem State.send_mirrors (m : Out) : (s.send m).mirrors = s.mirrors := rfl
@[simp] theorem State.send_free (m : Out) : (s.send m).free = s.free := rfl
@[simp] theorem State.send_pending (m : Out) : (s.send m).pending = s.pending := rfl
@[simp] theorem State.send_reg (m : Out) (o₁ : Nat) : (s.send m).reg o₁ = s.reg o₁ := rfl
@[simp] theorem State.send_areg (m : Out) (o₁ : Nat) : (s.send m).areg o₁ = s.areg o₁ := rfl
@[simp] theorem State.send_fld (m : Out) (o₁ : Nat) (f₁ : Fld) : (s.send m).fld o₁ f₁ = s.fld o₁ f₁ := rfl
@[simp] theorem State.send_afld (m : Out) (o₁ : Nat) (f₁ : Fld) : (s.send m).afld o₁ f₁ = s.afld o₁ f₁ := rfl
@[simp] theorem State.send_thread (m : Out) (k₁ : Nat) : (s.send m).thread k₁ = s.thread k₁ := rfl
@[simp] theorem State.send_queue (m : Out) (c₁ q₁ : Nat) : (s.send m).queue c₁ q₁ = s.queue c₁ q₁ := rfl
@[simp] theorem State.send_part (m : Out) (k₁ : Nat) : (s.send m).part k₁ = s.part k₁ := rfl
@[simp] theorem State.send_layer (m : Out) (k₁ : Nat) : (s.send m).layer k₁ = s.layer k₁ := rfl
@[simp] theorem State.send_snp (m : Out) (k₁ : Nat) : (s.send m).snp k₁ = s.snp k₁ := rfl
@[simp] theorem State.send_mirror (m : Out) (k₁ : Nat) : (s.send m).mirror k₁ = s.mirror k₁ := rfl
@[simp] theorem State.send_bytes (m : Out) (a₁ n₁ : Nat) : (s.send m).bytes a₁ n₁ = s.bytes a₁ n₁ := rfl
@[simp] theorem State.send_item (m : Out) (k₁ : Nat) : (s.send m).item k₁ = s.item k₁ := rfl

@[simp] theorem State.tick_now : (s.tick).now = s.now := rfl
@[simp] theorem State.tick_regs : (s.tick).regs = s.regs := rfl
@[simp] theorem State.tick_mem : (s.tick).mem = s.mem := rfl
@[simp] theorem State.tick_log : (s.tick).log = s.log := rfl
@[simp] theorem State.tick_items : (s.tick).items = s.items := rfl
@[simp] theorem State.tick_threads : (s.tick).threads = s.threads := rfl
@[simp] theorem State.tick_progs : (s.tick).progs = s.progs := rfl
@[simp] theorem State.tick_parts : (s.tick).parts = s.parts := rfl
@[simp] theorem State.tick_clrpend : (s.tick).clrpend = s.clrpend := rfl
@[simp] theorem State.tick_queues : (s.tick).queues = s.queues := rfl
@[simp] theorem State.tick_stash : (s.tick).stash = s.stash := rfl
@[simp] theorem State.tick_cores : (s.tick).cores = s.cores := rfl
@[simp] theorem State.tick_vctxs : (s.tick).vctxs = s.vctxs := rfl
@[simp] theorem State.tick_curves : (s.tick).curves = s.curves := rfl
@[simp] theorem State.tick_chans : (s.tick).chans = s.chans := rfl
@[simp] theorem State.tick_stackTab : (s.tick).stackTab = s.stackTab := rfl
@[simp] theorem State.tick_retSave : (s.tick).retSave = s.retSave := rfl
@[simp] theorem State.tick_snps : (s.tick).snps = s.snps := rfl
@[simp] theorem State.tick_layers : (s.tick).layers = s.layers := rfl
@[simp] theorem State.tick_fab : (s.tick).fab = s.fab := rfl
@[simp] theorem State.tick_drift : (s.tick).drift = s.drift := rfl
@[simp] theorem State.tick_ports : (s.tick).ports = s.ports := rfl
@[simp] theorem State.tick_twi : (s.tick).twi = s.twi := rfl
@[simp] theorem State.tick_hub : (s.tick).hub = s.hub := rfl
@[simp] theorem State.tick_power : (s.tick).power = s.power := rfl
@[simp] theorem State.tick_flash : (s.tick).flash = s.flash := rfl
@[simp] theorem State.tick_mirrors : (s.tick).mirrors = s.mirrors := rfl
@[simp] theorem State.tick_out : (s.tick).out = s.out := rfl
@[simp] theorem State.tick_pending : (s.tick).pending = s.pending := rfl
@[simp] theorem State.tick_reg (o₁ : Nat) : (s.tick).reg o₁ = s.reg o₁ := rfl
@[simp] theorem State.tick_areg (o₁ : Nat) : (s.tick).areg o₁ = s.areg o₁ := rfl
@[simp] theorem State.tick_fld (o₁ : Nat) (f₁ : Fld) : (s.tick).fld o₁ f₁ = s.fld o₁ f₁ := rfl
@[simp] theorem State.tick_afld (o₁ : Nat) (f₁ : Fld) : (s.tick).afld o₁ f₁ = s.afld o₁ f₁ := rfl
@[simp] theorem State.tick_thread (k₁ : Nat) : (s.tick).thread k₁ = s.thread k₁ := rfl
@[simp] theorem State.tick_queue (c₁ q₁ : Nat) : (s.tick).queue c₁ q₁ = s.queue c₁ q₁ := rfl
@[simp] theorem State.tick_part (k₁ : Nat) : (s.tick).part k₁ = s.part k₁ := rfl
@[simp] theorem State.tick_layer (k₁ : Nat) : (s.tick).layer k₁ = s.layer k₁ := rfl
@[simp] theorem State.tick_snp (k₁ : Nat) : (s.tick).snp k₁ = s.snp k₁ := rfl
@[simp] theorem State.tick_mirror (k₁ : Nat) : (s.tick).mirror k₁ = s.mirror k₁ := rfl
@[simp] theorem State.tick_bytes (a₁ n₁ : Nat) : (s.tick).bytes a₁ n₁ = s.bytes a₁ n₁ := rfl
@[simp] theorem State.tick_item (k₁ : Nat) : (s.tick).item k₁ = s.item k₁ := rfl

@[simp] theorem State.setPart_now (p : Nat) (x : Part) : (s.setPart p x).now = s.now := rfl
@[simp] theorem State.setPart_regs (p : Nat) (x : Part) : (s.setPart p x).regs = s.regs := rfl
@[simp] theorem State.setPart_mem (p : Nat) (x : Part) : (s.setPart p x).mem = s.mem := rfl
@[simp] theorem State.setPart_log (p : Nat) (x : Part) : (s.setPart p x).log = s.log := rfl
@[simp] theorem State.setPart_items (p : Nat) (x : Part) : (s.setPart p x).items = s.items := rfl
@[simp] theorem State.setPart_threads (p : Nat) (x : Part) : (s.setPart p x).threads = s.threads := rfl
@[simp] theorem State.setPart_progs (p : Nat) (x : Part) : (s.setPart p x).progs = s.progs := rfl
@[simp] theorem State.setPart_clrpend (p : Nat) (x : Part) : (s.setPart p x).clrpend = s.clrpend := rfl
@[simp] theorem State.setPart_queues (p : Nat) (x : Part) : (s.setPart p x).queues = s.queues := rfl
@[simp] theorem State.setPart_stash (p : Nat) (x : Part) : (s.setPart p x).stash = s.stash := rfl
@[simp] theorem State.setPart_cores (p : Nat) (x : Part) : (s.setPart p x).cores = s.cores := rfl
@[simp] theorem State.setPart_vctxs (p : Nat) (x : Part) : (s.setPart p x).vctxs = s.vctxs := rfl
@[simp] theorem State.setPart_curves (p : Nat) (x : Part) : (s.setPart p x).curves = s.curves := rfl
@[simp] theorem State.setPart_chans (p : Nat) (x : Part) : (s.setPart p x).chans = s.chans := rfl
@[simp] theorem State.setPart_stackTab (p : Nat) (x : Part) : (s.setPart p x).stackTab = s.stackTab := rfl
@[simp] theorem State.setPart_retSave (p : Nat) (x : Part) : (s.setPart p x).retSave = s.retSave := rfl
@[simp] theorem State.setPart_snps (p : Nat) (x : Part) : (s.setPart p x).snps = s.snps := rfl
@[simp] theorem State.setPart_layers (p : Nat) (x : Part) : (s.setPart p x).layers = s.layers := rfl
@[simp] theorem State.setPart_fab (p : Nat) (x : Part) : (s.setPart p x).fab = s.fab := rfl
@[simp] theorem State.setPart_drift (p : Nat) (x : Part) : (s.setPart p x).drift = s.drift := rfl
@[simp] theorem State.setPart_ports (p : Nat) (x : Part) : (s.setPart p x).ports = s.ports := rfl
@[simp] theorem State.setPart_twi (p : Nat) (x : Part) : (s.setPart p x).twi = s.twi := rfl
@[simp] theorem State.setPart_hub (p : Nat) (x : Part) : (s.setPart p x).hub = s.hub := rfl
@[simp] theorem State.setPart_power (p : Nat) (x : Part) : (s.setPart p x).power = s.power := rfl
@[simp] theorem State.setPart_flash (p : Nat) (x : Part) : (s.setPart p x).flash = s.flash := rfl
@[simp] theorem State.setPart_mirrors (p : Nat) (x : Part) : (s.setPart p x).mirrors = s.mirrors := rfl
@[simp] theorem State.setPart_free (p : Nat) (x : Part) : (s.setPart p x).free = s.free := rfl
@[simp] theorem State.setPart_out (p : Nat) (x : Part) : (s.setPart p x).out = s.out := rfl
@[simp] theorem State.setPart_pending (p : Nat) (x : Part) : (s.setPart p x).pending = s.pending := rfl
@[simp] theorem State.setPart_reg (p : Nat) (x : Part) (o₁ : Nat) : (s.setPart p x).reg o₁ = s.reg o₁ := rfl
@[simp] theorem State.setPart_areg (p : Nat) (x : Part) (o₁ : Nat) : (s.setPart p x).areg o₁ = s.areg o₁ := rfl
@[simp] theorem State.setPart_fld (p : Nat) (x : Part) (o₁ : Nat) (f₁ : Fld) : (s.setPart p x).fld o₁ f₁ = s.fld o₁ f₁ := rfl
@[simp] theorem State.setPart_afld (p : Nat) (x : Part) (o₁ : Nat) (f₁ : Fld) : (s.setPart p x).afld o₁ f₁ = s.afld o₁ f₁ := rfl
@[simp] theorem State.setPart_thread (p : Nat) (x : Part) (k₁ : Nat) : (s.setPart p x).thread k₁ = s.thread k₁ := rfl
@[simp] theorem State.setPart_queue (p : Nat) (x : Part) (c₁ q₁ : Nat) : (s.setPart p x).queue c₁ q₁ = s.queue c₁ q₁ := rfl
@[simp] theorem State.setPart_layer (p : Nat) (x : Part) (k₁ : Nat) : (s.setPart p x).layer k₁ = s.layer k₁ := rfl
@[simp] theorem State.setPart_snp (p : Nat) (x : Part) (k₁ : Nat) : (s.setPart p x).snp k₁ = s.snp k₁ := rfl
@[simp] theorem State.setPart_mirror (p : Nat) (x : Part) (k₁ : Nat) : (s.setPart p x).mirror k₁ = s.mirror k₁ := rfl
@[simp] theorem State.setPart_bytes (p : Nat) (x : Part) (a₁ n₁ : Nat) : (s.setPart p x).bytes a₁ n₁ = s.bytes a₁ n₁ := rfl
@[simp] theorem State.setPart_item (p : Nat) (x : Part) (k₁ : Nat) : (s.setPart p x).item k₁ = s.item k₁ := rfl

@[simp] theorem State.setCtxState_now (c v : Nat) : (s.setCtxState c v).now = s.now := rfl
@[simp] theorem State.setCtxState_mem (c v : Nat) : (s.setCtxState c v).mem = s.mem := rfl
@[simp] theorem State.setCtxState_log (c v : Nat) : (s.setCtxState c v).log = s.log := rfl
@[simp] theorem State.setCtxState_items (c v : Nat) : (s.setCtxState c v).items = s.items := rfl
@[simp] theorem State.setCtxState_threads (c v : Nat) : (s.setCtxState c v).threads = s.threads := rfl
@[simp] theorem State.setCtxState_progs (c v : Nat) : (s.setCtxState c v).progs = s.progs := rfl
@[simp] theorem State.setCtxState_parts (c v : Nat) : (s.setCtxState c v).parts = s.parts := rfl
@[simp] theorem State.setCtxState_clrpend (c v : Nat) : (s.setCtxState c v).clrpend = s.clrpend := rfl
@[simp] theorem State.setCtxState_queues (c v : Nat) : (s.setCtxState c v).queues = s.queues := rfl
@[simp] theorem State.setCtxState_stash (c v : Nat) : (s.setCtxState c v).stash = s.stash := rfl
@[simp] theorem State.setCtxState_cores (c v : Nat) : (s.setCtxState c v).cores = s.cores := rfl
@[simp] theorem State.setCtxState_vctxs (c v : Nat) : (s.setCtxState c v).vctxs = s.vctxs := rfl
@[simp] theorem State.setCtxState_curves (c v : Nat) : (s.setCtxState c v).curves = s.curves := rfl
@[simp] theorem State.setCtxState_chans (c v : Nat) : (s.setCtxState c v).chans = s.chans := rfl
@[simp] theorem State.setCtxState_stackTab (c v : Nat) : (s.setCtxState c v).stackTab = s.stackTab := rfl
@[simp] theorem State.setCtxState_retSave (c v : Nat) : (s.setCtxState c v).retSave = s.retSave := rfl
@[simp] theorem State.setCtxState_snps (c v : Nat) : (s.setCtxState c v).snps = s.snps := rfl
@[simp] theorem State.setCtxState_layers (c v : Nat) : (s.setCtxState c v).layers = s.layers := rfl
@[simp] theorem State.setCtxState_fab (c v : Nat) : (s.setCtxState c v).fab = s.fab := rfl
@[simp] theorem State.setCtxState_drift (c v : Nat) : (s.setCtxState c v).drift = s.drift := rfl
@[simp] theorem State.setCtxState_ports (c v : Nat) : (s.setCtxState c v).ports = s.ports := rfl
@[simp] theorem State.setCtxState_twi (c v : Nat) : (s.setCtxState c v).twi = s.twi := rfl
@[simp] theorem State.setCtxState_hub (c v : Nat) : (s.setCtxState c v).hub = s.hub := rfl
@[simp] theorem State.setCtxState_power (c v : Nat) : (s.setCtxState c v).power = s.power := rfl
@[simp] theorem State.setCtxState_flash (c v : Nat) : (s.setCtxState c v).flash = s.flash := rfl
@[simp] theorem State.setCtxState_mirrors (c v : Nat) : (s.setCtxState c v).mirrors = s.mirrors := rfl
@[simp] theorem State.setCtxState_free (c v : Nat) : (s.setCtxState c v).free = s.free := rfl
@[simp] theorem State.setCtxState_out (c v : Nat) : (s.setCtxState c v).out = s.out := rfl
@[simp] theorem State.setCtxState_pending (c v : Nat) : (s.setCtxState c v).pending = s.pending := rfl
@[simp] theorem State.setCtxState_thread (c v : Nat) (k₁ : Nat) : (s.setCtxState c v).thread k₁ = s.thread k₁ := rfl
@[simp] theorem State.setCtxState_queue (c v : Nat) (c₁ q₁ : Nat) : (s.setCtxState c v).queue c₁ q₁ = s.queue c₁ q₁ := rfl
@[simp] theorem State.setCtxState_part (c v : Nat) (k₁ : Nat) : (s.setCtxState c v).part k₁ = s.part k₁ := rfl
@[simp] theorem State.setCtxState_layer (c v : Nat) (k₁ : Nat) : (s.setCtxState c v).layer k₁ = s.layer k₁ := rfl
@[simp] theorem State.setCtxState_snp (c v : Nat) (k₁ : Nat) : (s.setCtxState c v).snp k₁ = s.snp k₁ := rfl
@[simp] theorem State.setCtxState_mirror (c v : Nat) (k₁ : Nat) : (s.setCtxState c v).mirror k₁ = s.mirror k₁ := rfl
@[simp] theorem State.setCtxState_item (c v : Nat) (k₁ : Nat) : (s.setCtxState c v).item k₁ = s.item k₁ := rfl

@[simp] theorem State.setQueue_now (c q : Nat) (x : Queue) : (s.setQueue c q x).now = s.now := rfl
@[simp] theorem State.setQueue_regs (c q : Nat) (x : Queue) : (s.setQueue c q x).regs = s.regs := rfl
@[simp] theorem State.setQueue_mem (c q : Nat) (x : Queue) : (s.setQueue c q x).mem = s.mem := rfl
@[simp] theorem State.setQueue_log (c q : Nat) (x : Queue) : (s.setQueue c q x).log = s.log := rfl
@[simp] theorem State.setQueue_items (c q : Nat) (x : Queue) : (s.setQueue c q x).items = s.items := rfl
@[simp] theorem State.setQueue_threads (c q : Nat) (x : Queue) : (s.setQueue c q x).threads = s.threads := rfl
@[simp] theorem State.setQueue_progs (c q : Nat) (x : Queue) : (s.setQueue c q x).progs = s.progs := rfl
@[simp] theorem State.setQueue_parts (c q : Nat) (x : Queue) : (s.setQueue c q x).parts = s.parts := rfl
@[simp] theorem State.setQueue_clrpend (c q : Nat) (x : Queue) : (s.setQueue c q x).clrpend = s.clrpend := rfl
@[simp] theorem State.setQueue_stash (c q : Nat) (x : Queue) : (s.setQueue c q x).stash = s.stash := rfl
@[simp] theorem State.setQueue_cores (c q : Nat) (x : Queue) : (s.setQueue c q x).cores = s.cores := rfl
@[simp] theorem State.setQueue_vctxs (c q : Nat) (x : Queue) : (s.setQueue c q x).vctxs = s.vctxs := rfl
@[simp] theorem State.setQueue_curves (c q : Nat) (x : Queue) : (s.setQueue c q x).curves = s.curves := rfl
@[simp] theorem State.setQueue_chans (c q : Nat) (x : Queue) : (s.setQueue c q x).chans = s.chans := rfl
@[simp] theorem State.setQueue_stackTab (c q : Nat) (x : Queue) : (s.setQueue c q x).stackTab = s.stackTab := rfl
@[simp] theorem State.setQueue_retSave (c q : Nat) (x : Queue) : (s.setQueue c q x).retSave = s.retSave := rfl
@[simp] theorem State.setQueue_snps (c q : Nat) (x : Queue) : (s.setQueue c q x).snps = s.snps := rfl
@[simp] theorem State.setQueue_layers (c q : Nat) (x : Queue) : (s.setQueue c q x).layers = s.layers := rfl
@[simp] theorem State.setQueue_fab (c q : Nat) (x : Queue) : (s.setQueue c q x).fab = s.fab := rfl
@[simp] theorem State.setQueue_drift (c q : Nat) (x : Queue) : (s.setQueue c q x).drift = s.drift := rfl
@[simp] theorem State.setQueue_ports (c q : Nat) (x : Queue) : (s.setQueue c q x).ports = s.ports := rfl
@[simp] theorem State.setQueue_twi (c q : Nat) (x : Queue) : (s.setQueue c q x).twi = s.twi := rfl
@[simp] theorem State.setQueue_hub (c q : Nat) (x : Queue) : (s.setQueue c q x).hub = s.hub := rfl
@[simp] theorem State.setQueue_power (c q : Nat) (x : Queue) : (s.setQueue c q x).power = s.power := rfl
@[simp] theorem State.setQueue_flash (c q : Nat) (x : Queue) : (s.setQueue c q x).flash = s.flash := rfl
@[simp] theorem State.setQueue_mirrors (c q : Nat) (x : Queue) : (s.setQueue c q x).mirrors = s.mirrors := rfl
@[simp] theorem State.setQueue_free (c q : Nat) (x : Queue) : (s.setQueue c q x).free = s.free := rfl
@[simp] theorem State.setQueue_out (c q : Nat) (x : Queue) : (s.setQueue c q x).out = s.out := rfl
@[simp] theorem State.setQueue_pending (c q : Nat) (x : Queue) : (s.setQueue c q x).pending = s.pending := rfl
@[simp] theorem State.setQueue_reg (c q : Nat) (x : Queue) (o₁ : Nat) : (s.setQueue c q x).reg o₁ = s.reg o₁ := rfl
@[simp] theorem State.setQueue_areg (c q : Nat) (x : Queue) (o₁ : Nat) : (s.setQueue c q x).areg o₁ = s.areg o₁ := rfl
@[simp] theorem State.setQueue_fld (c q : Nat) (x : Queue) (o₁ : Nat) (f₁ : Fld) : (s.setQueue c q x).fld o₁ f₁ = s.fld o₁ f₁ := rfl
@[simp] theorem State.setQueue_afld (c q : Nat) (x : Queue) (o₁ : Nat) (f₁ : Fld) : (s.setQueue c q x).afld o₁ f₁ = s.afld o₁ f₁ := rfl
@[simp] theorem State.setQueue_thread (c q : Nat) (x : Queue) (k₁ : Nat) : (s.setQueue c q x).thread k₁ = s.thread k₁ := rfl
@[simp] theorem State.setQueue_part (c q : Nat) (x : Queue) (k₁ : Nat) : (s.setQueue c q x).part k₁ = s.part k₁ := rfl
@[simp] theorem State.setQueue_layer (c q : Nat) (x : Queue) (k₁ : Nat) : (s.setQueue c q x).layer k₁ = s.layer k₁ := rfl
@[simp] theorem State.setQueue_snp (c q : Nat) (x : Queue) (k₁ : Nat) : (s.setQueue c q x).snp k₁ = s.snp k₁ := rfl
@[simp] theorem State.setQueue_mirror (c q : Nat) (x : Queue) (k₁ : Nat) : (s.setQueue c q x).mirror k₁ = s.mirror k₁ := rfl
@[simp] theorem State.setQueue_bytes (c q : Nat) (x : Queue) (a₁ n₁ : Nat) : (s.setQueue c q x).bytes a₁ n₁ = s.bytes a₁ n₁ := rfl
@[simp] theorem State.setQueue_item (c q : Nat) (x : Queue) (k₁ : Nat) : (s.setQueue c q x).item k₁ = s.item k₁ := rfl

@[simp] theorem State.setThread_now (k : Nat) (x : Thread) : (s.setThread k x).now = s.now := rfl
@[simp] theorem State.setThread_regs (k : Nat) (x : Thread) : (s.setThread k x).regs = s.regs := rfl
@[simp] theorem State.setThread_mem (k : Nat) (x : Thread) : (s.setThread k x).mem = s.mem := rfl
@[simp] theorem State.setThread_log (k : Nat) (x : Thread) : (s.setThread k x).log = s.log := rfl
@[simp] theorem State.setThread_items (k : Nat) (x : Thread) : (s.setThread k x).items = s.items := rfl
@[simp] theorem State.setThread_progs (k : Nat) (x : Thread) : (s.setThread k x).progs = s.progs := rfl
@[simp] theorem State.setThread_parts (k : Nat) (x : Thread) : (s.setThread k x).parts = s.parts := rfl
@[simp] theorem State.setThread_clrpend (k : Nat) (x : Thread) : (s.setThread k x).clrpend = s.clrpend := rfl
@[simp] theorem State.setThread_queues (k : Nat) (x : Thread) : (s.setThread k x).queues = s.queues := rfl
@[simp] theorem State.setThread_stash (k : Nat) (x : Thread) : (s.setThread k x).stash = s.stash := rfl
@[simp] theorem State.setThread_cores (k : Nat) (x : Thread) : (s.setThread k x).cores = s.cores := rfl
@[simp] theorem State.setThread_vctxs (k : Nat) (x : Thread) : (s.setThread k x).vctxs = s.vctxs := rfl
@[simp] theorem State.setThread_curves (k : Nat) (x : Thread) : (s.setThread k x).curves = s.curves := rfl
@[simp] theorem State.setThread_chans (k : Nat) (x : Thread) : (s.setThread k x).chans = s.chans := rfl
@[simp] theorem State.setThread_stackTab (k : Nat) (x : Thread) : (s.setThread k x).stackTab = s.stackTab := rfl
@[simp] theorem State.setThread_retSave (k : Nat) (x : Thread) : (s.setThread k x).retSave = s.retSave := rfl
@[simp] theorem State.setThread_snps (k : Nat) (x : Thread) : (s.setThread k x).snps = s.snps := rfl
@[simp] theorem State.setThread_layers (k : Nat) (x : Thread) : (s.setThread k x).layers = s.layers := rfl
@[simp] theorem State.setThread_fab (k : Nat) (x : Thread) : (s.setThread k x).fab = s.fab := rfl
@[simp] theorem State.setThread_drift (k : Nat) (x : Thread) : (s.setThread k x).drift = s.drift := rfl
@[simp] theorem State.setThread_ports (k : Nat) (x : Thread) : (s.setThread k x).ports = s.ports := rfl
@[simp] theorem State.setThread_twi (k : Nat) (x : Thread) : (s.setThread k x).twi = s.twi := rfl
@[simp] theorem State.setThread_hub (k : Nat) (x : Thread) : (s.setThread k x).hub = s.hub := rfl
@[simp] theorem State.setThread_power (k : Nat) (x : Thread) : (s.setThread k x).power = s.power := rfl
@[simp] theorem State.setThread_flash (k : Nat) (x : Thread) : (s.setThread k x).flash = s.flash := rfl
@[simp] theorem State.setThread_mirrors (k : Nat) (x : Thread) : (s.setThread k x).mirrors = s.mirrors := rfl
@[simp] theorem State.setThread_free (k : Nat) (x : Thread) : (s.setThread k x).free = s.free := rfl
@[simp] theorem State.setThread_out (k : Nat) (x : Thread) : (s.setThread k x).out = s.out := rfl
@[simp] theorem State.setThread_pending (k : Nat) (x : Thread) : (s.setThread k x).pending = s.pending := rfl
@[simp] theorem State.setThread_reg (k : Nat) (x : Thread) (o₁ : Nat) : (s.setThread k x).reg o₁ = s.reg o₁ := rfl
@[simp] theorem State.setThread_areg (k : Nat) (x : Thread) (o₁ : Nat) : (s.setThread k x).areg o₁ = s.areg o₁ := rfl
@[simp] theorem State.setThread_fld (k : Nat) (x : Thread) (o₁ : Nat) (f₁ : Fld) : (s.setThread k x).fld o₁ f₁ = s.fld o₁ f₁ := rfl
@[simp] theorem State.setThread_afld (k : Nat) (x : Thread) (o₁ : Nat) (f₁ : Fld) : (s.setThread k x).afld o₁ f₁ = s.afld o₁ f₁ := rfl
@[simp] theorem State.setThread_queue (k : Nat) (x : Thread) (c₁ q₁ : Nat) : (s.setThread k x).queue c₁ q₁ = s.queue c₁ q₁ := rfl
@[simp] theorem State.setThread_part (k : Nat) (x : Thread) (k₁ : Nat) : (s.setThread k x).part k₁ = s.part k₁ := rfl
@[simp] theorem State.setThread_layer (k : Nat) (x : Thread) (k₁ : Nat) : (s.setThread k x).layer k₁ = s.layer k₁ := rfl
@[simp] theorem State.setThread_snp (k : Nat) (x : Thread) (k₁ : Nat) : (s.setThread k x).snp k₁ = s.snp k₁ := rfl
@[simp] theorem State.setThread_mirror (k : Nat) (x : Thread) (k₁ : Nat) : (s.setThread k x).mirror k₁ = s.mirror k₁ := rfl
@[simp] theorem State.setThread_bytes (k : Nat) (x : Thread) (a₁ n₁ : Nat) : (s.setThread k x).bytes a₁ n₁ = s.bytes a₁ n₁ := rfl
@[simp] theorem State.setThread_item (k : Nat) (x : Thread) (k₁ : Nat) : (s.setThread k x).item k₁ = s.item k₁ := rfl

@[simp] theorem State.setStack_now (n : Nat) (x : Stack) : (s.setStack n x).now = s.now := rfl
@[simp] theorem State.setStack_regs (n : Nat) (x : Stack) : (s.setStack n x).regs = s.regs := rfl
@[simp] theorem State.setStack_mem (n : Nat) (x : Stack) : (s.setStack n x).mem = s.mem := rfl
@[simp] theorem State.setStack_log (n : Nat) (x : Stack) : (s.setStack n x).log = s.log := rfl
@[simp] theorem State.setStack_items (n : Nat) (x : Stack) : (s.setStack n x).items = s.items := rfl
@[simp] theorem State.setStack_threads (n : Nat) (x : Stack) : (s.setStack n x).threads = s.threads := rfl
@[simp] theorem State.setStack_progs (n : Nat) (x : Stack) : (s.setStack n x).progs = s.progs := rfl
@[simp] theorem State.setStack_parts (n : Nat) (x : Stack) : (s.setStack n x).parts = s.parts := rfl
@[simp] theorem State.setStack_clrpend (n : Nat) (x : Stack) : (s.setStack n x).clrpend = s.clrpend := rfl
@[simp] theorem State.setStack_queues (n : Nat) (x : Stack) : (s.setStack n x).queues = s.queues := rfl
@[simp] theorem State.setStack_stash (n : Nat) (x : Stack) : (s.setStack n x).stash = s.stash := rfl
@[simp] theorem State.setStack_cores (n : Nat) (x : Stack) : (s.setStack n x).cores = s.cores := rfl
@[simp] theorem State.setStack_vctxs (n : Nat) (x : Stack) : (s.setStack n x).vctxs = s.vctxs := rfl
@[simp] theorem State.setStack_curves (n : Nat) (x : Stack) : (s.setStack n x).curves = s.curves := rfl
@[simp] theorem State.setStack_chans (n : Nat) (x : Stack) : (s.setStack n x).chans = s.chans := rfl
@[simp] theorem State.setStack_retSave (n : Nat) (x : Stack) : (s.setStack n x).retSave = s.retSave := rfl
@[simp] theorem State.setStack_snps (n : Nat) (x : Stack) : (s.setStack n x).snps = s.snps := rfl
@[simp] theorem State.setStack_layers (n : Nat) (x : Stack) : (s.setStack n x).layers = s.layers := rfl
@[simp] theorem State.setStack_fab (n : Nat) (x : Stack) : (s.setStack n x).fab = s.fab := rfl
@[simp] theorem State.setStack_drift (n : Nat) (x : Stack) : (s.setStack n x).drift = s.drift := rfl
@[simp] theorem State.setStack_ports (n : Nat) (x : Stack) : (s.setStack n x).ports = s.ports := rfl
@[simp] theorem State.setStack_twi (n : Nat) (x : Stack) : (s.setStack n x).twi = s.twi := rfl
@[simp] theorem State.setStack_hub (n : Nat) (x : Stack) : (s.setStack n x).hub = s.hub := rfl
@[simp] theorem State.setStack_power (n : Nat) (x : Stack) : (s.setStack n x).power = s.power := rfl
@[simp] theorem State.setStack_flash (n : Nat) (x : Stack) : (s.setStack n x).flash = s.flash := rfl
@[simp] theorem State.setStack_mirrors (n : Nat) (x : Stack) : (s.setStack n x).mirrors = s.mirrors := rfl
@[simp] theorem State.setStack_free (n : Nat) (x : Stack) : (s.setStack n x).free = s.free := rfl
@[simp] theorem State.setStack_out (n : Nat) (x : Stack) : (s.setStack n x).out = s.out := rfl
@[simp] theorem State.setStack_pending (n : Nat) (x : Stack) : (s.setStack n x).pending = s.pending := rfl
@[simp] theorem State.setStack_reg (n : Nat) (x : Stack) (o₁ : Nat) : (s.setStack n x).reg o₁ = s.reg o₁ := rfl
@[simp] theorem State.setStack_areg (n : Nat) (x : Stack) (o₁ : Nat) : (s.setStack n x).areg o₁ = s.areg o₁ := rfl
@[simp] theorem State.setStack_fld (n : Nat) (x : Stack) (o₁ : Nat) (f₁ : Fld) : (s.setStack n x).fld o₁ f₁ = s.fld o₁ f₁ := rfl
@[simp] theorem State.setStack_afld (n : Nat) (x : Stack) (o₁ : Nat) (f₁ : Fld) : (s.setStack n x).afld o₁ f₁ = s.afld o₁ f₁ := rfl
@[simp] theorem State.setStack_thread (n : Nat) (x : Stack) (k₁ : Nat) : (s.setStack n x).thread k₁ = s.thread k₁ := rfl
@[simp] theorem State.setStack_queue (n : Nat) (x : Stack) (c₁ q₁ : Nat) : (s.setStack n x).queue c₁ q₁ = s.queue c₁ q₁ := rfl
@[simp] theorem State.setStack_part (n : Nat) (x : Stack) (k₁ : Nat) : (s.setStack n x).part k₁ = s.part k₁ := rfl
@[simp] theorem State.setStack_layer (n : Nat) (x : Stack) (k₁ : Nat) : (s.setStack n x).layer k₁ = s.layer k₁ := rfl
@[simp] theorem State.setStack_snp (n : Nat) (x : Stack) (k₁ : Nat) : (s.setStack n x).snp k₁ = s.snp k₁ := rfl
@[simp] theorem State.setStack_mirror (n : Nat) (x : Stack) (k₁ : Nat) : (s.setStack n x).mirror k₁ = s.mirror k₁ := rfl
@[simp] theorem State.setStack_item (n : Nat) (x : Stack) (k₁ : Nat) : (s.setStack n x).item k₁ = s.item k₁ := rfl

@[simp] theorem State.accept_now (it : Item) : (s.accept it).now = s.now := rfl
@[simp] theorem State.accept_regs (it : Item) : (s.accept it).regs = s.regs := rfl
@[simp] theorem State.accept_mem (it : Item) : (s.accept it).mem = s.mem := rfl
@[simp] theorem State.accept_log (it : Item) : (s.accept it).log = s.log := rfl
@[simp] theorem State.accept_threads (it : Item) : (s.accept it).threads = s.threads := rfl
@[simp] theorem State.accept_progs (it : Item) : (s.accept it).progs = s.progs := rfl
@[simp] theorem State.accept_parts (it : Item) : (s.accept it).parts = s.parts := rfl
@[simp] theorem State.accept_clrpend (it : Item) : (s.accept it).clrpend = s.clrpend := rfl
@[simp] theorem State.accept_queues (it : Item) : (s.accept it).queues = s.queues := rfl
@[simp] theorem State.accept_stash (it : Item) : (s.accept it).stash = s.stash := rfl
@[simp] theorem State.accept_cores (it : Item) : (s.accept it).cores = s.cores := rfl
@[simp] theorem State.accept_vctxs (it : Item) : (s.accept it).vctxs = s.vctxs := rfl
@[simp] theorem State.accept_curves (it : Item) : (s.accept it).curves = s.curves := rfl
@[simp] theorem State.accept_chans (it : Item) : (s.accept it).chans = s.chans := rfl
@[simp] theorem State.accept_stackTab (it : Item) : (s.accept it).stackTab = s.stackTab := rfl
@[simp] theorem State.accept_retSave (it : Item) : (s.accept it).retSave = s.retSave := rfl
@[simp] theorem State.accept_snps (it : Item) : (s.accept it).snps = s.snps := rfl
@[simp] theorem State.accept_layers (it : Item) : (s.accept it).layers = s.layers := rfl
@[simp] theorem State.accept_fab (it : Item) : (s.accept it).fab = s.fab := rfl
@[simp] theorem State.accept_drift (it : Item) : (s.accept it).drift = s.drift := rfl
@[simp] theorem State.accept_ports (it : Item) : (s.accept it).ports = s.ports := rfl
@[simp] theorem State.accept_twi (it : Item) : (s.accept it).twi = s.twi := rfl
@[simp] theorem State.accept_hub (it : Item) : (s.accept it).hub = s.hub := rfl
@[simp] theorem State.accept_power (it : Item) : (s.accept it).power = s.power := rfl
@[simp] theorem State.accept_flash (it : Item) : (s.accept it).flash = s.flash := rfl
@[simp] theorem State.accept_mirrors (it : Item) : (s.accept it).mirrors = s.mirrors := rfl
@[simp] theorem State.accept_free (it : Item) : (s.accept it).free = s.free := rfl
@[simp] theorem State.accept_out (it : Item) : (s.accept it).out = s.out := rfl
@[simp] theorem State.accept_pending (it : Item) : (s.accept it).pending = s.pending := rfl
@[simp] theorem State.accept_reg (it : Item) (o₁ : Nat) : (s.accept it).reg o₁ = s.reg o₁ := rfl
@[simp] theorem State.accept_areg (it : Item) (o₁ : Nat) : (s.accept it).areg o₁ = s.areg o₁ := rfl
@[simp] theorem State.accept_fld (it : Item) (o₁ : Nat) (f₁ : Fld) : (s.accept it).fld o₁ f₁ = s.fld o₁ f₁ := rfl
@[simp] theorem State.accept_afld (it : Item) (o₁ : Nat) (f₁ : Fld) : (s.accept it).afld o₁ f₁ = s.afld o₁ f₁ := rfl
@[simp] theorem State.accept_thread (it : Item) (k₁ : Nat) : (s.accept it).thread k₁ = s.thread k₁ := rfl
@[simp] theorem State.accept_queue (it : Item) (c₁ q₁ : Nat) : (s.accept it).queue c₁ q₁ = s.queue c₁ q₁ := rfl
@[simp] theorem State.accept_part (it : Item) (k₁ : Nat) : (s.accept it).part k₁ = s.part k₁ := rfl
@[simp] theorem State.accept_layer (it : Item) (k₁ : Nat) : (s.accept it).layer k₁ = s.layer k₁ := rfl
@[simp] theorem State.accept_snp (it : Item) (k₁ : Nat) : (s.accept it).snp k₁ = s.snp k₁ := rfl
@[simp] theorem State.accept_mirror (it : Item) (k₁ : Nat) : (s.accept it).mirror k₁ = s.mirror k₁ := rfl
@[simp] theorem State.accept_bytes (it : Item) (a₁ n₁ : Nat) : (s.accept it).bytes a₁ n₁ = s.bytes a₁ n₁ := rfl

@[simp] theorem State.modItem_now (id : Nat) (f : Item → Item) : (s.modItem id f).now = s.now := rfl
@[simp] theorem State.modItem_regs (id : Nat) (f : Item → Item) : (s.modItem id f).regs = s.regs := rfl
@[simp] theorem State.modItem_mem (id : Nat) (f : Item → Item) : (s.modItem id f).mem = s.mem := rfl
@[simp] theorem State.modItem_log (id : Nat) (f : Item → Item) : (s.modItem id f).log = s.log := rfl
@[simp] theorem State.modItem_threads (id : Nat) (f : Item → Item) : (s.modItem id f).threads = s.threads := rfl
@[simp] theorem State.modItem_progs (id : Nat) (f : Item → Item) : (s.modItem id f).progs = s.progs := rfl
@[simp] theorem State.modItem_parts (id : Nat) (f : Item → Item) : (s.modItem id f).parts = s.parts := rfl
@[simp] theorem State.modItem_clrpend (id : Nat) (f : Item → Item) : (s.modItem id f).clrpend = s.clrpend := rfl
@[simp] theorem State.modItem_queues (id : Nat) (f : Item → Item) : (s.modItem id f).queues = s.queues := rfl
@[simp] theorem State.modItem_stash (id : Nat) (f : Item → Item) : (s.modItem id f).stash = s.stash := rfl
@[simp] theorem State.modItem_cores (id : Nat) (f : Item → Item) : (s.modItem id f).cores = s.cores := rfl
@[simp] theorem State.modItem_vctxs (id : Nat) (f : Item → Item) : (s.modItem id f).vctxs = s.vctxs := rfl
@[simp] theorem State.modItem_curves (id : Nat) (f : Item → Item) : (s.modItem id f).curves = s.curves := rfl
@[simp] theorem State.modItem_chans (id : Nat) (f : Item → Item) : (s.modItem id f).chans = s.chans := rfl
@[simp] theorem State.modItem_stackTab (id : Nat) (f : Item → Item) : (s.modItem id f).stackTab = s.stackTab := rfl
@[simp] theorem State.modItem_retSave (id : Nat) (f : Item → Item) : (s.modItem id f).retSave = s.retSave := rfl
@[simp] theorem State.modItem_snps (id : Nat) (f : Item → Item) : (s.modItem id f).snps = s.snps := rfl
@[simp] theorem State.modItem_layers (id : Nat) (f : Item → Item) : (s.modItem id f).layers = s.layers := rfl
@[simp] theorem State.modItem_fab (id : Nat) (f : Item → Item) : (s.modItem id f).fab = s.fab := rfl
@[simp] theorem State.modItem_drift (id : Nat) (f : Item → Item) : (s.modItem id f).drift = s.drift := rfl
@[simp] theorem State.modItem_ports (id : Nat) (f : Item → Item) : (s.modItem id f).ports = s.ports := rfl
@[simp] theorem State.modItem_twi (id : Nat) (f : Item → Item) : (s.modItem id f).twi = s.twi := rfl
@[simp] theorem State.modItem_hub (id : Nat) (f : Item → Item) : (s.modItem id f).hub = s.hub := rfl
@[simp] theorem State.modItem_power (id : Nat) (f : Item → Item) : (s.modItem id f).power = s.power := rfl
@[simp] theorem State.modItem_flash (id : Nat) (f : Item → Item) : (s.modItem id f).flash = s.flash := rfl
@[simp] theorem State.modItem_mirrors (id : Nat) (f : Item → Item) : (s.modItem id f).mirrors = s.mirrors := rfl
@[simp] theorem State.modItem_free (id : Nat) (f : Item → Item) : (s.modItem id f).free = s.free := rfl
@[simp] theorem State.modItem_out (id : Nat) (f : Item → Item) : (s.modItem id f).out = s.out := rfl
@[simp] theorem State.modItem_pending (id : Nat) (f : Item → Item) : (s.modItem id f).pending = s.pending := rfl
@[simp] theorem State.modItem_reg (id : Nat) (f : Item → Item) (o₁ : Nat) : (s.modItem id f).reg o₁ = s.reg o₁ := rfl
@[simp] theorem State.modItem_areg (id : Nat) (f : Item → Item) (o₁ : Nat) : (s.modItem id f).areg o₁ = s.areg o₁ := rfl
@[simp] theorem State.modItem_fld (id : Nat) (f : Item → Item) (o₁ : Nat) (f₁ : Fld) : (s.modItem id f).fld o₁ f₁ = s.fld o₁ f₁ := rfl
@[simp] theorem State.modItem_afld (id : Nat) (f : Item → Item) (o₁ : Nat) (f₁ : Fld) : (s.modItem id f).afld o₁ f₁ = s.afld o₁ f₁ := rfl
@[simp] theorem State.modItem_thread (id : Nat) (f : Item → Item) (k₁ : Nat) : (s.modItem id f).thread k₁ = s.thread k₁ := rfl
@[simp] theorem State.modItem_queue (id : Nat) (f : Item → Item) (c₁ q₁ : Nat) : (s.modItem id f).queue c₁ q₁ = s.queue c₁ q₁ := rfl
@[simp] theorem State.modItem_part (id : Nat) (f : Item → Item) (k₁ : Nat) : (s.modItem id f).part k₁ = s.part k₁ := rfl
@[simp] theorem State.modItem_layer (id : Nat) (f : Item → Item) (k₁ : Nat) : (s.modItem id f).layer k₁ = s.layer k₁ := rfl
@[simp] theorem State.modItem_snp (id : Nat) (f : Item → Item) (k₁ : Nat) : (s.modItem id f).snp k₁ = s.snp k₁ := rfl
@[simp] theorem State.modItem_mirror (id : Nat) (f : Item → Item) (k₁ : Nat) : (s.modItem id f).mirror k₁ = s.mirror k₁ := rfl
@[simp] theorem State.modItem_bytes (id : Nat) (f : Item → Item) (a₁ n₁ : Nat) : (s.modItem id f).bytes a₁ n₁ = s.bytes a₁ n₁ := rfl

@[simp] theorem State.finish_now (id : Nat) (c : Completion) : (s.finish id c).now = s.now := rfl
@[simp] theorem State.finish_regs (id : Nat) (c : Completion) : (s.finish id c).regs = s.regs := rfl
@[simp] theorem State.finish_mem (id : Nat) (c : Completion) : (s.finish id c).mem = s.mem := rfl
@[simp] theorem State.finish_log (id : Nat) (c : Completion) : (s.finish id c).log = s.log := rfl
@[simp] theorem State.finish_threads (id : Nat) (c : Completion) : (s.finish id c).threads = s.threads := rfl
@[simp] theorem State.finish_progs (id : Nat) (c : Completion) : (s.finish id c).progs = s.progs := rfl
@[simp] theorem State.finish_parts (id : Nat) (c : Completion) : (s.finish id c).parts = s.parts := rfl
@[simp] theorem State.finish_clrpend (id : Nat) (c : Completion) : (s.finish id c).clrpend = s.clrpend := rfl
@[simp] theorem State.finish_queues (id : Nat) (c : Completion) : (s.finish id c).queues = s.queues := rfl
@[simp] theorem State.finish_stash (id : Nat) (c : Completion) : (s.finish id c).stash = s.stash := rfl
@[simp] theorem State.finish_cores (id : Nat) (c : Completion) : (s.finish id c).cores = s.cores := rfl
@[simp] theorem State.finish_vctxs (id : Nat) (c : Completion) : (s.finish id c).vctxs = s.vctxs := rfl
@[simp] theorem State.finish_curves (id : Nat) (c : Completion) : (s.finish id c).curves = s.curves := rfl
@[simp] theorem State.finish_chans (id : Nat) (c : Completion) : (s.finish id c).chans = s.chans := rfl
@[simp] theorem State.finish_stackTab (id : Nat) (c : Completion) : (s.finish id c).stackTab = s.stackTab := rfl
@[simp] theorem State.finish_retSave (id : Nat) (c : Completion) : (s.finish id c).retSave = s.retSave := rfl
@[simp] theorem State.finish_snps (id : Nat) (c : Completion) : (s.finish id c).snps = s.snps := rfl
@[simp] theorem State.finish_layers (id : Nat) (c : Completion) : (s.finish id c).layers = s.layers := rfl
@[simp] theorem State.finish_fab (id : Nat) (c : Completion) : (s.finish id c).fab = s.fab := rfl
@[simp] theorem State.finish_drift (id : Nat) (c : Completion) : (s.finish id c).drift = s.drift := rfl
@[simp] theorem State.finish_ports (id : Nat) (c : Completion) : (s.finish id c).ports = s.ports := rfl
@[simp] theorem State.finish_twi (id : Nat) (c : Completion) : (s.finish id c).twi = s.twi := rfl
@[simp] theorem State.finish_hub (id : Nat) (c : Completion) : (s.finish id c).hub = s.hub := rfl
@[simp] theorem State.finish_power (id : Nat) (c : Completion) : (s.finish id c).power = s.power := rfl
@[simp] theorem State.finish_flash (id : Nat) (c : Completion) : (s.finish id c).flash = s.flash := rfl
@[simp] theorem State.finish_mirrors (id : Nat) (c : Completion) : (s.finish id c).mirrors = s.mirrors := rfl
@[simp] theorem State.finish_free (id : Nat) (c : Completion) : (s.finish id c).free = s.free := rfl
@[simp] theorem State.finish_out (id : Nat) (c : Completion) : (s.finish id c).out = s.out := rfl
@[simp] theorem State.finish_pending (id : Nat) (c : Completion) : (s.finish id c).pending = s.pending := rfl
@[simp] theorem State.finish_reg (id : Nat) (c : Completion) (o₁ : Nat) : (s.finish id c).reg o₁ = s.reg o₁ := rfl
@[simp] theorem State.finish_areg (id : Nat) (c : Completion) (o₁ : Nat) : (s.finish id c).areg o₁ = s.areg o₁ := rfl
@[simp] theorem State.finish_fld (id : Nat) (c : Completion) (o₁ : Nat) (f₁ : Fld) : (s.finish id c).fld o₁ f₁ = s.fld o₁ f₁ := rfl
@[simp] theorem State.finish_afld (id : Nat) (c : Completion) (o₁ : Nat) (f₁ : Fld) : (s.finish id c).afld o₁ f₁ = s.afld o₁ f₁ := rfl
@[simp] theorem State.finish_thread (id : Nat) (c : Completion) (k₁ : Nat) : (s.finish id c).thread k₁ = s.thread k₁ := rfl
@[simp] theorem State.finish_queue (id : Nat) (c : Completion) (c₁ q₁ : Nat) : (s.finish id c).queue c₁ q₁ = s.queue c₁ q₁ := rfl
@[simp] theorem State.finish_part (id : Nat) (c : Completion) (k₁ : Nat) : (s.finish id c).part k₁ = s.part k₁ := rfl
@[simp] theorem State.finish_layer (id : Nat) (c : Completion) (k₁ : Nat) : (s.finish id c).layer k₁ = s.layer k₁ := rfl
@[simp] theorem State.finish_snp (id : Nat) (c : Completion) (k₁ : Nat) : (s.finish id c).snp k₁ = s.snp k₁ := rfl
@[simp] theorem State.finish_mirror (id : Nat) (c : Completion) (k₁ : Nat) : (s.finish id c).mirror k₁ = s.mirror k₁ := rfl
@[simp] theorem State.finish_bytes (id : Nat) (c : Completion) (a₁ n₁ : Nat) : (s.finish id c).bytes a₁ n₁ = s.bytes a₁ n₁ := rfl

@[simp] theorem State.report_now (it : Item) (c : Completion) : (s.report it c).now = s.now := by unfold State.report State.showLast; split <;> rfl
@[simp] theorem State.report_mem (it : Item) (c : Completion) : (s.report it c).mem = s.mem := by unfold State.report State.showLast; split <;> rfl
@[simp] theorem State.report_log (it : Item) (c : Completion) : (s.report it c).log = s.log := by unfold State.report State.showLast; split <;> rfl
@[simp] theorem State.report_threads (it : Item) (c : Completion) : (s.report it c).threads = s.threads := by unfold State.report State.showLast; split <;> rfl
@[simp] theorem State.report_progs (it : Item) (c : Completion) : (s.report it c).progs = s.progs := by unfold State.report State.showLast; split <;> rfl
@[simp] theorem State.report_parts (it : Item) (c : Completion) : (s.report it c).parts = s.parts := by unfold State.report State.showLast; split <;> rfl
@[simp] theorem State.report_clrpend (it : Item) (c : Completion) : (s.report it c).clrpend = s.clrpend := by unfold State.report State.showLast; split <;> rfl
@[simp] theorem State.report_queues (it : Item) (c : Completion) : (s.report it c).queues = s.queues := by unfold State.report State.showLast; split <;> rfl
@[simp] theorem State.report_stash (it : Item) (c : Completion) : (s.report it c).stash = s.stash := by unfold State.report State.showLast; split <;> rfl
@[simp] theorem State.report_cores (it : Item) (c : Completion) : (s.report it c).cores = s.cores := by unfold State.report State.showLast; split <;> rfl
@[simp] theorem State.report_vctxs (it : Item) (c : Completion) : (s.report it c).vctxs = s.vctxs := by unfold State.report State.showLast; split <;> rfl
@[simp] theorem State.report_curves (it : Item) (c : Completion) : (s.report it c).curves = s.curves := by unfold State.report State.showLast; split <;> rfl
@[simp] theorem State.report_chans (it : Item) (c : Completion) : (s.report it c).chans = s.chans := by unfold State.report State.showLast; split <;> rfl
@[simp] theorem State.report_stackTab (it : Item) (c : Completion) : (s.report it c).stackTab = s.stackTab := by unfold State.report State.showLast; split <;> rfl
@[simp] theorem State.report_retSave (it : Item) (c : Completion) : (s.report it c).retSave = s.retSave := by unfold State.report State.showLast; split <;> rfl
@[simp] theorem State.report_snps (it : Item) (c : Completion) : (s.report it c).snps = s.snps := by unfold State.report State.showLast; split <;> rfl
@[simp] theorem State.report_layers (it : Item) (c : Completion) : (s.report it c).layers = s.layers := by unfold State.report State.showLast; split <;> rfl
@[simp] theorem State.report_fab (it : Item) (c : Completion) : (s.report it c).fab = s.fab := by unfold State.report State.showLast; split <;> rfl
@[simp] theorem State.report_drift (it : Item) (c : Completion) : (s.report it c).drift = s.drift := by unfold State.report State.showLast; split <;> rfl
@[simp] theorem State.report_ports (it : Item) (c : Completion) : (s.report it c).ports = s.ports := by unfold State.report State.showLast; split <;> rfl
@[simp] theorem State.report_twi (it : Item) (c : Completion) : (s.report it c).twi = s.twi := by unfold State.report State.showLast; split <;> rfl
@[simp] theorem State.report_hub (it : Item) (c : Completion) : (s.report it c).hub = s.hub := by unfold State.report State.showLast; split <;> rfl
@[simp] theorem State.report_power (it : Item) (c : Completion) : (s.report it c).power = s.power := by unfold State.report State.showLast; split <;> rfl
@[simp] theorem State.report_flash (it : Item) (c : Completion) : (s.report it c).flash = s.flash := by unfold State.report State.showLast; split <;> rfl
@[simp] theorem State.report_mirrors (it : Item) (c : Completion) : (s.report it c).mirrors = s.mirrors := by unfold State.report State.showLast; split <;> rfl
@[simp] theorem State.report_free (it : Item) (c : Completion) : (s.report it c).free = s.free := by unfold State.report State.showLast; split <;> rfl
@[simp] theorem State.report_out (it : Item) (c : Completion) : (s.report it c).out = s.out := by unfold State.report State.showLast; split <;> rfl
@[simp] theorem State.report_pending (it : Item) (c : Completion) : (s.report it c).pending = s.pending := by unfold State.report State.showLast; split <;> rfl
@[simp] theorem State.report_thread (it : Item) (c : Completion) (k₁ : Nat) : (s.report it c).thread k₁ = s.thread k₁ := by unfold State.report State.showLast; split <;> rfl
@[simp] theorem State.report_queue (it : Item) (c : Completion) (c₁ q₁ : Nat) : (s.report it c).queue c₁ q₁ = s.queue c₁ q₁ := by unfold State.report State.showLast; split <;> rfl
@[simp] theorem State.report_part (it : Item) (c : Completion) (k₁ : Nat) : (s.report it c).part k₁ = s.part k₁ := by unfold State.report State.showLast; split <;> rfl
@[simp] theorem State.report_layer (it : Item) (c : Completion) (k₁ : Nat) : (s.report it c).layer k₁ = s.layer k₁ := by unfold State.report State.showLast; split <;> rfl
@[simp] theorem State.report_snp (it : Item) (c : Completion) (k₁ : Nat) : (s.report it c).snp k₁ = s.snp k₁ := by unfold State.report State.showLast; split <;> rfl
@[simp] theorem State.report_mirror (it : Item) (c : Completion) (k₁ : Nat) : (s.report it c).mirror k₁ = s.mirror k₁ := by unfold State.report State.showLast; split <;> rfl

@[simp] theorem State.acceptDone_now (unit index chan k : Nat) (c : Completion) : (s.acceptDone unit index chan k c).now = s.now := rfl
@[simp] theorem State.acceptDone_regs (unit index chan k : Nat) (c : Completion) : (s.acceptDone unit index chan k c).regs = s.regs := rfl
@[simp] theorem State.acceptDone_mem (unit index chan k : Nat) (c : Completion) : (s.acceptDone unit index chan k c).mem = s.mem := rfl
@[simp] theorem State.acceptDone_log (unit index chan k : Nat) (c : Completion) : (s.acceptDone unit index chan k c).log = s.log := rfl
@[simp] theorem State.acceptDone_threads (unit index chan k : Nat) (c : Completion) : (s.acceptDone unit index chan k c).threads = s.threads := rfl
@[simp] theorem State.acceptDone_progs (unit index chan k : Nat) (c : Completion) : (s.acceptDone unit index chan k c).progs = s.progs := rfl
@[simp] theorem State.acceptDone_parts (unit index chan k : Nat) (c : Completion) : (s.acceptDone unit index chan k c).parts = s.parts := rfl
@[simp] theorem State.acceptDone_clrpend (unit index chan k : Nat) (c : Completion) : (s.acceptDone unit index chan k c).clrpend = s.clrpend := rfl
@[simp] theorem State.acceptDone_queues (unit index chan k : Nat) (c : Completion) : (s.acceptDone unit index chan k c).queues = s.queues := rfl
@[simp] theorem State.acceptDone_stash (unit index chan k : Nat) (c : Completion) : (s.acceptDone unit index chan k c).stash = s.stash := rfl
@[simp] theorem State.acceptDone_cores (unit index chan k : Nat) (c : Completion) : (s.acceptDone unit index chan k c).cores = s.cores := rfl
@[simp] theorem State.acceptDone_vctxs (unit index chan k : Nat) (c : Completion) : (s.acceptDone unit index chan k c).vctxs = s.vctxs := rfl
@[simp] theorem State.acceptDone_curves (unit index chan k : Nat) (c : Completion) : (s.acceptDone unit index chan k c).curves = s.curves := rfl
@[simp] theorem State.acceptDone_chans (unit index chan k : Nat) (c : Completion) : (s.acceptDone unit index chan k c).chans = s.chans := rfl
@[simp] theorem State.acceptDone_stackTab (unit index chan k : Nat) (c : Completion) : (s.acceptDone unit index chan k c).stackTab = s.stackTab := rfl
@[simp] theorem State.acceptDone_retSave (unit index chan k : Nat) (c : Completion) : (s.acceptDone unit index chan k c).retSave = s.retSave := rfl
@[simp] theorem State.acceptDone_snps (unit index chan k : Nat) (c : Completion) : (s.acceptDone unit index chan k c).snps = s.snps := rfl
@[simp] theorem State.acceptDone_layers (unit index chan k : Nat) (c : Completion) : (s.acceptDone unit index chan k c).layers = s.layers := rfl
@[simp] theorem State.acceptDone_fab (unit index chan k : Nat) (c : Completion) : (s.acceptDone unit index chan k c).fab = s.fab := rfl
@[simp] theorem State.acceptDone_drift (unit index chan k : Nat) (c : Completion) : (s.acceptDone unit index chan k c).drift = s.drift := rfl
@[simp] theorem State.acceptDone_ports (unit index chan k : Nat) (c : Completion) : (s.acceptDone unit index chan k c).ports = s.ports := rfl
@[simp] theorem State.acceptDone_twi (unit index chan k : Nat) (c : Completion) : (s.acceptDone unit index chan k c).twi = s.twi := rfl
@[simp] theorem State.acceptDone_hub (unit index chan k : Nat) (c : Completion) : (s.acceptDone unit index chan k c).hub = s.hub := rfl
@[simp] theorem State.acceptDone_power (unit index chan k : Nat) (c : Completion) : (s.acceptDone unit index chan k c).power = s.power := rfl
@[simp] theorem State.acceptDone_flash (unit index chan k : Nat) (c : Completion) : (s.acceptDone unit index chan k c).flash = s.flash := rfl
@[simp] theorem State.acceptDone_mirrors (unit index chan k : Nat) (c : Completion) : (s.acceptDone unit index chan k c).mirrors = s.mirrors := rfl
@[simp] theorem State.acceptDone_free (unit index chan k : Nat) (c : Completion) : (s.acceptDone unit index chan k c).free = s.free := rfl
@[simp] theorem State.acceptDone_out (unit index chan k : Nat) (c : Completion) : (s.acceptDone unit index chan k c).out = s.out := rfl
@[simp] theorem State.acceptDone_pending (unit index chan k : Nat) (c : Completion) : (s.acceptDone unit index chan k c).pending = s.pending := rfl
@[simp] theorem State.acceptDone_reg (unit index chan k : Nat) (c : Completion) (o₁ : Nat) : (s.acceptDone unit index chan k c).reg o₁ = s.reg o₁ := rfl
@[simp] theorem State.acceptDone_areg (unit index chan k : Nat) (c : Completion) (o₁ : Nat) : (s.acceptDone unit index chan k c).areg o₁ = s.areg o₁ := rfl
@[simp] theorem State.acceptDone_fld (unit index chan k : Nat) (c : Completion) (o₁ : Nat) (f₁ : Fld) : (s.acceptDone unit index chan k c).fld o₁ f₁ = s.fld o₁ f₁ := rfl
@[simp] theorem State.acceptDone_afld (unit index chan k : Nat) (c : Completion) (o₁ : Nat) (f₁ : Fld) : (s.acceptDone unit index chan k c).afld o₁ f₁ = s.afld o₁ f₁ := rfl
@[simp] theorem State.acceptDone_thread (unit index chan k : Nat) (c : Completion) (k₁ : Nat) : (s.acceptDone unit index chan k c).thread k₁ = s.thread k₁ := rfl
@[simp] theorem State.acceptDone_queue (unit index chan k : Nat) (c : Completion) (c₁ q₁ : Nat) : (s.acceptDone unit index chan k c).queue c₁ q₁ = s.queue c₁ q₁ := rfl
@[simp] theorem State.acceptDone_part (unit index chan k : Nat) (c : Completion) (k₁ : Nat) : (s.acceptDone unit index chan k c).part k₁ = s.part k₁ := rfl
@[simp] theorem State.acceptDone_layer (unit index chan k : Nat) (c : Completion) (k₁ : Nat) : (s.acceptDone unit index chan k c).layer k₁ = s.layer k₁ := rfl
@[simp] theorem State.acceptDone_snp (unit index chan k : Nat) (c : Completion) (k₁ : Nat) : (s.acceptDone unit index chan k c).snp k₁ = s.snp k₁ := rfl
@[simp] theorem State.acceptDone_mirror (unit index chan k : Nat) (c : Completion) (k₁ : Nat) : (s.acceptDone unit index chan k c).mirror k₁ = s.mirror k₁ := rfl
@[simp] theorem State.acceptDone_bytes (unit index chan k : Nat) (c : Completion) (a₁ n₁ : Nat) : (s.acceptDone unit index chan k c).bytes a₁ n₁ = s.bytes a₁ n₁ := rfl

@[simp] theorem State.reportWord_now (k : Nat) (c : Completion) : (s.reportWord k c).now = s.now := rfl
@[simp] theorem State.reportWord_regs (k : Nat) (c : Completion) : (s.reportWord k c).regs = s.regs := rfl
@[simp] theorem State.reportWord_mem (k : Nat) (c : Completion) : (s.reportWord k c).mem = s.mem := rfl
@[simp] theorem State.reportWord_log (k : Nat) (c : Completion) : (s.reportWord k c).log = s.log := rfl
@[simp] theorem State.reportWord_threads (k : Nat) (c : Completion) : (s.reportWord k c).threads = s.threads := rfl
@[simp] theorem State.reportWord_progs (k : Nat) (c : Completion) : (s.reportWord k c).progs = s.progs := rfl
@[simp] theorem State.reportWord_parts (k : Nat) (c : Completion) : (s.reportWord k c).parts = s.parts := rfl
@[simp] theorem State.reportWord_clrpend (k : Nat) (c : Completion) : (s.reportWord k c).clrpend = s.clrpend := rfl
@[simp] theorem State.reportWord_queues (k : Nat) (c : Completion) : (s.reportWord k c).queues = s.queues := rfl
@[simp] theorem State.reportWord_stash (k : Nat) (c : Completion) : (s.reportWord k c).stash = s.stash := rfl
@[simp] theorem State.reportWord_cores (k : Nat) (c : Completion) : (s.reportWord k c).cores = s.cores := rfl
@[simp] theorem State.reportWord_vctxs (k : Nat) (c : Completion) : (s.reportWord k c).vctxs = s.vctxs := rfl
@[simp] theorem State.reportWord_curves (k : Nat) (c : Completion) : (s.reportWord k c).curves = s.curves := rfl
@[simp] theorem State.reportWord_chans (k : Nat) (c : Completion) : (s.reportWord k c).chans = s.chans := rfl
@[simp] theorem State.reportWord_stackTab (k : Nat) (c : Completion) : (s.reportWord k c).stackTab = s.stackTab := rfl
@[simp] theorem State.reportWord_retSave (k : Nat) (c : Completion) : (s.reportWord k c).retSave = s.retSave := rfl
@[simp] theorem State.reportWord_snps (k : Nat) (c : Completion) : (s.reportWord k c).snps = s.snps := rfl
@[simp] theorem State.reportWord_layers (k : Nat) (c : Completion) : (s.reportWord k c).layers = s.layers := rfl
@[simp] theorem State.reportWord_fab (k : Nat) (c : Completion) : (s.reportWord k c).fab = s.fab := rfl
@[simp] theorem State.reportWord_drift (k : Nat) (c : Completion) : (s.reportWord k c).drift = s.drift := rfl
@[simp] theorem State.reportWord_ports (k : Nat) (c : Completion) : (s.reportWord k c).ports = s.ports := rfl
@[simp] theorem State.reportWord_twi (k : Nat) (c : Completion) : (s.reportWord k c).twi = s.twi := rfl
@[simp] theorem State.reportWord_hub (k : Nat) (c : Completion) : (s.reportWord k c).hub = s.hub := rfl
@[simp] theorem State.reportWord_power (k : Nat) (c : Completion) : (s.reportWord k c).power = s.power := rfl
@[simp] theorem State.reportWord_flash (k : Nat) (c : Completion) : (s.reportWord k c).flash = s.flash := rfl
@[simp] theorem State.reportWord_mirrors (k : Nat) (c : Completion) : (s.reportWord k c).mirrors = s.mirrors := rfl
@[simp] theorem State.reportWord_free (k : Nat) (c : Completion) : (s.reportWord k c).free = s.free := rfl
@[simp] theorem State.reportWord_out (k : Nat) (c : Completion) : (s.reportWord k c).out = s.out := rfl
@[simp] theorem State.reportWord_pending (k : Nat) (c : Completion) : (s.reportWord k c).pending = s.pending := rfl
@[simp] theorem State.reportWord_reg (k : Nat) (c : Completion) (o₁ : Nat) : (s.reportWord k c).reg o₁ = s.reg o₁ := rfl
@[simp] theorem State.reportWord_areg (k : Nat) (c : Completion) (o₁ : Nat) : (s.reportWord k c).areg o₁ = s.areg o₁ := rfl
@[simp] theorem State.reportWord_fld (k : Nat) (c : Completion) (o₁ : Nat) (f₁ : Fld) : (s.reportWord k c).fld o₁ f₁ = s.fld o₁ f₁ := rfl
@[simp] theorem State.reportWord_afld (k : Nat) (c : Completion) (o₁ : Nat) (f₁ : Fld) : (s.reportWord k c).afld o₁ f₁ = s.afld o₁ f₁ := rfl
@[simp] theorem State.reportWord_thread (k : Nat) (c : Completion) (k₁ : Nat) : (s.reportWord k c).thread k₁ = s.thread k₁ := rfl
@[simp] theorem State.reportWord_queue (k : Nat) (c : Completion) (c₁ q₁ : Nat) : (s.reportWord k c).queue c₁ q₁ = s.queue c₁ q₁ := rfl
@[simp] theorem State.reportWord_part (k : Nat) (c : Completion) (k₁ : Nat) : (s.reportWord k c).part k₁ = s.part k₁ := rfl
@[simp] theorem State.reportWord_layer (k : Nat) (c : Completion) (k₁ : Nat) : (s.reportWord k c).layer k₁ = s.layer k₁ := rfl
@[simp] theorem State.reportWord_snp (k : Nat) (c : Completion) (k₁ : Nat) : (s.reportWord k c).snp k₁ = s.snp k₁ := rfl
@[simp] theorem State.reportWord_mirror (k : Nat) (c : Completion) (k₁ : Nat) : (s.reportWord k c).mirror k₁ = s.mirror k₁ := rfl
@[simp] theorem State.reportWord_bytes (k : Nat) (c : Completion) (a₁ n₁ : Nat) : (s.reportWord k c).bytes a₁ n₁ = s.bytes a₁ n₁ := rfl

@[simp] theorem State.advance_now (k : Nat) : (s.advance k).now = s.now := rfl
@[simp] theorem State.advance_regs (k : Nat) : (s.advance k).regs = s.regs := rfl
@[simp] theorem State.advance_mem (k : Nat) : (s.advance k).mem = s.mem := rfl
@[simp] theorem State.advance_log (k : Nat) : (s.advance k).log = s.log := rfl
@[simp] theorem State.advance_items (k : Nat) : (s.advance k).items = s.items := rfl
@[simp] theorem State.advance_progs (k : Nat) : (s.advance k).progs = s.progs := rfl
@[simp] theorem State.advance_parts (k : Nat) : (s.advance k).parts = s.parts := rfl
@[simp] theorem State.advance_clrpend (k : Nat) : (s.advance k).clrpend = s.clrpend := rfl
@[simp] theorem State.advance_queues (k : Nat) : (s.advance k).queues = s.queues := rfl
@[simp] theorem State.advance_stash (k : Nat) : (s.advance k).stash = s.stash := rfl
@[simp] theorem State.advance_cores (k : Nat) : (s.advance k).cores = s.cores := rfl
@[simp] theorem State.advance_vctxs (k : Nat) : (s.advance k).vctxs = s.vctxs := rfl
@[simp] theorem State.advance_curves (k : Nat) : (s.advance k).curves = s.curves := rfl
@[simp] theorem State.advance_chans (k : Nat) : (s.advance k).chans = s.chans := rfl
@[simp] theorem State.advance_stackTab (k : Nat) : (s.advance k).stackTab = s.stackTab := rfl
@[simp] theorem State.advance_retSave (k : Nat) : (s.advance k).retSave = s.retSave := rfl
@[simp] theorem State.advance_snps (k : Nat) : (s.advance k).snps = s.snps := rfl
@[simp] theorem State.advance_layers (k : Nat) : (s.advance k).layers = s.layers := rfl
@[simp] theorem State.advance_fab (k : Nat) : (s.advance k).fab = s.fab := rfl
@[simp] theorem State.advance_drift (k : Nat) : (s.advance k).drift = s.drift := rfl
@[simp] theorem State.advance_ports (k : Nat) : (s.advance k).ports = s.ports := rfl
@[simp] theorem State.advance_twi (k : Nat) : (s.advance k).twi = s.twi := rfl
@[simp] theorem State.advance_hub (k : Nat) : (s.advance k).hub = s.hub := rfl
@[simp] theorem State.advance_power (k : Nat) : (s.advance k).power = s.power := rfl
@[simp] theorem State.advance_flash (k : Nat) : (s.advance k).flash = s.flash := rfl
@[simp] theorem State.advance_mirrors (k : Nat) : (s.advance k).mirrors = s.mirrors := rfl
@[simp] theorem State.advance_free (k : Nat) : (s.advance k).free = s.free := rfl
@[simp] theorem State.advance_out (k : Nat) : (s.advance k).out = s.out := rfl
@[simp] theorem State.advance_pending (k : Nat) : (s.advance k).pending = s.pending := rfl
@[simp] theorem State.advance_reg (k : Nat) (o₁ : Nat) : (s.advance k).reg o₁ = s.reg o₁ := rfl
@[simp] theorem State.advance_areg (k : Nat) (o₁ : Nat) : (s.advance k).areg o₁ = s.areg o₁ := rfl
@[simp] theorem State.advance_fld (k : Nat) (o₁ : Nat) (f₁ : Fld) : (s.advance k).fld o₁ f₁ = s.fld o₁ f₁ := rfl
@[simp] theorem State.advance_afld (k : Nat) (o₁ : Nat) (f₁ : Fld) : (s.advance k).afld o₁ f₁ = s.afld o₁ f₁ := rfl
@[simp] theorem State.advance_queue (k : Nat) (c₁ q₁ : Nat) : (s.advance k).queue c₁ q₁ = s.queue c₁ q₁ := rfl
@[simp] theorem State.advance_part (k : Nat) (k₁ : Nat) : (s.advance k).part k₁ = s.part k₁ := rfl
@[simp] theorem State.advance_layer (k : Nat) (k₁ : Nat) : (s.advance k).layer k₁ = s.layer k₁ := rfl
@[simp] theorem State.advance_snp (k : Nat) (k₁ : Nat) : (s.advance k).snp k₁ = s.snp k₁ := rfl
@[simp] theorem State.advance_mirror (k : Nat) (k₁ : Nat) : (s.advance k).mirror k₁ = s.mirror k₁ := rfl
@[simp] theorem State.advance_bytes (k : Nat) (a₁ n₁ : Nat) : (s.advance k).bytes a₁ n₁ = s.bytes a₁ n₁ := rfl
@[simp] theorem State.advance_item (k : Nat) (k₁ : Nat) : (s.advance k).item k₁ = s.item k₁ := rfl

@[simp] theorem State.setLayer_now (l : Nat) (x : LinkLayer) : (s.setLayer l x).now = s.now := rfl
@[simp] theorem State.setLayer_regs (l : Nat) (x : LinkLayer) : (s.setLayer l x).regs = s.regs := rfl
@[simp] theorem State.setLayer_mem (l : Nat) (x : LinkLayer) : (s.setLayer l x).mem = s.mem := rfl
@[simp] theorem State.setLayer_log (l : Nat) (x : LinkLayer) : (s.setLayer l x).log = s.log := rfl
@[simp] theorem State.setLayer_items (l : Nat) (x : LinkLayer) : (s.setLayer l x).items = s.items := rfl
@[simp] theorem State.setLayer_threads (l : Nat) (x : LinkLayer) : (s.setLayer l x).threads = s.threads := rfl
@[simp] theorem State.setLayer_progs (l : Nat) (x : LinkLayer) : (s.setLayer l x).progs = s.progs := rfl
@[simp] theorem State.setLayer_parts (l : Nat) (x : LinkLayer) : (s.setLayer l x).parts = s.parts := rfl
@[simp] theorem State.setLayer_clrpend (l : Nat) (x : LinkLayer) : (s.setLayer l x).clrpend = s.clrpend := rfl
@[simp] theorem State.setLayer_queues (l : Nat) (x : LinkLayer) : (s.setLayer l x).queues = s.queues := rfl
@[simp] theorem State.setLayer_stash (l : Nat) (x : LinkLayer) : (s.setLayer l x).stash = s.stash := rfl
@[simp] theorem State.setLayer_cores (l : Nat) (x : LinkLayer) : (s.setLayer l x).cores = s.cores := rfl
@[simp] theorem State.setLayer_vctxs (l : Nat) (x : LinkLayer) : (s.setLayer l x).vctxs = s.vctxs := rfl
@[simp] theorem State.setLayer_curves (l : Nat) (x : LinkLayer) : (s.setLayer l x).curves = s.curves := rfl
@[simp] theorem State.setLayer_chans (l : Nat) (x : LinkLayer) : (s.setLayer l x).chans = s.chans := rfl
@[simp] theorem State.setLayer_stackTab (l : Nat) (x : LinkLayer) : (s.setLayer l x).stackTab = s.stackTab := rfl
@[simp] theorem State.setLayer_retSave (l : Nat) (x : LinkLayer) : (s.setLayer l x).retSave = s.retSave := rfl
@[simp] theorem State.setLayer_snps (l : Nat) (x : LinkLayer) : (s.setLayer l x).snps = s.snps := rfl
@[simp] theorem State.setLayer_fab (l : Nat) (x : LinkLayer) : (s.setLayer l x).fab = s.fab := rfl
@[simp] theorem State.setLayer_drift (l : Nat) (x : LinkLayer) : (s.setLayer l x).drift = s.drift := rfl
@[simp] theorem State.setLayer_ports (l : Nat) (x : LinkLayer) : (s.setLayer l x).ports = s.ports := rfl
@[simp] theorem State.setLayer_twi (l : Nat) (x : LinkLayer) : (s.setLayer l x).twi = s.twi := rfl
@[simp] theorem State.setLayer_hub (l : Nat) (x : LinkLayer) : (s.setLayer l x).hub = s.hub := rfl
@[simp] theorem State.setLayer_power (l : Nat) (x : LinkLayer) : (s.setLayer l x).power = s.power := rfl
@[simp] theorem State.setLayer_flash (l : Nat) (x : LinkLayer) : (s.setLayer l x).flash = s.flash := rfl
@[simp] theorem State.setLayer_mirrors (l : Nat) (x : LinkLayer) : (s.setLayer l x).mirrors = s.mirrors := rfl
@[simp] theorem State.setLayer_free (l : Nat) (x : LinkLayer) : (s.setLayer l x).free = s.free := rfl
@[simp] theorem State.setLayer_out (l : Nat) (x : LinkLayer) : (s.setLayer l x).out = s.out := rfl
@[simp] theorem State.setLayer_pending (l : Nat) (x : LinkLayer) : (s.setLayer l x).pending = s.pending := rfl
@[simp] theorem State.setLayer_reg (l : Nat) (x : LinkLayer) (o₁ : Nat) : (s.setLayer l x).reg o₁ = s.reg o₁ := rfl
@[simp] theorem State.setLayer_areg (l : Nat) (x : LinkLayer) (o₁ : Nat) : (s.setLayer l x).areg o₁ = s.areg o₁ := rfl
@[simp] theorem State.setLayer_fld (l : Nat) (x : LinkLayer) (o₁ : Nat) (f₁ : Fld) : (s.setLayer l x).fld o₁ f₁ = s.fld o₁ f₁ := rfl
@[simp] theorem State.setLayer_afld (l : Nat) (x : LinkLayer) (o₁ : Nat) (f₁ : Fld) : (s.setLayer l x).afld o₁ f₁ = s.afld o₁ f₁ := rfl
@[simp] theorem State.setLayer_thread (l : Nat) (x : LinkLayer) (k₁ : Nat) : (s.setLayer l x).thread k₁ = s.thread k₁ := rfl
@[simp] theorem State.setLayer_queue (l : Nat) (x : LinkLayer) (c₁ q₁ : Nat) : (s.setLayer l x).queue c₁ q₁ = s.queue c₁ q₁ := rfl
@[simp] theorem State.setLayer_part (l : Nat) (x : LinkLayer) (k₁ : Nat) : (s.setLayer l x).part k₁ = s.part k₁ := rfl
@[simp] theorem State.setLayer_snp (l : Nat) (x : LinkLayer) (k₁ : Nat) : (s.setLayer l x).snp k₁ = s.snp k₁ := rfl
@[simp] theorem State.setLayer_mirror (l : Nat) (x : LinkLayer) (k₁ : Nat) : (s.setLayer l x).mirror k₁ = s.mirror k₁ := rfl
@[simp] theorem State.setLayer_bytes (l : Nat) (x : LinkLayer) (a₁ n₁ : Nat) : (s.setLayer l x).bytes a₁ n₁ = s.bytes a₁ n₁ := rfl
@[simp] theorem State.setLayer_item (l : Nat) (x : LinkLayer) (k₁ : Nat) : (s.setLayer l x).item k₁ = s.item k₁ := rfl

@[simp] theorem State.setMirror_now (j : Nat) (m : Mirror) : (s.setMirror j m).now = s.now := rfl
@[simp] theorem State.setMirror_regs (j : Nat) (m : Mirror) : (s.setMirror j m).regs = s.regs := rfl
@[simp] theorem State.setMirror_mem (j : Nat) (m : Mirror) : (s.setMirror j m).mem = s.mem := rfl
@[simp] theorem State.setMirror_log (j : Nat) (m : Mirror) : (s.setMirror j m).log = s.log := rfl
@[simp] theorem State.setMirror_items (j : Nat) (m : Mirror) : (s.setMirror j m).items = s.items := rfl
@[simp] theorem State.setMirror_threads (j : Nat) (m : Mirror) : (s.setMirror j m).threads = s.threads := rfl
@[simp] theorem State.setMirror_progs (j : Nat) (m : Mirror) : (s.setMirror j m).progs = s.progs := rfl
@[simp] theorem State.setMirror_parts (j : Nat) (m : Mirror) : (s.setMirror j m).parts = s.parts := rfl
@[simp] theorem State.setMirror_clrpend (j : Nat) (m : Mirror) : (s.setMirror j m).clrpend = s.clrpend := rfl
@[simp] theorem State.setMirror_queues (j : Nat) (m : Mirror) : (s.setMirror j m).queues = s.queues := rfl
@[simp] theorem State.setMirror_stash (j : Nat) (m : Mirror) : (s.setMirror j m).stash = s.stash := rfl
@[simp] theorem State.setMirror_cores (j : Nat) (m : Mirror) : (s.setMirror j m).cores = s.cores := rfl
@[simp] theorem State.setMirror_vctxs (j : Nat) (m : Mirror) : (s.setMirror j m).vctxs = s.vctxs := rfl
@[simp] theorem State.setMirror_curves (j : Nat) (m : Mirror) : (s.setMirror j m).curves = s.curves := rfl
@[simp] theorem State.setMirror_chans (j : Nat) (m : Mirror) : (s.setMirror j m).chans = s.chans := rfl
@[simp] theorem State.setMirror_stackTab (j : Nat) (m : Mirror) : (s.setMirror j m).stackTab = s.stackTab := rfl
@[simp] theorem State.setMirror_retSave (j : Nat) (m : Mirror) : (s.setMirror j m).retSave = s.retSave := rfl
@[simp] theorem State.setMirror_snps (j : Nat) (m : Mirror) : (s.setMirror j m).snps = s.snps := rfl
@[simp] theorem State.setMirror_layers (j : Nat) (m : Mirror) : (s.setMirror j m).layers = s.layers := rfl
@[simp] theorem State.setMirror_fab (j : Nat) (m : Mirror) : (s.setMirror j m).fab = s.fab := rfl
@[simp] theorem State.setMirror_drift (j : Nat) (m : Mirror) : (s.setMirror j m).drift = s.drift := rfl
@[simp] theorem State.setMirror_ports (j : Nat) (m : Mirror) : (s.setMirror j m).ports = s.ports := rfl
@[simp] theorem State.setMirror_twi (j : Nat) (m : Mirror) : (s.setMirror j m).twi = s.twi := rfl
@[simp] theorem State.setMirror_hub (j : Nat) (m : Mirror) : (s.setMirror j m).hub = s.hub := rfl
@[simp] theorem State.setMirror_power (j : Nat) (m : Mirror) : (s.setMirror j m).power = s.power := rfl
@[simp] theorem State.setMirror_flash (j : Nat) (m : Mirror) : (s.setMirror j m).flash = s.flash := rfl
@[simp] theorem State.setMirror_free (j : Nat) (m : Mirror) : (s.setMirror j m).free = s.free := rfl
@[simp] theorem State.setMirror_out (j : Nat) (m : Mirror) : (s.setMirror j m).out = s.out := rfl
@[simp] theorem State.setMirror_pending (j : Nat) (m : Mirror) : (s.setMirror j m).pending = s.pending := rfl
@[simp] theorem State.setMirror_reg (j : Nat) (m : Mirror) (o₁ : Nat) : (s.setMirror j m).reg o₁ = s.reg o₁ := rfl
@[simp] theorem State.setMirror_areg (j : Nat) (m : Mirror) (o₁ : Nat) : (s.setMirror j m).areg o₁ = s.areg o₁ := rfl
@[simp] theorem State.setMirror_fld (j : Nat) (m : Mirror) (o₁ : Nat) (f₁ : Fld) : (s.setMirror j m).fld o₁ f₁ = s.fld o₁ f₁ := rfl
@[simp] theorem State.setMirror_afld (j : Nat) (m : Mirror) (o₁ : Nat) (f₁ : Fld) : (s.setMirror j m).afld o₁ f₁ = s.afld o₁ f₁ := rfl
@[simp] theorem State.setMirror_thread (j : Nat) (m : Mirror) (k₁ : Nat) : (s.setMirror j m).thread k₁ = s.thread k₁ := rfl
@[simp] theorem State.setMirror_queue (j : Nat) (m : Mirror) (c₁ q₁ : Nat) : (s.setMirror j m).queue c₁ q₁ = s.queue c₁ q₁ := rfl
@[simp] theorem State.setMirror_part (j : Nat) (m : Mirror) (k₁ : Nat) : (s.setMirror j m).part k₁ = s.part k₁ := rfl
@[simp] theorem State.setMirror_layer (j : Nat) (m : Mirror) (k₁ : Nat) : (s.setMirror j m).layer k₁ = s.layer k₁ := rfl
@[simp] theorem State.setMirror_snp (j : Nat) (m : Mirror) (k₁ : Nat) : (s.setMirror j m).snp k₁ = s.snp k₁ := rfl
@[simp] theorem State.setMirror_bytes (j : Nat) (m : Mirror) (a₁ n₁ : Nat) : (s.setMirror j m).bytes a₁ n₁ = s.bytes a₁ n₁ := rfl
@[simp] theorem State.setMirror_item (j : Nat) (m : Mirror) (k₁ : Nat) : (s.setMirror j m).item k₁ = s.item k₁ := rfl

@[simp] theorem State.setLinkState_now (l v : Nat) : (s.setLinkState l v).now = s.now := rfl
@[simp] theorem State.setLinkState_mem (l v : Nat) : (s.setLinkState l v).mem = s.mem := rfl
@[simp] theorem State.setLinkState_log (l v : Nat) : (s.setLinkState l v).log = s.log := rfl
@[simp] theorem State.setLinkState_items (l v : Nat) : (s.setLinkState l v).items = s.items := rfl
@[simp] theorem State.setLinkState_threads (l v : Nat) : (s.setLinkState l v).threads = s.threads := rfl
@[simp] theorem State.setLinkState_progs (l v : Nat) : (s.setLinkState l v).progs = s.progs := rfl
@[simp] theorem State.setLinkState_parts (l v : Nat) : (s.setLinkState l v).parts = s.parts := rfl
@[simp] theorem State.setLinkState_clrpend (l v : Nat) : (s.setLinkState l v).clrpend = s.clrpend := rfl
@[simp] theorem State.setLinkState_queues (l v : Nat) : (s.setLinkState l v).queues = s.queues := rfl
@[simp] theorem State.setLinkState_stash (l v : Nat) : (s.setLinkState l v).stash = s.stash := rfl
@[simp] theorem State.setLinkState_cores (l v : Nat) : (s.setLinkState l v).cores = s.cores := rfl
@[simp] theorem State.setLinkState_vctxs (l v : Nat) : (s.setLinkState l v).vctxs = s.vctxs := rfl
@[simp] theorem State.setLinkState_curves (l v : Nat) : (s.setLinkState l v).curves = s.curves := rfl
@[simp] theorem State.setLinkState_chans (l v : Nat) : (s.setLinkState l v).chans = s.chans := rfl
@[simp] theorem State.setLinkState_stackTab (l v : Nat) : (s.setLinkState l v).stackTab = s.stackTab := rfl
@[simp] theorem State.setLinkState_retSave (l v : Nat) : (s.setLinkState l v).retSave = s.retSave := rfl
@[simp] theorem State.setLinkState_snps (l v : Nat) : (s.setLinkState l v).snps = s.snps := rfl
@[simp] theorem State.setLinkState_layers (l v : Nat) : (s.setLinkState l v).layers = s.layers := rfl
@[simp] theorem State.setLinkState_fab (l v : Nat) : (s.setLinkState l v).fab = s.fab := rfl
@[simp] theorem State.setLinkState_drift (l v : Nat) : (s.setLinkState l v).drift = s.drift := rfl
@[simp] theorem State.setLinkState_ports (l v : Nat) : (s.setLinkState l v).ports = s.ports := rfl
@[simp] theorem State.setLinkState_twi (l v : Nat) : (s.setLinkState l v).twi = s.twi := rfl
@[simp] theorem State.setLinkState_hub (l v : Nat) : (s.setLinkState l v).hub = s.hub := rfl
@[simp] theorem State.setLinkState_power (l v : Nat) : (s.setLinkState l v).power = s.power := rfl
@[simp] theorem State.setLinkState_flash (l v : Nat) : (s.setLinkState l v).flash = s.flash := rfl
@[simp] theorem State.setLinkState_mirrors (l v : Nat) : (s.setLinkState l v).mirrors = s.mirrors := rfl
@[simp] theorem State.setLinkState_free (l v : Nat) : (s.setLinkState l v).free = s.free := rfl
@[simp] theorem State.setLinkState_out (l v : Nat) : (s.setLinkState l v).out = s.out := rfl
@[simp] theorem State.setLinkState_pending (l v : Nat) : (s.setLinkState l v).pending = s.pending := rfl
@[simp] theorem State.setLinkState_thread (l v : Nat) (k₁ : Nat) : (s.setLinkState l v).thread k₁ = s.thread k₁ := rfl
@[simp] theorem State.setLinkState_queue (l v : Nat) (c₁ q₁ : Nat) : (s.setLinkState l v).queue c₁ q₁ = s.queue c₁ q₁ := rfl
@[simp] theorem State.setLinkState_part (l v : Nat) (k₁ : Nat) : (s.setLinkState l v).part k₁ = s.part k₁ := rfl
@[simp] theorem State.setLinkState_layer (l v : Nat) (k₁ : Nat) : (s.setLinkState l v).layer k₁ = s.layer k₁ := rfl
@[simp] theorem State.setLinkState_snp (l v : Nat) (k₁ : Nat) : (s.setLinkState l v).snp k₁ = s.snp k₁ := rfl
@[simp] theorem State.setLinkState_mirror (l v : Nat) (k₁ : Nat) : (s.setLinkState l v).mirror k₁ = s.mirror k₁ := rfl
@[simp] theorem State.setLinkState_item (l v : Nat) (k₁ : Nat) : (s.setLinkState l v).item k₁ = s.item k₁ := rfl

@[simp] theorem State.setSnp_now (c : Nat) (x : Snp) : (s.setSnp c x).now = s.now := rfl
@[simp] theorem State.setSnp_regs (c : Nat) (x : Snp) : (s.setSnp c x).regs = s.regs := rfl
@[simp] theorem State.setSnp_mem (c : Nat) (x : Snp) : (s.setSnp c x).mem = s.mem := rfl
@[simp] theorem State.setSnp_log (c : Nat) (x : Snp) : (s.setSnp c x).log = s.log := rfl
@[simp] theorem State.setSnp_items (c : Nat) (x : Snp) : (s.setSnp c x).items = s.items := rfl
@[simp] theorem State.setSnp_threads (c : Nat) (x : Snp) : (s.setSnp c x).threads = s.threads := rfl
@[simp] theorem State.setSnp_progs (c : Nat) (x : Snp) : (s.setSnp c x).progs = s.progs := rfl
@[simp] theorem State.setSnp_parts (c : Nat) (x : Snp) : (s.setSnp c x).parts = s.parts := rfl
@[simp] theorem State.setSnp_clrpend (c : Nat) (x : Snp) : (s.setSnp c x).clrpend = s.clrpend := rfl
@[simp] theorem State.setSnp_queues (c : Nat) (x : Snp) : (s.setSnp c x).queues = s.queues := rfl
@[simp] theorem State.setSnp_stash (c : Nat) (x : Snp) : (s.setSnp c x).stash = s.stash := rfl
@[simp] theorem State.setSnp_cores (c : Nat) (x : Snp) : (s.setSnp c x).cores = s.cores := rfl
@[simp] theorem State.setSnp_vctxs (c : Nat) (x : Snp) : (s.setSnp c x).vctxs = s.vctxs := rfl
@[simp] theorem State.setSnp_curves (c : Nat) (x : Snp) : (s.setSnp c x).curves = s.curves := rfl
@[simp] theorem State.setSnp_chans (c : Nat) (x : Snp) : (s.setSnp c x).chans = s.chans := rfl
@[simp] theorem State.setSnp_stackTab (c : Nat) (x : Snp) : (s.setSnp c x).stackTab = s.stackTab := rfl
@[simp] theorem State.setSnp_retSave (c : Nat) (x : Snp) : (s.setSnp c x).retSave = s.retSave := rfl
@[simp] theorem State.setSnp_layers (c : Nat) (x : Snp) : (s.setSnp c x).layers = s.layers := rfl
@[simp] theorem State.setSnp_fab (c : Nat) (x : Snp) : (s.setSnp c x).fab = s.fab := rfl
@[simp] theorem State.setSnp_drift (c : Nat) (x : Snp) : (s.setSnp c x).drift = s.drift := rfl
@[simp] theorem State.setSnp_ports (c : Nat) (x : Snp) : (s.setSnp c x).ports = s.ports := rfl
@[simp] theorem State.setSnp_twi (c : Nat) (x : Snp) : (s.setSnp c x).twi = s.twi := rfl
@[simp] theorem State.setSnp_hub (c : Nat) (x : Snp) : (s.setSnp c x).hub = s.hub := rfl
@[simp] theorem State.setSnp_power (c : Nat) (x : Snp) : (s.setSnp c x).power = s.power := rfl
@[simp] theorem State.setSnp_flash (c : Nat) (x : Snp) : (s.setSnp c x).flash = s.flash := rfl
@[simp] theorem State.setSnp_mirrors (c : Nat) (x : Snp) : (s.setSnp c x).mirrors = s.mirrors := rfl
@[simp] theorem State.setSnp_free (c : Nat) (x : Snp) : (s.setSnp c x).free = s.free := rfl
@[simp] theorem State.setSnp_out (c : Nat) (x : Snp) : (s.setSnp c x).out = s.out := rfl
@[simp] theorem State.setSnp_pending (c : Nat) (x : Snp) : (s.setSnp c x).pending = s.pending := rfl
@[simp] theorem State.setSnp_reg (c : Nat) (x : Snp) (o₁ : Nat) : (s.setSnp c x).reg o₁ = s.reg o₁ := rfl
@[simp] theorem State.setSnp_areg (c : Nat) (x : Snp) (o₁ : Nat) : (s.setSnp c x).areg o₁ = s.areg o₁ := rfl
@[simp] theorem State.setSnp_fld (c : Nat) (x : Snp) (o₁ : Nat) (f₁ : Fld) : (s.setSnp c x).fld o₁ f₁ = s.fld o₁ f₁ := rfl
@[simp] theorem State.setSnp_afld (c : Nat) (x : Snp) (o₁ : Nat) (f₁ : Fld) : (s.setSnp c x).afld o₁ f₁ = s.afld o₁ f₁ := rfl
@[simp] theorem State.setSnp_thread (c : Nat) (x : Snp) (k₁ : Nat) : (s.setSnp c x).thread k₁ = s.thread k₁ := rfl
@[simp] theorem State.setSnp_queue (c : Nat) (x : Snp) (c₁ q₁ : Nat) : (s.setSnp c x).queue c₁ q₁ = s.queue c₁ q₁ := rfl
@[simp] theorem State.setSnp_part (c : Nat) (x : Snp) (k₁ : Nat) : (s.setSnp c x).part k₁ = s.part k₁ := rfl
@[simp] theorem State.setSnp_layer (c : Nat) (x : Snp) (k₁ : Nat) : (s.setSnp c x).layer k₁ = s.layer k₁ := rfl
@[simp] theorem State.setSnp_mirror (c : Nat) (x : Snp) (k₁ : Nat) : (s.setSnp c x).mirror k₁ = s.mirror k₁ := rfl
@[simp] theorem State.setSnp_bytes (c : Nat) (x : Snp) (a₁ n₁ : Nat) : (s.setSnp c x).bytes a₁ n₁ = s.bytes a₁ n₁ := rfl
@[simp] theorem State.setSnp_item (c : Nat) (x : Snp) (k₁ : Nat) : (s.setSnp c x).item k₁ = s.item k₁ := rfl

@[simp] theorem State.setPort_now (p : Nat) (x : HostPort) : (s.setPort p x).now = s.now := rfl
@[simp] theorem State.setPort_regs (p : Nat) (x : HostPort) : (s.setPort p x).regs = s.regs := rfl
@[simp] theorem State.setPort_mem (p : Nat) (x : HostPort) : (s.setPort p x).mem = s.mem := rfl
@[simp] theorem State.setPort_log (p : Nat) (x : HostPort) : (s.setPort p x).log = s.log := rfl
@[simp] theorem State.setPort_items (p : Nat) (x : HostPort) : (s.setPort p x).items = s.items := rfl
@[simp] theorem State.setPort_threads (p : Nat) (x : HostPort) : (s.setPort p x).threads = s.threads := rfl
@[simp] theorem State.setPort_progs (p : Nat) (x : HostPort) : (s.setPort p x).progs = s.progs := rfl
@[simp] theorem State.setPort_parts (p : Nat) (x : HostPort) : (s.setPort p x).parts = s.parts := rfl
@[simp] theorem State.setPort_clrpend (p : Nat) (x : HostPort) : (s.setPort p x).clrpend = s.clrpend := rfl
@[simp] theorem State.setPort_queues (p : Nat) (x : HostPort) : (s.setPort p x).queues = s.queues := rfl
@[simp] theorem State.setPort_stash (p : Nat) (x : HostPort) : (s.setPort p x).stash = s.stash := rfl
@[simp] theorem State.setPort_cores (p : Nat) (x : HostPort) : (s.setPort p x).cores = s.cores := rfl
@[simp] theorem State.setPort_vctxs (p : Nat) (x : HostPort) : (s.setPort p x).vctxs = s.vctxs := rfl
@[simp] theorem State.setPort_curves (p : Nat) (x : HostPort) : (s.setPort p x).curves = s.curves := rfl
@[simp] theorem State.setPort_chans (p : Nat) (x : HostPort) : (s.setPort p x).chans = s.chans := rfl
@[simp] theorem State.setPort_stackTab (p : Nat) (x : HostPort) : (s.setPort p x).stackTab = s.stackTab := rfl
@[simp] theorem State.setPort_retSave (p : Nat) (x : HostPort) : (s.setPort p x).retSave = s.retSave := rfl
@[simp] theorem State.setPort_snps (p : Nat) (x : HostPort) : (s.setPort p x).snps = s.snps := rfl
@[simp] theorem State.setPort_layers (p : Nat) (x : HostPort) : (s.setPort p x).layers = s.layers := rfl
@[simp] theorem State.setPort_fab (p : Nat) (x : HostPort) : (s.setPort p x).fab = s.fab := rfl
@[simp] theorem State.setPort_drift (p : Nat) (x : HostPort) : (s.setPort p x).drift = s.drift := rfl
@[simp] theorem State.setPort_twi (p : Nat) (x : HostPort) : (s.setPort p x).twi = s.twi := rfl
@[simp] theorem State.setPort_hub (p : Nat) (x : HostPort) : (s.setPort p x).hub = s.hub := rfl
@[simp] theorem State.setPort_power (p : Nat) (x : HostPort) : (s.setPort p x).power = s.power := rfl
@[simp] theorem State.setPort_flash (p : Nat) (x : HostPort) : (s.setPort p x).flash = s.flash := rfl
@[simp] theorem State.setPort_mirrors (p : Nat) (x : HostPort) : (s.setPort p x).mirrors = s.mirrors := rfl
@[simp] theorem State.setPort_free (p : Nat) (x : HostPort) : (s.setPort p x).free = s.free := rfl
@[simp] theorem State.setPort_out (p : Nat) (x : HostPort) : (s.setPort p x).out = s.out := rfl
@[simp] theorem State.setPort_pending (p : Nat) (x : HostPort) : (s.setPort p x).pending = s.pending := rfl
@[simp] theorem State.setPort_reg (p : Nat) (x : HostPort) (o₁ : Nat) : (s.setPort p x).reg o₁ = s.reg o₁ := rfl
@[simp] theorem State.setPort_areg (p : Nat) (x : HostPort) (o₁ : Nat) : (s.setPort p x).areg o₁ = s.areg o₁ := rfl
@[simp] theorem State.setPort_fld (p : Nat) (x : HostPort) (o₁ : Nat) (f₁ : Fld) : (s.setPort p x).fld o₁ f₁ = s.fld o₁ f₁ := rfl
@[simp] theorem State.setPort_afld (p : Nat) (x : HostPort) (o₁ : Nat) (f₁ : Fld) : (s.setPort p x).afld o₁ f₁ = s.afld o₁ f₁ := rfl
@[simp] theorem State.setPort_thread (p : Nat) (x : HostPort) (k₁ : Nat) : (s.setPort p x).thread k₁ = s.thread k₁ := rfl
@[simp] theorem State.setPort_queue (p : Nat) (x : HostPort) (c₁ q₁ : Nat) : (s.setPort p x).queue c₁ q₁ = s.queue c₁ q₁ := rfl
@[simp] theorem State.setPort_part (p : Nat) (x : HostPort) (k₁ : Nat) : (s.setPort p x).part k₁ = s.part k₁ := rfl
@[simp] theorem State.setPort_layer (p : Nat) (x : HostPort) (k₁ : Nat) : (s.setPort p x).layer k₁ = s.layer k₁ := rfl
@[simp] theorem State.setPort_snp (p : Nat) (x : HostPort) (k₁ : Nat) : (s.setPort p x).snp k₁ = s.snp k₁ := rfl
@[simp] theorem State.setPort_mirror (p : Nat) (x : HostPort) (k₁ : Nat) : (s.setPort p x).mirror k₁ = s.mirror k₁ := rfl
@[simp] theorem State.setPort_bytes (p : Nat) (x : HostPort) (a₁ n₁ : Nat) : (s.setPort p x).bytes a₁ n₁ = s.bytes a₁ n₁ := rfl
@[simp] theorem State.setPort_item (p : Nat) (x : HostPort) (k₁ : Nat) : (s.setPort p x).item k₁ = s.item k₁ := rfl

@[simp] theorem State.setVctx_now (k : Nat) (x : VCtx) : (s.setVctx k x).now = s.now := rfl
@[simp] theorem State.setVctx_regs (k : Nat) (x : VCtx) : (s.setVctx k x).regs = s.regs := rfl
@[simp] theorem State.setVctx_mem (k : Nat) (x : VCtx) : (s.setVctx k x).mem = s.mem := rfl
@[simp] theorem State.setVctx_log (k : Nat) (x : VCtx) : (s.setVctx k x).log = s.log := rfl
@[simp] theorem State.setVctx_items (k : Nat) (x : VCtx) : (s.setVctx k x).items = s.items := rfl
@[simp] theorem State.setVctx_threads (k : Nat) (x : VCtx) : (s.setVctx k x).threads = s.threads := rfl
@[simp] theorem State.setVctx_progs (k : Nat) (x : VCtx) : (s.setVctx k x).progs = s.progs := rfl
@[simp] theorem State.setVctx_parts (k : Nat) (x : VCtx) : (s.setVctx k x).parts = s.parts := rfl
@[simp] theorem State.setVctx_clrpend (k : Nat) (x : VCtx) : (s.setVctx k x).clrpend = s.clrpend := rfl
@[simp] theorem State.setVctx_queues (k : Nat) (x : VCtx) : (s.setVctx k x).queues = s.queues := rfl
@[simp] theorem State.setVctx_stash (k : Nat) (x : VCtx) : (s.setVctx k x).stash = s.stash := rfl
@[simp] theorem State.setVctx_cores (k : Nat) (x : VCtx) : (s.setVctx k x).cores = s.cores := rfl
@[simp] theorem State.setVctx_curves (k : Nat) (x : VCtx) : (s.setVctx k x).curves = s.curves := rfl
@[simp] theorem State.setVctx_chans (k : Nat) (x : VCtx) : (s.setVctx k x).chans = s.chans := rfl
@[simp] theorem State.setVctx_stackTab (k : Nat) (x : VCtx) : (s.setVctx k x).stackTab = s.stackTab := rfl
@[simp] theorem State.setVctx_retSave (k : Nat) (x : VCtx) : (s.setVctx k x).retSave = s.retSave := rfl
@[simp] theorem State.setVctx_snps (k : Nat) (x : VCtx) : (s.setVctx k x).snps = s.snps := rfl
@[simp] theorem State.setVctx_layers (k : Nat) (x : VCtx) : (s.setVctx k x).layers = s.layers := rfl
@[simp] theorem State.setVctx_fab (k : Nat) (x : VCtx) : (s.setVctx k x).fab = s.fab := rfl
@[simp] theorem State.setVctx_drift (k : Nat) (x : VCtx) : (s.setVctx k x).drift = s.drift := rfl
@[simp] theorem State.setVctx_ports (k : Nat) (x : VCtx) : (s.setVctx k x).ports = s.ports := rfl
@[simp] theorem State.setVctx_twi (k : Nat) (x : VCtx) : (s.setVctx k x).twi = s.twi := rfl
@[simp] theorem State.setVctx_hub (k : Nat) (x : VCtx) : (s.setVctx k x).hub = s.hub := rfl
@[simp] theorem State.setVctx_power (k : Nat) (x : VCtx) : (s.setVctx k x).power = s.power := rfl
@[simp] theorem State.setVctx_flash (k : Nat) (x : VCtx) : (s.setVctx k x).flash = s.flash := rfl
@[simp] theorem State.setVctx_mirrors (k : Nat) (x : VCtx) : (s.setVctx k x).mirrors = s.mirrors := rfl
@[simp] theorem State.setVctx_free (k : Nat) (x : VCtx) : (s.setVctx k x).free = s.free := rfl
@[simp] theorem State.setVctx_out (k : Nat) (x : VCtx) : (s.setVctx k x).out = s.out := rfl
@[simp] theorem State.setVctx_pending (k : Nat) (x : VCtx) : (s.setVctx k x).pending = s.pending := rfl
@[simp] theorem State.setVctx_reg (k : Nat) (x : VCtx) (o₁ : Nat) : (s.setVctx k x).reg o₁ = s.reg o₁ := rfl
@[simp] theorem State.setVctx_areg (k : Nat) (x : VCtx) (o₁ : Nat) : (s.setVctx k x).areg o₁ = s.areg o₁ := rfl
@[simp] theorem State.setVctx_fld (k : Nat) (x : VCtx) (o₁ : Nat) (f₁ : Fld) : (s.setVctx k x).fld o₁ f₁ = s.fld o₁ f₁ := rfl
@[simp] theorem State.setVctx_afld (k : Nat) (x : VCtx) (o₁ : Nat) (f₁ : Fld) : (s.setVctx k x).afld o₁ f₁ = s.afld o₁ f₁ := rfl
@[simp] theorem State.setVctx_thread (k : Nat) (x : VCtx) (k₁ : Nat) : (s.setVctx k x).thread k₁ = s.thread k₁ := rfl
@[simp] theorem State.setVctx_queue (k : Nat) (x : VCtx) (c₁ q₁ : Nat) : (s.setVctx k x).queue c₁ q₁ = s.queue c₁ q₁ := rfl
@[simp] theorem State.setVctx_part (k : Nat) (x : VCtx) (k₁ : Nat) : (s.setVctx k x).part k₁ = s.part k₁ := rfl
@[simp] theorem State.setVctx_layer (k : Nat) (x : VCtx) (k₁ : Nat) : (s.setVctx k x).layer k₁ = s.layer k₁ := rfl
@[simp] theorem State.setVctx_snp (k : Nat) (x : VCtx) (k₁ : Nat) : (s.setVctx k x).snp k₁ = s.snp k₁ := rfl
@[simp] theorem State.setVctx_mirror (k : Nat) (x : VCtx) (k₁ : Nat) : (s.setVctx k x).mirror k₁ = s.mirror k₁ := rfl
@[simp] theorem State.setVctx_bytes (k : Nat) (x : VCtx) (a₁ n₁ : Nat) : (s.setVctx k x).bytes a₁ n₁ = s.bytes a₁ n₁ := rfl
@[simp] theorem State.setVctx_item (k : Nat) (x : VCtx) (k₁ : Nat) : (s.setVctx k x).item k₁ = s.item k₁ := rfl

@[simp] theorem State.setChan_now (e ch : Nat) (x : Chan) : (s.setChan e ch x).now = s.now := rfl
@[simp] theorem State.setChan_regs (e ch : Nat) (x : Chan) : (s.setChan e ch x).regs = s.regs := rfl
@[simp] theorem State.setChan_mem (e ch : Nat) (x : Chan) : (s.setChan e ch x).mem = s.mem := rfl
@[simp] theorem State.setChan_log (e ch : Nat) (x : Chan) : (s.setChan e ch x).log = s.log := rfl
@[simp] theorem State.setChan_items (e ch : Nat) (x : Chan) : (s.setChan e ch x).items = s.items := rfl
@[simp] theorem State.setChan_threads (e ch : Nat) (x : Chan) : (s.setChan e ch x).threads = s.threads := rfl
@[simp] theorem State.setChan_progs (e ch : Nat) (x : Chan) : (s.setChan e ch x).progs = s.progs := rfl
@[simp] theorem State.setChan_parts (e ch : Nat) (x : Chan) : (s.setChan e ch x).parts = s.parts := rfl
@[simp] theorem State.setChan_clrpend (e ch : Nat) (x : Chan) : (s.setChan e ch x).clrpend = s.clrpend := rfl
@[simp] theorem State.setChan_queues (e ch : Nat) (x : Chan) : (s.setChan e ch x).queues = s.queues := rfl
@[simp] theorem State.setChan_stash (e ch : Nat) (x : Chan) : (s.setChan e ch x).stash = s.stash := rfl
@[simp] theorem State.setChan_cores (e ch : Nat) (x : Chan) : (s.setChan e ch x).cores = s.cores := rfl
@[simp] theorem State.setChan_vctxs (e ch : Nat) (x : Chan) : (s.setChan e ch x).vctxs = s.vctxs := rfl
@[simp] theorem State.setChan_curves (e ch : Nat) (x : Chan) : (s.setChan e ch x).curves = s.curves := rfl
@[simp] theorem State.setChan_stackTab (e ch : Nat) (x : Chan) : (s.setChan e ch x).stackTab = s.stackTab := rfl
@[simp] theorem State.setChan_retSave (e ch : Nat) (x : Chan) : (s.setChan e ch x).retSave = s.retSave := rfl
@[simp] theorem State.setChan_snps (e ch : Nat) (x : Chan) : (s.setChan e ch x).snps = s.snps := rfl
@[simp] theorem State.setChan_layers (e ch : Nat) (x : Chan) : (s.setChan e ch x).layers = s.layers := rfl
@[simp] theorem State.setChan_fab (e ch : Nat) (x : Chan) : (s.setChan e ch x).fab = s.fab := rfl
@[simp] theorem State.setChan_drift (e ch : Nat) (x : Chan) : (s.setChan e ch x).drift = s.drift := rfl
@[simp] theorem State.setChan_ports (e ch : Nat) (x : Chan) : (s.setChan e ch x).ports = s.ports := rfl
@[simp] theorem State.setChan_twi (e ch : Nat) (x : Chan) : (s.setChan e ch x).twi = s.twi := rfl
@[simp] theorem State.setChan_hub (e ch : Nat) (x : Chan) : (s.setChan e ch x).hub = s.hub := rfl
@[simp] theorem State.setChan_power (e ch : Nat) (x : Chan) : (s.setChan e ch x).power = s.power := rfl
@[simp] theorem State.setChan_flash (e ch : Nat) (x : Chan) : (s.setChan e ch x).flash = s.flash := rfl
@[simp] theorem State.setChan_mirrors (e ch : Nat) (x : Chan) : (s.setChan e ch x).mirrors = s.mirrors := rfl
@[simp] theorem State.setChan_free (e ch : Nat) (x : Chan) : (s.setChan e ch x).free = s.free := rfl
@[simp] theorem State.setChan_out (e ch : Nat) (x : Chan) : (s.setChan e ch x).out = s.out := rfl
@[simp] theorem State.setChan_pending (e ch : Nat) (x : Chan) : (s.setChan e ch x).pending = s.pending := rfl
@[simp] theorem State.setChan_reg (e ch : Nat) (x : Chan) (o₁ : Nat) : (s.setChan e ch x).reg o₁ = s.reg o₁ := rfl
@[simp] theorem State.setChan_areg (e ch : Nat) (x : Chan) (o₁ : Nat) : (s.setChan e ch x).areg o₁ = s.areg o₁ := rfl
@[simp] theorem State.setChan_fld (e ch : Nat) (x : Chan) (o₁ : Nat) (f₁ : Fld) : (s.setChan e ch x).fld o₁ f₁ = s.fld o₁ f₁ := rfl
@[simp] theorem State.setChan_afld (e ch : Nat) (x : Chan) (o₁ : Nat) (f₁ : Fld) : (s.setChan e ch x).afld o₁ f₁ = s.afld o₁ f₁ := rfl
@[simp] theorem State.setChan_thread (e ch : Nat) (x : Chan) (k₁ : Nat) : (s.setChan e ch x).thread k₁ = s.thread k₁ := rfl
@[simp] theorem State.setChan_queue (e ch : Nat) (x : Chan) (c₁ q₁ : Nat) : (s.setChan e ch x).queue c₁ q₁ = s.queue c₁ q₁ := rfl
@[simp] theorem State.setChan_part (e ch : Nat) (x : Chan) (k₁ : Nat) : (s.setChan e ch x).part k₁ = s.part k₁ := rfl
@[simp] theorem State.setChan_layer (e ch : Nat) (x : Chan) (k₁ : Nat) : (s.setChan e ch x).layer k₁ = s.layer k₁ := rfl
@[simp] theorem State.setChan_snp (e ch : Nat) (x : Chan) (k₁ : Nat) : (s.setChan e ch x).snp k₁ = s.snp k₁ := rfl
@[simp] theorem State.setChan_mirror (e ch : Nat) (x : Chan) (k₁ : Nat) : (s.setChan e ch x).mirror k₁ = s.mirror k₁ := rfl
@[simp] theorem State.setChan_bytes (e ch : Nat) (x : Chan) (a₁ n₁ : Nat) : (s.setChan e ch x).bytes a₁ n₁ = s.bytes a₁ n₁ := rfl
@[simp] theorem State.setChan_item (e ch : Nat) (x : Chan) (k₁ : Nat) : (s.setChan e ch x).item k₁ = s.item k₁ := rfl

@[simp] theorem State.setCore_now (c : Nat) (x : MatCore) : (s.setCore c x).now = s.now := rfl
@[simp] theorem State.setCore_regs (c : Nat) (x : MatCore) : (s.setCore c x).regs = s.regs := rfl
@[simp] theorem State.setCore_mem (c : Nat) (x : MatCore) : (s.setCore c x).mem = s.mem := rfl
@[simp] theorem State.setCore_log (c : Nat) (x : MatCore) : (s.setCore c x).log = s.log := rfl
@[simp] theorem State.setCore_items (c : Nat) (x : MatCore) : (s.setCore c x).items = s.items := rfl
@[simp] theorem State.setCore_threads (c : Nat) (x : MatCore) : (s.setCore c x).threads = s.threads := rfl
@[simp] theorem State.setCore_progs (c : Nat) (x : MatCore) : (s.setCore c x).progs = s.progs := rfl
@[simp] theorem State.setCore_parts (c : Nat) (x : MatCore) : (s.setCore c x).parts = s.parts := rfl
@[simp] theorem State.setCore_clrpend (c : Nat) (x : MatCore) : (s.setCore c x).clrpend = s.clrpend := rfl
@[simp] theorem State.setCore_queues (c : Nat) (x : MatCore) : (s.setCore c x).queues = s.queues := rfl
@[simp] theorem State.setCore_stash (c : Nat) (x : MatCore) : (s.setCore c x).stash = s.stash := rfl
@[simp] theorem State.setCore_vctxs (c : Nat) (x : MatCore) : (s.setCore c x).vctxs = s.vctxs := rfl
@[simp] theorem State.setCore_curves (c : Nat) (x : MatCore) : (s.setCore c x).curves = s.curves := rfl
@[simp] theorem State.setCore_chans (c : Nat) (x : MatCore) : (s.setCore c x).chans = s.chans := rfl
@[simp] theorem State.setCore_stackTab (c : Nat) (x : MatCore) : (s.setCore c x).stackTab = s.stackTab := rfl
@[simp] theorem State.setCore_retSave (c : Nat) (x : MatCore) : (s.setCore c x).retSave = s.retSave := rfl
@[simp] theorem State.setCore_snps (c : Nat) (x : MatCore) : (s.setCore c x).snps = s.snps := rfl
@[simp] theorem State.setCore_layers (c : Nat) (x : MatCore) : (s.setCore c x).layers = s.layers := rfl
@[simp] theorem State.setCore_fab (c : Nat) (x : MatCore) : (s.setCore c x).fab = s.fab := rfl
@[simp] theorem State.setCore_drift (c : Nat) (x : MatCore) : (s.setCore c x).drift = s.drift := rfl
@[simp] theorem State.setCore_ports (c : Nat) (x : MatCore) : (s.setCore c x).ports = s.ports := rfl
@[simp] theorem State.setCore_twi (c : Nat) (x : MatCore) : (s.setCore c x).twi = s.twi := rfl
@[simp] theorem State.setCore_hub (c : Nat) (x : MatCore) : (s.setCore c x).hub = s.hub := rfl
@[simp] theorem State.setCore_power (c : Nat) (x : MatCore) : (s.setCore c x).power = s.power := rfl
@[simp] theorem State.setCore_flash (c : Nat) (x : MatCore) : (s.setCore c x).flash = s.flash := rfl
@[simp] theorem State.setCore_mirrors (c : Nat) (x : MatCore) : (s.setCore c x).mirrors = s.mirrors := rfl
@[simp] theorem State.setCore_free (c : Nat) (x : MatCore) : (s.setCore c x).free = s.free := rfl
@[simp] theorem State.setCore_out (c : Nat) (x : MatCore) : (s.setCore c x).out = s.out := rfl
@[simp] theorem State.setCore_pending (c : Nat) (x : MatCore) : (s.setCore c x).pending = s.pending := rfl
@[simp] theorem State.setCore_reg (c : Nat) (x : MatCore) (o₁ : Nat) : (s.setCore c x).reg o₁ = s.reg o₁ := rfl
@[simp] theorem State.setCore_areg (c : Nat) (x : MatCore) (o₁ : Nat) : (s.setCore c x).areg o₁ = s.areg o₁ := rfl
@[simp] theorem State.setCore_fld (c : Nat) (x : MatCore) (o₁ : Nat) (f₁ : Fld) : (s.setCore c x).fld o₁ f₁ = s.fld o₁ f₁ := rfl
@[simp] theorem State.setCore_afld (c : Nat) (x : MatCore) (o₁ : Nat) (f₁ : Fld) : (s.setCore c x).afld o₁ f₁ = s.afld o₁ f₁ := rfl
@[simp] theorem State.setCore_thread (c : Nat) (x : MatCore) (k₁ : Nat) : (s.setCore c x).thread k₁ = s.thread k₁ := rfl
@[simp] theorem State.setCore_queue (c : Nat) (x : MatCore) (c₁ q₁ : Nat) : (s.setCore c x).queue c₁ q₁ = s.queue c₁ q₁ := rfl
@[simp] theorem State.setCore_part (c : Nat) (x : MatCore) (k₁ : Nat) : (s.setCore c x).part k₁ = s.part k₁ := rfl
@[simp] theorem State.setCore_layer (c : Nat) (x : MatCore) (k₁ : Nat) : (s.setCore c x).layer k₁ = s.layer k₁ := rfl
@[simp] theorem State.setCore_snp (c : Nat) (x : MatCore) (k₁ : Nat) : (s.setCore c x).snp k₁ = s.snp k₁ := rfl
@[simp] theorem State.setCore_mirror (c : Nat) (x : MatCore) (k₁ : Nat) : (s.setCore c x).mirror k₁ = s.mirror k₁ := rfl
@[simp] theorem State.setCore_bytes (c : Nat) (x : MatCore) (a₁ n₁ : Nat) : (s.setCore c x).bytes a₁ n₁ = s.bytes a₁ n₁ := rfl
@[simp] theorem State.setCore_item (c : Nat) (x : MatCore) (k₁ : Nat) : (s.setCore c x).item k₁ = s.item k₁ := rfl

@[simp] theorem State.setRing_now (g : Nat) (x : AmRing) : (s.setRing g x).now = s.now := rfl
@[simp] theorem State.setRing_regs (g : Nat) (x : AmRing) : (s.setRing g x).regs = s.regs := rfl
@[simp] theorem State.setRing_mem (g : Nat) (x : AmRing) : (s.setRing g x).mem = s.mem := rfl
@[simp] theorem State.setRing_log (g : Nat) (x : AmRing) : (s.setRing g x).log = s.log := rfl
@[simp] theorem State.setRing_items (g : Nat) (x : AmRing) : (s.setRing g x).items = s.items := rfl
@[simp] theorem State.setRing_threads (g : Nat) (x : AmRing) : (s.setRing g x).threads = s.threads := rfl
@[simp] theorem State.setRing_progs (g : Nat) (x : AmRing) : (s.setRing g x).progs = s.progs := rfl
@[simp] theorem State.setRing_parts (g : Nat) (x : AmRing) : (s.setRing g x).parts = s.parts := rfl
@[simp] theorem State.setRing_clrpend (g : Nat) (x : AmRing) : (s.setRing g x).clrpend = s.clrpend := rfl
@[simp] theorem State.setRing_queues (g : Nat) (x : AmRing) : (s.setRing g x).queues = s.queues := rfl
@[simp] theorem State.setRing_stash (g : Nat) (x : AmRing) : (s.setRing g x).stash = s.stash := rfl
@[simp] theorem State.setRing_cores (g : Nat) (x : AmRing) : (s.setRing g x).cores = s.cores := rfl
@[simp] theorem State.setRing_vctxs (g : Nat) (x : AmRing) : (s.setRing g x).vctxs = s.vctxs := rfl
@[simp] theorem State.setRing_curves (g : Nat) (x : AmRing) : (s.setRing g x).curves = s.curves := rfl
@[simp] theorem State.setRing_chans (g : Nat) (x : AmRing) : (s.setRing g x).chans = s.chans := rfl
@[simp] theorem State.setRing_stackTab (g : Nat) (x : AmRing) : (s.setRing g x).stackTab = s.stackTab := rfl
@[simp] theorem State.setRing_retSave (g : Nat) (x : AmRing) : (s.setRing g x).retSave = s.retSave := rfl
@[simp] theorem State.setRing_snps (g : Nat) (x : AmRing) : (s.setRing g x).snps = s.snps := rfl
@[simp] theorem State.setRing_layers (g : Nat) (x : AmRing) : (s.setRing g x).layers = s.layers := rfl
@[simp] theorem State.setRing_fab (g : Nat) (x : AmRing) : (s.setRing g x).fab = s.fab := rfl
@[simp] theorem State.setRing_ports (g : Nat) (x : AmRing) : (s.setRing g x).ports = s.ports := rfl
@[simp] theorem State.setRing_twi (g : Nat) (x : AmRing) : (s.setRing g x).twi = s.twi := rfl
@[simp] theorem State.setRing_hub (g : Nat) (x : AmRing) : (s.setRing g x).hub = s.hub := rfl
@[simp] theorem State.setRing_power (g : Nat) (x : AmRing) : (s.setRing g x).power = s.power := rfl
@[simp] theorem State.setRing_flash (g : Nat) (x : AmRing) : (s.setRing g x).flash = s.flash := rfl
@[simp] theorem State.setRing_mirrors (g : Nat) (x : AmRing) : (s.setRing g x).mirrors = s.mirrors := rfl
@[simp] theorem State.setRing_free (g : Nat) (x : AmRing) : (s.setRing g x).free = s.free := rfl
@[simp] theorem State.setRing_out (g : Nat) (x : AmRing) : (s.setRing g x).out = s.out := rfl
@[simp] theorem State.setRing_pending (g : Nat) (x : AmRing) : (s.setRing g x).pending = s.pending := rfl
@[simp] theorem State.setRing_reg (g : Nat) (x : AmRing) (o₁ : Nat) : (s.setRing g x).reg o₁ = s.reg o₁ := rfl
@[simp] theorem State.setRing_areg (g : Nat) (x : AmRing) (o₁ : Nat) : (s.setRing g x).areg o₁ = s.areg o₁ := rfl
@[simp] theorem State.setRing_fld (g : Nat) (x : AmRing) (o₁ : Nat) (f₁ : Fld) : (s.setRing g x).fld o₁ f₁ = s.fld o₁ f₁ := rfl
@[simp] theorem State.setRing_afld (g : Nat) (x : AmRing) (o₁ : Nat) (f₁ : Fld) : (s.setRing g x).afld o₁ f₁ = s.afld o₁ f₁ := rfl
@[simp] theorem State.setRing_thread (g : Nat) (x : AmRing) (k₁ : Nat) : (s.setRing g x).thread k₁ = s.thread k₁ := rfl
@[simp] theorem State.setRing_queue (g : Nat) (x : AmRing) (c₁ q₁ : Nat) : (s.setRing g x).queue c₁ q₁ = s.queue c₁ q₁ := rfl
@[simp] theorem State.setRing_part (g : Nat) (x : AmRing) (k₁ : Nat) : (s.setRing g x).part k₁ = s.part k₁ := rfl
@[simp] theorem State.setRing_layer (g : Nat) (x : AmRing) (k₁ : Nat) : (s.setRing g x).layer k₁ = s.layer k₁ := rfl
@[simp] theorem State.setRing_snp (g : Nat) (x : AmRing) (k₁ : Nat) : (s.setRing g x).snp k₁ = s.snp k₁ := rfl
@[simp] theorem State.setRing_mirror (g : Nat) (x : AmRing) (k₁ : Nat) : (s.setRing g x).mirror k₁ = s.mirror k₁ := rfl
@[simp] theorem State.setRing_bytes (g : Nat) (x : AmRing) (a₁ n₁ : Nat) : (s.setRing g x).bytes a₁ n₁ = s.bytes a₁ n₁ := rfl
@[simp] theorem State.setRing_item (g : Nat) (x : AmRing) (k₁ : Nat) : (s.setRing g x).item k₁ = s.item k₁ := rfl

@[simp] theorem State.setDq_now (q : Nat) (x : DriftQueue) : (s.setDq q x).now = s.now := rfl
@[simp] theorem State.setDq_regs (q : Nat) (x : DriftQueue) : (s.setDq q x).regs = s.regs := rfl
@[simp] theorem State.setDq_mem (q : Nat) (x : DriftQueue) : (s.setDq q x).mem = s.mem := rfl
@[simp] theorem State.setDq_log (q : Nat) (x : DriftQueue) : (s.setDq q x).log = s.log := rfl
@[simp] theorem State.setDq_items (q : Nat) (x : DriftQueue) : (s.setDq q x).items = s.items := rfl
@[simp] theorem State.setDq_threads (q : Nat) (x : DriftQueue) : (s.setDq q x).threads = s.threads := rfl
@[simp] theorem State.setDq_progs (q : Nat) (x : DriftQueue) : (s.setDq q x).progs = s.progs := rfl
@[simp] theorem State.setDq_parts (q : Nat) (x : DriftQueue) : (s.setDq q x).parts = s.parts := rfl
@[simp] theorem State.setDq_clrpend (q : Nat) (x : DriftQueue) : (s.setDq q x).clrpend = s.clrpend := rfl
@[simp] theorem State.setDq_queues (q : Nat) (x : DriftQueue) : (s.setDq q x).queues = s.queues := rfl
@[simp] theorem State.setDq_stash (q : Nat) (x : DriftQueue) : (s.setDq q x).stash = s.stash := rfl
@[simp] theorem State.setDq_cores (q : Nat) (x : DriftQueue) : (s.setDq q x).cores = s.cores := rfl
@[simp] theorem State.setDq_vctxs (q : Nat) (x : DriftQueue) : (s.setDq q x).vctxs = s.vctxs := rfl
@[simp] theorem State.setDq_curves (q : Nat) (x : DriftQueue) : (s.setDq q x).curves = s.curves := rfl
@[simp] theorem State.setDq_chans (q : Nat) (x : DriftQueue) : (s.setDq q x).chans = s.chans := rfl
@[simp] theorem State.setDq_stackTab (q : Nat) (x : DriftQueue) : (s.setDq q x).stackTab = s.stackTab := rfl
@[simp] theorem State.setDq_retSave (q : Nat) (x : DriftQueue) : (s.setDq q x).retSave = s.retSave := rfl
@[simp] theorem State.setDq_snps (q : Nat) (x : DriftQueue) : (s.setDq q x).snps = s.snps := rfl
@[simp] theorem State.setDq_layers (q : Nat) (x : DriftQueue) : (s.setDq q x).layers = s.layers := rfl
@[simp] theorem State.setDq_fab (q : Nat) (x : DriftQueue) : (s.setDq q x).fab = s.fab := rfl
@[simp] theorem State.setDq_ports (q : Nat) (x : DriftQueue) : (s.setDq q x).ports = s.ports := rfl
@[simp] theorem State.setDq_twi (q : Nat) (x : DriftQueue) : (s.setDq q x).twi = s.twi := rfl
@[simp] theorem State.setDq_hub (q : Nat) (x : DriftQueue) : (s.setDq q x).hub = s.hub := rfl
@[simp] theorem State.setDq_power (q : Nat) (x : DriftQueue) : (s.setDq q x).power = s.power := rfl
@[simp] theorem State.setDq_flash (q : Nat) (x : DriftQueue) : (s.setDq q x).flash = s.flash := rfl
@[simp] theorem State.setDq_mirrors (q : Nat) (x : DriftQueue) : (s.setDq q x).mirrors = s.mirrors := rfl
@[simp] theorem State.setDq_free (q : Nat) (x : DriftQueue) : (s.setDq q x).free = s.free := rfl
@[simp] theorem State.setDq_out (q : Nat) (x : DriftQueue) : (s.setDq q x).out = s.out := rfl
@[simp] theorem State.setDq_pending (q : Nat) (x : DriftQueue) : (s.setDq q x).pending = s.pending := rfl
@[simp] theorem State.setDq_reg (q : Nat) (x : DriftQueue) (o₁ : Nat) : (s.setDq q x).reg o₁ = s.reg o₁ := rfl
@[simp] theorem State.setDq_areg (q : Nat) (x : DriftQueue) (o₁ : Nat) : (s.setDq q x).areg o₁ = s.areg o₁ := rfl
@[simp] theorem State.setDq_fld (q : Nat) (x : DriftQueue) (o₁ : Nat) (f₁ : Fld) : (s.setDq q x).fld o₁ f₁ = s.fld o₁ f₁ := rfl
@[simp] theorem State.setDq_afld (q : Nat) (x : DriftQueue) (o₁ : Nat) (f₁ : Fld) : (s.setDq q x).afld o₁ f₁ = s.afld o₁ f₁ := rfl
@[simp] theorem State.setDq_thread (q : Nat) (x : DriftQueue) (k₁ : Nat) : (s.setDq q x).thread k₁ = s.thread k₁ := rfl
@[simp] theorem State.setDq_queue (q : Nat) (x : DriftQueue) (c₁ q₁ : Nat) : (s.setDq q x).queue c₁ q₁ = s.queue c₁ q₁ := rfl
@[simp] theorem State.setDq_part (q : Nat) (x : DriftQueue) (k₁ : Nat) : (s.setDq q x).part k₁ = s.part k₁ := rfl
@[simp] theorem State.setDq_layer (q : Nat) (x : DriftQueue) (k₁ : Nat) : (s.setDq q x).layer k₁ = s.layer k₁ := rfl
@[simp] theorem State.setDq_snp (q : Nat) (x : DriftQueue) (k₁ : Nat) : (s.setDq q x).snp k₁ = s.snp k₁ := rfl
@[simp] theorem State.setDq_mirror (q : Nat) (x : DriftQueue) (k₁ : Nat) : (s.setDq q x).mirror k₁ = s.mirror k₁ := rfl
@[simp] theorem State.setDq_bytes (q : Nat) (x : DriftQueue) (a₁ n₁ : Nat) : (s.setDq q x).bytes a₁ n₁ = s.bytes a₁ n₁ := rfl
@[simp] theorem State.setDq_item (q : Nat) (x : DriftQueue) (k₁ : Nat) : (s.setDq q x).item k₁ = s.item k₁ := rfl

@[simp] theorem State.setColl_now (i : Nat) (c : Coll) : (s.setColl i c).now = s.now := rfl
@[simp] theorem State.setColl_regs (i : Nat) (c : Coll) : (s.setColl i c).regs = s.regs := rfl
@[simp] theorem State.setColl_mem (i : Nat) (c : Coll) : (s.setColl i c).mem = s.mem := rfl
@[simp] theorem State.setColl_log (i : Nat) (c : Coll) : (s.setColl i c).log = s.log := rfl
@[simp] theorem State.setColl_items (i : Nat) (c : Coll) : (s.setColl i c).items = s.items := rfl
@[simp] theorem State.setColl_threads (i : Nat) (c : Coll) : (s.setColl i c).threads = s.threads := rfl
@[simp] theorem State.setColl_progs (i : Nat) (c : Coll) : (s.setColl i c).progs = s.progs := rfl
@[simp] theorem State.setColl_parts (i : Nat) (c : Coll) : (s.setColl i c).parts = s.parts := rfl
@[simp] theorem State.setColl_clrpend (i : Nat) (c : Coll) : (s.setColl i c).clrpend = s.clrpend := rfl
@[simp] theorem State.setColl_queues (i : Nat) (c : Coll) : (s.setColl i c).queues = s.queues := rfl
@[simp] theorem State.setColl_stash (i : Nat) (c : Coll) : (s.setColl i c).stash = s.stash := rfl
@[simp] theorem State.setColl_cores (i : Nat) (c : Coll) : (s.setColl i c).cores = s.cores := rfl
@[simp] theorem State.setColl_vctxs (i : Nat) (c : Coll) : (s.setColl i c).vctxs = s.vctxs := rfl
@[simp] theorem State.setColl_curves (i : Nat) (c : Coll) : (s.setColl i c).curves = s.curves := rfl
@[simp] theorem State.setColl_chans (i : Nat) (c : Coll) : (s.setColl i c).chans = s.chans := rfl
@[simp] theorem State.setColl_stackTab (i : Nat) (c : Coll) : (s.setColl i c).stackTab = s.stackTab := rfl
@[simp] theorem State.setColl_retSave (i : Nat) (c : Coll) : (s.setColl i c).retSave = s.retSave := rfl
@[simp] theorem State.setColl_snps (i : Nat) (c : Coll) : (s.setColl i c).snps = s.snps := rfl
@[simp] theorem State.setColl_layers (i : Nat) (c : Coll) : (s.setColl i c).layers = s.layers := rfl
@[simp] theorem State.setColl_fab (i : Nat) (c : Coll) : (s.setColl i c).fab = s.fab := rfl
@[simp] theorem State.setColl_ports (i : Nat) (c : Coll) : (s.setColl i c).ports = s.ports := rfl
@[simp] theorem State.setColl_twi (i : Nat) (c : Coll) : (s.setColl i c).twi = s.twi := rfl
@[simp] theorem State.setColl_hub (i : Nat) (c : Coll) : (s.setColl i c).hub = s.hub := rfl
@[simp] theorem State.setColl_power (i : Nat) (c : Coll) : (s.setColl i c).power = s.power := rfl
@[simp] theorem State.setColl_flash (i : Nat) (c : Coll) : (s.setColl i c).flash = s.flash := rfl
@[simp] theorem State.setColl_mirrors (i : Nat) (c : Coll) : (s.setColl i c).mirrors = s.mirrors := rfl
@[simp] theorem State.setColl_free (i : Nat) (c : Coll) : (s.setColl i c).free = s.free := rfl
@[simp] theorem State.setColl_out (i : Nat) (c : Coll) : (s.setColl i c).out = s.out := rfl
@[simp] theorem State.setColl_pending (i : Nat) (c : Coll) : (s.setColl i c).pending = s.pending := rfl
@[simp] theorem State.setColl_reg (i : Nat) (c : Coll) (o₁ : Nat) : (s.setColl i c).reg o₁ = s.reg o₁ := rfl
@[simp] theorem State.setColl_areg (i : Nat) (c : Coll) (o₁ : Nat) : (s.setColl i c).areg o₁ = s.areg o₁ := rfl
@[simp] theorem State.setColl_fld (i : Nat) (c : Coll) (o₁ : Nat) (f₁ : Fld) : (s.setColl i c).fld o₁ f₁ = s.fld o₁ f₁ := rfl
@[simp] theorem State.setColl_afld (i : Nat) (c : Coll) (o₁ : Nat) (f₁ : Fld) : (s.setColl i c).afld o₁ f₁ = s.afld o₁ f₁ := rfl
@[simp] theorem State.setColl_thread (i : Nat) (c : Coll) (k₁ : Nat) : (s.setColl i c).thread k₁ = s.thread k₁ := rfl
@[simp] theorem State.setColl_queue (i : Nat) (c : Coll) (c₁ q₁ : Nat) : (s.setColl i c).queue c₁ q₁ = s.queue c₁ q₁ := rfl
@[simp] theorem State.setColl_part (i : Nat) (c : Coll) (k₁ : Nat) : (s.setColl i c).part k₁ = s.part k₁ := rfl
@[simp] theorem State.setColl_layer (i : Nat) (c : Coll) (k₁ : Nat) : (s.setColl i c).layer k₁ = s.layer k₁ := rfl
@[simp] theorem State.setColl_snp (i : Nat) (c : Coll) (k₁ : Nat) : (s.setColl i c).snp k₁ = s.snp k₁ := rfl
@[simp] theorem State.setColl_mirror (i : Nat) (c : Coll) (k₁ : Nat) : (s.setColl i c).mirror k₁ = s.mirror k₁ := rfl
@[simp] theorem State.setColl_bytes (i : Nat) (c : Coll) (a₁ n₁ : Nat) : (s.setColl i c).bytes a₁ n₁ = s.bytes a₁ n₁ := rfl
@[simp] theorem State.setColl_item (i : Nat) (c : Coll) (k₁ : Nat) : (s.setColl i c).item k₁ = s.item k₁ := rfl

end Sys2Proof.Machine
end

