-- ==== Sys2Proof/Laws/Registers.lean ====
section
/-! SUPPORT. Laws of the registers and of the tables of the state: what is read after a write, to the same place and to another;
and of the two operations that every meaning uses, a condition and a fold. -/
namespace Sys2Proof.Machine

variable (s : State)

/-- Bits outside a replaced field stay. -/
theorem bits_setBits_ne (x lo w v lo' w' : Nat) (h : lo' + w' ≤ lo ∨ lo + w ≤ lo') :
    bits (setBits x lo w v) lo' w' = bits x lo' w' := by
  unfold bits setBits
  have ex : x = x / 2 ^ (lo + w) * 2 ^ (lo + w) + x / 2 ^ lo % 2 ^ w * 2 ^ lo + x % 2 ^ lo := by
    have h1 := Nat.div_add_mod x (2 ^ lo)
    have h2 := Nat.div_add_mod (x / 2 ^ lo) (2 ^ w)
    rw [Nat.div_div_eq_div_mul, ← Nat.pow_add] at h2
    have h3 : 2 ^ (lo + w) = 2 ^ lo * 2 ^ w := Nat.pow_add ..
    rw [h3] at h2 ⊢
    calc x = 2 ^ lo * (x / 2 ^ lo) + x % 2 ^ lo := h1.symm
      _ = 2 ^ lo * (2 ^ w * (x / (2 ^ lo * 2 ^ w)) + x / 2 ^ lo % 2 ^ w) + x % 2 ^ lo := by rw [h2]
      _ = _ := by ring
  have hlo : x % 2 ^ lo < 2 ^ lo := Nat.mod_lt _ (Nat.two_pow_pos lo)
  have hp : ∀ t : Nat, t % 2 ^ w < 2 ^ w := fun t => Nat.mod_lt _ (Nat.two_pow_pos w)
  rcases h with h | h
  · obtain ⟨d, rfl⟩ := Nat.exists_eq_add_of_le h
    have key : ∀ m : Nat, m < 2 ^ w →
        (x / 2 ^ (lo' + w' + d + w) * 2 ^ (lo' + w' + d + w) + m * 2 ^ (lo' + w' + d) + x % 2 ^ (lo' + w' + d)) / 2 ^ lo' % 2 ^ w' =
          x % 2 ^ (lo' + w' + d) / 2 ^ lo' % 2 ^ w' := by
      intro m _
      have e : x / 2 ^ (lo' + w' + d + w) * 2 ^ (lo' + w' + d + w) + m * 2 ^ (lo' + w' + d) + x % 2 ^ (lo' + w' + d) =
          x % 2 ^ (lo' + w' + d) + 2 ^ lo' * (2 ^ w' * (2 ^ d * (x / 2 ^ (lo' + w' + d + w) * 2 ^ w + m))) := by
        simp only [Nat.pow_add]; ring
      rw [e, Nat.add_mul_div_left _ _ (Nat.two_pow_pos lo'), Nat.add_mul_mod_self_left]
    rw [key _ (hp v), ← key _ (hp (x / 2 ^ (lo' + w' + d))), ← ex]
  · obtain ⟨d, rfl⟩ := Nat.exists_eq_add_of_le h
    have key : ∀ m : Nat, m < 2 ^ w →
        (x / 2 ^ (lo + w) * 2 ^ (lo + w) + m * 2 ^ lo + x % 2 ^ lo) / 2 ^ (lo + w + d) = x / 2 ^ (lo + w) / 2 ^ d := by
      intro m hm
      have hb : m * 2 ^ lo + x % 2 ^ lo < 2 ^ (lo + w) := by
        have := Nat.mul_le_mul_right (2 ^ lo) (Nat.succ_le_of_lt hm)
        rw [Nat.pow_add, Nat.mul_comm (2 ^ lo)]
        rw [Nat.succ_mul] at this
        omega
      rw [Nat.pow_add 2 (lo + w) d, ← Nat.div_div_eq_div_mul, Nat.add_assoc, Nat.mul_comm (x / 2 ^ (lo + w)),
        Nat.mul_add_div (Nat.two_pow_pos _), Nat.div_eq_of_lt hb, Nat.add_zero]
    rw [key _ (hp v), ← key _ (hp (x / 2 ^ lo)), ← ex]

/-- A replaced field keeps a number below 2^32. -/
theorem setBits_lt (x lo w v : Nat) (hx : x < 2 ^ 32) (h : lo + w ≤ 32) : setBits x lo w v < 2 ^ 32 := by
  unfold setBits
  have h1 : v % 2 ^ w < 2 ^ w := Nat.mod_lt _ (Nat.two_pow_pos w)
  have h2 : x % 2 ^ lo < 2 ^ lo := Nat.mod_lt _ (Nat.two_pow_pos lo)
  have h3 : 2 ^ (lo + w) = 2 ^ lo * 2 ^ w := Nat.pow_add ..
  obtain ⟨d, hd⟩ := Nat.exists_eq_add_of_le h
  have h4 : (2 : Nat) ^ 32 = 2 ^ (lo + w) * 2 ^ d := by rw [hd, Nat.pow_add]
  have h5 : x / 2 ^ (lo + w) < 2 ^ d := by
    rw [Nat.div_lt_iff_lt_mul (Nat.two_pow_pos _), Nat.mul_comm, ← h4]; exact hx
  have h6 : v % 2 ^ w * 2 ^ lo + x % 2 ^ lo < 2 ^ (lo + w) := by
    have := Nat.mul_le_mul_right (2 ^ lo) (Nat.succ_le_of_lt h1)
    rw [h3, Nat.mul_comm (2 ^ lo)]
    rw [Nat.succ_mul] at this
    omega
  have h7 : (x / 2 ^ (lo + w) + 1) * 2 ^ (lo + w) ≤ 2 ^ (lo + w) * 2 ^ d := by
    rw [Nat.mul_comm]; exact Nat.mul_le_mul_left _ h5
  rw [h4]
  rw [Nat.succ_mul] at h7
  omega

/-- A field reads back what has been put there. -/
theorem Fld.of_put (f : Fld) (x : W32) (v : Nat) (h : f.lo + f.w ≤ 32) : f.of (f.put x v) = v % 2 ^ f.w := by
  unfold Fld.of Fld.put
  rw [BitVec.toNat_ofNat, Nat.mod_eq_of_lt (setBits_lt _ _ _ _ x.isLt h), bits_setBits_same]

/-- Another field of the register stays. -/
theorem Fld.of_put_ne (f g : Fld) (x : W32) (v : Nat) (h : f.lo + f.w ≤ 32) (hd : g.lo + g.w ≤ f.lo ∨ f.lo + f.w ≤ g.lo) :
    g.of (f.put x v) = g.of x := by
  unfold Fld.of Fld.put
  rw [BitVec.toNat_ofNat, Nat.mod_eq_of_lt (setBits_lt _ _ _ _ x.isLt h), bits_setBits_ne _ _ _ _ _ _ hd]

@[simp] theorem State.reg_setReg (o : Nat) (v : W32) : (s.setReg o v).reg o = v := by simp [State.reg, State.setReg]

theorem State.reg_setReg_ne {o p : Nat} (v : W32) (h : p ≠ o) : (s.setReg o v).reg p = s.reg p := by
  simp [State.reg, State.setReg, Tbl.get_put_ne _ _ _ _ h]

@[simp] theorem State.reg_setFld (o : Nat) (f : Fld) (v : Nat) : (s.setFld o f v).reg o = f.put (s.reg o) v := by
  simp [State.setFld]

theorem State.reg_setFld_ne {o p : Nat} (f : Fld) (v : Nat) (h : p ≠ o) : (s.setFld o f v).reg p = s.reg p := by
  simp [State.setFld, State.reg_setReg_ne _ _ h]

/-- A field of a register reads back what has been written. -/
theorem State.fld_setFld (o : Nat) (f : Fld) (v : Nat) (h : f.lo + f.w ≤ 32) : (s.setFld o f v).fld o f = v % 2 ^ f.w := by
  simp [State.fld, Fld.of_put _ _ _ h]

/-- A field of another register stays. -/
theorem State.fld_setFld_ne {o p : Nat} (f g : Fld) (v : Nat) (h : p ≠ o) : (s.setFld o f v).fld p g = s.fld p g := by
  simp [State.fld, State.reg_setFld_ne _ _ _ h]

theorem State.fld_setReg_ne {o p : Nat} (g : Fld) (v : W32) (h : p ≠ o) : (s.setReg o v).fld p g = s.fld p g := by
  simp [State.fld, State.reg_setReg_ne _ _ h]

/-- A counter counts, and saturates (R447). -/
@[simp] theorem State.reg_bumpBy (o n : Nat) :
    (s.bumpBy o n).reg o = BitVec.ofNat 32 (min 0xFFFFFFFF ((s.reg o).toNat + n)) := by simp [State.bumpBy]

theorem State.reg_bumpBy_ne {o p : Nat} (n : Nat) (h : p ≠ o) : (s.bumpBy o n).reg p = s.reg p := by
  simp [State.bumpBy, State.reg_setReg_ne _ _ h]

@[simp] theorem State.reg_bump (o : Nat) : (s.bump o).reg o = BitVec.ofNat 32 (min 0xFFFFFFFF ((s.reg o).toNat + 1)) := by
  simp [State.bump]

theorem State.reg_bump_ne {o p : Nat} (h : p ≠ o) : (s.bump o).reg p = s.reg p := by
  simp [State.bump, State.reg_bumpBy_ne _ _ h]

@[simp] theorem State.thread_setThread (k : Nat) (x : Thread) : (s.setThread k x).thread k = x := by
  simp [State.thread, State.setThread]

theorem State.thread_setThread_ne {k j : Nat} (x : Thread) (h : j ≠ k) : (s.setThread k x).thread j = s.thread j := by
  simp [State.thread, State.setThread, Tbl.get_put_ne _ _ _ _ h]

@[simp] theorem State.queue_setQueue (c q : Nat) (x : Queue) : (s.setQueue c q x).queue c q = x := by
  simp [State.queue, State.setQueue]

@[simp] theorem State.part_setPart (p : Nat) (x : Part) : (s.setPart p x).part p = x := by simp [State.part, State.setPart]

@[simp] theorem State.layer_setLayer (l : Nat) (x : LinkLayer) : (s.setLayer l x).layer l = x := by
  simp [State.layer, State.setLayer]

@[simp] theorem State.snp_setSnp (c : Nat) (x : Snp) : (s.setSnp c x).snp c = x := by simp [State.snp, State.setSnp]

@[simp] theorem State.mirror_setMirror (j : Nat) (m : Mirror) : (s.setMirror j m).mirror j = m := by
  simp [State.mirror, State.setMirror]

@[simp] theorem State.stack_setStack (n : Nat) (x : Stack) : (s.setStack n x).stack n = x := by
  simp [State.stack, State.setStack]

@[simp] theorem State.port_setPort (p : Nat) (x : HostPort) : (s.setPort p x).port p = x := by
  simp [State.port, State.setPort]

@[simp] theorem State.ring_setRing (g : Nat) (x : AmRing) : (s.setRing g x).ring g = x := by
  simp [State.ring, State.setRing]

@[simp] theorem State.dq_setDq (q : Nat) (x : DriftQueue) : (s.setDq q x).dq q = x := by simp [State.dq, State.setDq]

/-- An event is the last one raised. -/
@[simp] theorem State.raise_raised (code : Nat) (job : Option Nat) (unit index a b : Nat) :
    (s.raise code job unit index a b).log.raised =
      s.log.raised ++ [⟨s.now, code, job, unit, index, a % 2 ^ 32, b % 2 ^ 64⟩] := rfl

@[simp] theorem State.send_out (m : Out) : (s.send m).out = s.out ++ [m] := rfl

@[simp] theorem State.when_true (f : State → State) : s.when true f = f s := rfl

@[simp] theorem State.when_false (f : State → State) : s.when false f = s := rfl

/-- A property that f keeps is kept where the condition decides on f. -/
theorem State.when_keeps (P : State → Prop) (c : Bool) (f : State → State) (h : P s) (hf : ∀ t, P t → P (f t)) :
    P (s.when c f) := by
  unfold State.when
  split
  · exact hf s h
  · exact h

/-- A property that each turn keeps is kept by the whole fold. -/
theorem State.each_keeps {α : Type} (P : State → Prop) (l : List α) (f : State → α → State) (h : P s)
    (hf : ∀ t x, P t → P (f t x)) : P (s.each l f) := by
  unfold State.each
  induction l generalizing s with
  | nil => exact h
  | cons x r ih => exact ih (f s x) (hf s x h)

end Sys2Proof.Machine
end

