-- ==== Sys2Proof/Laws/Memory.lean ====
section
/-! SUPPORT. Laws of memory: every operation over its cells keeps the canonical form, a byte written reads back, and every other
byte stays. -/
namespace Sys2Proof.Machine

theorem cellsWf_mono {n m : Nat} (h : m ≤ n) : ∀ {l : List Host.Cell}, cellsWf n l = true → cellsWf m l = true
  | [], _ => rfl
  | (a, b) :: r, hl => by
    simp only [cellsWf, Bool.and_eq_true, decide_eq_true_eq] at hl ⊢
    exact ⟨⟨Nat.le_trans h hl.1.1, hl.1.2⟩, hl.2⟩

/-- A filter keeps the canonical form. -/
theorem cellsWf_filter (p : Host.Cell → Bool) : ∀ {n : Nat} {l : List Host.Cell}, cellsWf n l = true → cellsWf n (l.filter p) = true
  | _, [], _ => rfl
  | n, (a, b) :: r, hl => by
    simp only [cellsWf, Bool.and_eq_true, decide_eq_true_eq] at hl
    simp only [List.filter_cons]
    split
    · simp only [cellsWf, Bool.and_eq_true, decide_eq_true_eq]
      exact ⟨hl.1, cellsWf_filter p hl.2⟩
    · exact cellsWf_mono (Nat.le_succ_of_le hl.1.1) (cellsWf_filter p hl.2)

theorem cellsWf_dropWhile (m : Nat) : ∀ {n : Nat} {l : List Host.Cell}, cellsWf n l = true →
    cellsWf m (l.dropWhile fun c => c.1 < m) = true
  | _, [], _ => rfl
  | n, (a, b) :: r, hl => by
    simp only [cellsWf, Bool.and_eq_true, decide_eq_true_eq] at hl
    simp only [List.dropWhile_cons]
    split
    · exact cellsWf_dropWhile m hl.2
    · rename_i ha
      simp only [decide_eq_true_eq, not_lt] at ha
      simp only [cellsWf, Bool.and_eq_true, decide_eq_true_eq]
      exact ⟨⟨ha, hl.1.2⟩, hl.2⟩

theorem newCells_append : ∀ (a : Nat) (bs : Bytes) {l : List Host.Cell}, cellsWf (a + bs.length) l = true →
    cellsWf a (newCells a bs ++ l) = true
  | a, [], l, h => by simpa [newCells] using h
  | a, b :: r, l, h => by
    have h' : cellsWf (a + 1 + r.length) l = true := by
      have e : a + 1 + r.length = a + (b :: r).length := by simp; omega
      rw [e]; exact h
    simp only [newCells]
    split
    · exact cellsWf_mono (Nat.le_succ a) (newCells_append (a + 1) r h')
    · rename_i hb
      simp only [List.cons_append, cellsWf, Bool.and_eq_true, decide_eq_true_eq, bne_iff_ne, ne_eq]
      exact ⟨⟨Nat.le_refl a, hb⟩, newCells_append (a + 1) r h'⟩

theorem takeWhile_append (m : Nat) : ∀ {n : Nat} {l k : List Host.Cell}, cellsWf n l = true → n ≤ m → cellsWf m k = true →
    cellsWf n (l.takeWhile (fun c => c.1 < m) ++ k) = true
  | n, [], k, _, hm, hk => by simpa using cellsWf_mono hm hk
  | n, (a, b) :: r, k, hl, hm, hk => by
    simp only [cellsWf, Bool.and_eq_true, decide_eq_true_eq] at hl
    simp only [List.takeWhile_cons]
    split
    · rename_i ha
      simp only [decide_eq_true_eq] at ha
      simp only [List.cons_append, cellsWf, Bool.and_eq_true, decide_eq_true_eq]
      exact ⟨hl.1, takeWhile_append m hl.2 ha hk⟩
    · simpa using cellsWf_mono hm hk

/-- Bytes put into cells keep the canonical form. -/
theorem cellsWf_putCells {l : List Host.Cell} (a : Nat) (bs : Bytes) (h : cellsWf 0 l = true) : cellsWf 0 (putCells l a bs) = true := by
  unfold putCells
  rw [List.append_assoc]
  exact takeWhile_append a h (Nat.zero_le a) (newCells_append a bs (cellsWf_dropWhile (a + bs.length) h))

/-- A put keeps the canonical form of memory. -/
theorem Memory.wf_put {m : Memory} (a : Nat) (bs : Bytes) (h : m.wf = true) : (m.put a bs).wf = true := cellsWf_putCells a bs h

theorem Memory.wf_putEach : ∀ {m : Memory} (l : List (Nat × Byte)), m.wf = true → (m.putEach l).wf = true
  | _, [], h => h
  | _, (a, b) :: r, h => Memory.wf_putEach r (Memory.wf_put a [b] h)

/-- An undefined range keeps the canonical form of memory. -/
theorem Memory.wf_smear {m : Memory} (a n seed : Nat) (h : m.wf = true) : (m.smear a n seed).wf = true := cellsWf_filter _ h

theorem Memory.wf_unset {m : Memory} (u : Undef) (h : m.wf = true) : (m.unset u).wf = true := cellsWf_filter _ h

/-- Counting errors leaves memory alone. -/
theorem State.each_mem {α : Type} (l : List α) (f : State → α → State) (hf : ∀ t x, (f t x).mem = t.mem) (s : State) :
    (s.each l f).mem = s.mem :=
  State.each_keeps s (fun t => t.mem = s.mem) l f rfl (fun t x h => (hf t x).trans h)

@[simp] theorem State.openPage_mem (s : State) (st l : Nat) : (s.openPage st l).mem = s.mem := by
  unfold State.openPage
  dsimp only
  split <;> simp only [State.bump_mem, State.setStack_mem]

@[simp] theorem State.openPages_mem (s : State) (a n : Nat) : (s.openPages a n).mem = s.mem := by
  unfold State.openPages
  split
  · rfl
  · exact State.each_mem _ _ (fun t x => State.openPage_mem t _ _) s

@[simp] theorem State.passWrites_mem (s : State) (l : List (Nat × Byte)) : (s.passWrites l).mem = s.mem := by
  unfold State.passWrites
  refine State.each_mem _ _ (fun t x => ?_) s
  unfold State.when
  dsimp only
  split
  · exact State.setStack_mem ..
  · rfl

@[simp] theorem State.retirePage_mem (s : State) (st page state : Nat) : (s.retirePage st page state).mem = s.mem := by
  unfold State.retirePage
  extract_lets x addr job
  split
  · split
    · rw [State.raise_mem, State.setStack_mem]
    · rfl
  · split
    · rw [State.raise_mem, State.setFld_mem]
    · rw [State.raise_mem, State.setStack_mem]

@[simp] theorem State.chargeUe_mem (s : State) (a : Nat) : (s.chargeUe a).mem = s.mem := by
  unfold State.chargeUe
  by_cases h : s.cutByte a = true
  · rw [if_pos h]
  · rw [if_neg h]
    cases regionOf a with
    | none => rfl
    | some r =>
      cases r with
      | firn => exact (State.setFld_mem ..).trans ((State.setFld_mem ..).trans (State.bump_mem ..))
      | hbm =>
        by_cases hp : (s.retiredPages.any fun p => decide (p ≤ a) && decide (a < p + 2048)) = true
        · exact congrArg State.mem (if_pos hp)
        · exact (congrArg State.mem (if_neg hp)).trans ((State.retirePage_mem ..).trans (State.bump_mem ..))
      | _ => rfl

@[simp] theorem State.chargeCe_mem (s : State) (st l : Nat) : (s.chargeCe st l).mem = s.mem := by
  unfold State.chargeCe
  extract_lets r n t
  split
  · exact (State.retirePage_mem ..).trans ((State.setStack_mem ..).trans (State.bump_mem ..))
  · exact (State.setStack_mem ..).trans (State.bump_mem ..)

@[simp] theorem State.chargeFixed_mem (s : State) (m : Nat) : (s.chargeFixed m).mem = s.mem := by
  unfold State.chargeFixed
  split
  · exact State.bump_mem ..
  · exact State.chargeCe_mem ..

/-- A message that waits for a host port's link layer is no change of memory (R390). -/
@[simp] theorem State.portMsg_mem (s : State) (p vc code : Nat) (body : Bytes) : (s.portMsg p vc code body).mem = s.mem := rfl

@[simp] theorem State.portWrites_mem (p : Nat) : ∀ (k a : Nat) (b : Bytes) (s : State), (State.portWrites p k a b s).mem = s.mem
  | 0, _, _, _ => rfl
  | k + 1, a, b, s => by
    unfold State.portWrites
    split
    · rfl
    · exact State.portWrites_mem p k _ _ _

@[simp] theorem State.hostOut_mem (s : State) (a : Nat) (bs : Bytes) : (s.hostOut a bs).mem = s.mem := by
  unfold State.hostOut State.when
  split
  · split
    · exact State.portWrites_mem ..
    · rfl
  · rfl

/-- A store of some bytes keeps the canonical form of memory. -/
theorem State.wf_storeSome (s : State) (a : Nat) (bs : Bytes) (p : Nat → Bool) (h : s.mem.wf = true) :
    (s.storeSome a bs p).mem.wf = true := by
  unfold State.storeSome
  rw [State.passWrites_mem]
  unfold State.storeServed
  extract_lets _ _ _ _ _ _ _ _ m u v
  rw [State.each_mem]
  · rw [State.each_mem _ _ fun t x => State.chargeFixed_mem t x, State.each_mem _ _ fun t x => State.chargeUe_mem t x]
    rw [State.openPages_mem]
    exact Memory.wf_putEach _ h
  · intro t x
    exact State.bump_mem ..

theorem State.wf_storeMem (s : State) (a : Nat) (bs : Bytes) (h : s.mem.wf = true) : (s.storeMem a bs).mem.wf = true := by
  unfold State.storeMem
  split
  · rw [State.openPages_mem]
    exact Memory.wf_put a bs h
  · exact State.wf_storeSome s a bs _ h

/-- What a store can do to memory: it keeps the canonical form. -/
theorem State.wf_store (s : State) (a : Nat) (bs : Bytes) (h : s.mem.wf = true) : (s.store a bs).mem.wf = true := by
  unfold State.store
  rw [State.hostOut_mem]
  exact State.wf_storeMem s a bs h

/-- A store that meets nothing but plain memory is a put (R514). -/
theorem State.store_plain (s : State) (a : Nat) (bs : Bytes) (h : s.plainWrite a bs.length = true) :
    (s.store a bs).mem = s.mem.put a bs := by
  unfold State.store State.storeMem
  rw [State.hostOut_mem, if_pos h, State.openPages_mem]
  rfl

/-- Clearing a range keeps the canonical form. -/
theorem State.wf_zeroMem (s : State) (a n : Nat) (h : s.mem.wf = true) : (s.zeroMem a n).mem.wf = true := cellsWf_filter _ h

/-- A range that becomes undefined keeps the canonical form. -/
theorem State.wf_smear (s : State) (a n : Nat) (h : s.mem.wf = true) : (s.smear a n).mem.wf = true := Memory.wf_smear a n _ h

/-! ## What a byte reads -/

/-- The byte that cells give an address. -/
def cellAt : List Host.Cell → Nat → Byte
  | [], _ => 0
  | (a, b) :: r, x => if a = x then b else cellAt r x

theorem cellAt_below {x : Nat} : ∀ {n : Nat} {l : List Host.Cell}, cellsWf n l = true → x < n → cellAt l x = 0
  | _, [], _, _ => rfl
  | n, (a, b) :: r, h, hx => by
    simp only [cellsWf, Bool.and_eq_true, decide_eq_true_eq] at h
    have : a ≠ x := by omega
    simp only [cellAt, this, if_false]
    exact cellAt_below h.2 (by omega)

/-- One byte of memory is what its cells give, where it is defined. -/
theorem cellBytes_one (x : Nat) : ∀ {n : Nat} {l : List Host.Cell}, cellsWf n l = true →
    cellBytes 1 x (l.dropWhile fun c => c.1 < x) = [cellAt l x]
  | _, [], _ => rfl
  | n, (a, b) :: r, h => by
    simp only [cellsWf, Bool.and_eq_true, decide_eq_true_eq] at h
    simp only [List.dropWhile_cons]
    split
    · rename_i ha
      simp only [decide_eq_true_eq] at ha
      rw [cellBytes_one x h.2, cellAt, if_neg (by omega)]
    · rename_i ha
      simp only [decide_eq_true_eq, not_lt] at ha
      simp only [cellBytes, cellAt]
      split
      · rfl
      · rw [cellAt_below h.2 (by omega)]

theorem cellAt_take (x m : Nat) : ∀ {n : Nat} {l k : List Host.Cell}, cellsWf n l = true → cellsWf m k = true →
    cellAt (l.takeWhile (fun c => c.1 < m) ++ k) x = if x < m then cellAt l x else cellAt k x
  | _, [], k, _, hk => by
    split
    · exact cellAt_below hk (by assumption)
    · rfl
  | n, (a, b) :: r, k, hl, hk => by
    simp only [cellsWf, Bool.and_eq_true, decide_eq_true_eq] at hl
    simp only [List.takeWhile_cons]
    split
    · rename_i ha
      simp only [decide_eq_true_eq] at ha
      have ih := cellAt_take x m hl.2 hk
      simp only [List.cons_append, cellAt, ih]
      split <;> split <;> first | rfl | omega
    · rename_i ha
      simp only [decide_eq_true_eq, not_lt] at ha
      simp only [List.nil_append]
      split
      · have : a ≠ x := by omega
        rw [cellAt_below hk (by assumption), cellAt, if_neg this, cellAt_below hl.2 (by omega)]
      · rfl

theorem cellAt_new (x : Nat) : ∀ (a : Nat) (bs : Bytes) {k : List Host.Cell}, cellsWf (a + bs.length) k = true → a ≤ x →
    cellAt (newCells a bs ++ k) x = if x < a + bs.length then bs.getD (x - a) 0 else cellAt k x
  | a, [], k, _, hx => by
    have : ¬ x < a + 0 := by omega
    simp [newCells, hx]
  | a, b :: r, k, hk, hx => by
    have e : a + (b :: r).length = a + 1 + r.length := by simp; omega
    rw [e] at hk ⊢
    by_cases hax : a = x
    · subst hax
      have hlt : a < a + 1 + r.length := by omega
      simp only [newCells, hlt, if_true, Nat.sub_self, List.getD_cons_zero]
      split
      · rename_i hb
        rw [cellAt_below (newCells_append (a + 1) r hk) (Nat.lt_succ_self a), hb]
      · simp [cellAt]
    · have hx' : a + 1 ≤ x := by omega
      have ih := cellAt_new x (a + 1) r hk hx'
      have hd : (b :: r).getD (x - a) 0 = r.getD (x - (a + 1)) 0 := by
        have : x - a = (x - (a + 1)) + 1 := by omega
        rw [this, List.getD_cons_succ]
      rw [hd]
      simp only [newCells]
      split
      · exact ih
      · simp only [List.cons_append, cellAt, hax, if_false]
        exact ih

theorem cellAt_drop (x m : Nat) (hx : m ≤ x) : ∀ (l : List Host.Cell), cellAt (l.dropWhile fun c => c.1 < m) x = cellAt l x
  | [] => rfl
  | (a, b) :: r => by
    simp only [List.dropWhile_cons]
    split
    · rename_i ha
      simp only [decide_eq_true_eq] at ha
      rw [cellAt_drop x m hx r, cellAt, if_neg (by omega)]
    · rfl

/-- After bytes are put at a, each of them reads back, and every other cell reads as before. -/
theorem cellAt_putCells {l : List Host.Cell} (a : Nat) (bs : Bytes) (h : cellsWf 0 l = true) (x : Nat) :
    cellAt (putCells l a bs) x = if a ≤ x ∧ x < a + bs.length then bs.getD (x - a) 0 else cellAt l x := by
  have hd := cellsWf_dropWhile (a + bs.length) h
  unfold putCells
  rw [List.append_assoc, cellAt_take x a h (newCells_append a bs hd)]
  by_cases hx : x < a
  · rw [if_pos hx, if_neg (by omega)]
  · rw [if_neg hx, cellAt_new x a bs hd (by omega)]
    by_cases hy : x < a + bs.length
    · rw [if_pos hy, if_pos ⟨by omega, hy⟩]
    · rw [if_neg hy, if_neg (by omega), cellAt_drop x _ (by omega)]

/-- One byte of canonical memory: a free value where it is undefined, else what its cells give. -/
theorem Memory.byte_eq {m : Memory} (h : m.wf = true) (x : Nat) :
    m.byte x = match undefAt m.undef x with | some u => Config.freeByte u.seed x | none => cellAt m.cells x := by
  unfold Memory.byte Memory.bytes
  rw [cellBytes_one x h]
  split
  · rename_i hu
    simp [hu, undefAt]
  · simp only [upFrom, List.zipWith_cons_cons, List.zipWith_nil_right, List.headD_cons] <;> cases undefAt m.undef x <;> rfl

end Sys2Proof.Machine
end

