-- ==== Sys2Proof/WellFormed.lean ====
section
/-! DEFINITION. Which commands the block can be given: the bounds of the operands that their type does not give (Tables 1-6, 2-5,
10-1 to 10-7, 11-6 to 11-8, 12-1, 13-2, 15-4, 16-4, 16-8, 17-7). A meaning does not rest on them. -/
namespace Sys2Proof

/-- A slot header has 64 bytes, a payload at most 16 MiB (R50, R51). -/
def Arrival.wellFormed : Arrival → Bool
  | .fromLocal _ _ => true
  | .fromFabric hdr payload => decide (hdr.length = 64) && decide (payload.length < 2 ^ 32)
  | .fromFeed => true

/-- A request lies in a stack, and a write brings its bytes (R220). -/
def HbmReq.wellFormed (r : HbmReq) : Bool :=
  decide (r.addr + r.len ≤ 2 ^ 37) && (match r.write with | none => true | some b => decide (b.length = r.len))

/-- An element index and a transfer's length (R251, Table 10-4). -/
def SnpPub.wellFormed (a : SnpPub) : Bool := decide (a.ix < 2 ^ 32) && decide (2 * a.codes.length < 2 ^ 40)

/-- The fields of Table 11-8. -/
def CollData.wellFormed (d : CollData) : Bool :=
  [d.kind, d.op, d.rank, d.ifmt].all (fun x => decide (x < 256)) &&
    [d.block, d.count, d.nr].all (fun x => decide (x < 2 ^ 32)) && decide (d.offset < 2 ^ 40) && decide (d.body.length < 2 ^ 40)

/-- The fields of Table 11-6. -/
def AmMsg.wellFormed (m : AmMsg) : Bool :=
  decide (m.dcl < 512) && decide (m.handler < 1024) && decide (m.scl < 512) && decide (m.payload.length ≤ 16384)

/-- A message from the fabric has the fields of Table 11-6. -/
def AmSrc.wellFormed : AmSrc → Bool
  | .waiting _ => true
  | .fabric _ m => m.wellFormed

/-- The fields of Tables 11-7 and 11-8. -/
def DqMsg.wellFormed (m : DqMsg) : Bool :=
  decide (m.contrib < 256) && decide (m.fmt < 256) && decide (m.entry < 2 ^ 32) && decide (m.count < 2 ^ 16) &&
    decide (m.body.length ≤ 4 * m.count)

/-- A contribution from the fabric has those fields. -/
def DqSrc.wellFormed : DqSrc → Bool
  | .waiting _ => true
  | .fabric _ m => m.wellFormed

/-- A STATUS unit names the allocation of each of the 17 counters (Tables 10-2 and 10-7). -/
def LinkStatusMsg.wellFormed (m : LinkStatusMsg) : Bool := decide (m.allocs.length = 17) && m.allocs.all fun a => decide (a < 2 ^ 16)

/-- The reason of a REFUSE is one byte (Table 16-4). -/
def PartnerAnswer.wellFormed : PartnerAnswer → Bool
  | .accept => true
  | .refuse r => decide (r < 256)

/-- The fields of a MIRROR segment (Table 16-4). -/
def MirrorSeg.wellFormed (m : MirrorSeg) : Bool :=
  decide (m.part < 256) && decide (m.first < 2 ^ 32) && decide (m.body.length < 2 ^ 40)

/-- A unit code of Table 15-4 has 16 bits. -/
def UnitRef.wellFormed (u : UnitRef) : Bool := decide (u.code < 2 ^ 16) && decide (u.index < 2 ^ 16)

/-- A capability block has 64 bytes (Table 12-3); PWR_BOOTMS has 32 bits. -/
def BootEnv.wellFormed (b : BootEnv) : Bool := b.caps.all (fun x => decide (x.2.length = 64)) && decide (b.bootMs < 2 ^ 32)

/-- The bounds of the operands of a command. -/
def Instr.wellFormed : Instr → Bool
  | .ctrlNop _ _ _ => true
  | .ctrlEnd _ _ _ => true
  | .ctrlSeta _ _ _ => true
  | .ctrlAdda _ _ _ => true
  | .ctrlLoop _ _ _ => true
  | .ctrlGroup _ _ _ => true
  | .ctrlWait _ _ _ => true
  | .commit _ _ _ => true
  | .commitExchangeEnd _ _ => true
  | .layerdone _ _ _ => true
  | .programFetch _ _ => true
  | .rowFetch _ => true
  | .partitionBarrier _ => true
  | .earlyForward _ => true
  | .layerUpdateRun _ => true
  | .fillSwitch _ => true
  | .fillProgramEnd _ => true
  | .fillOverrun _ us => decide (us < 2 ^ 32)
  | .iterationOverrun _ us => decide (us < 2 ^ 32)
  | .tabStart _ => true
  | .tabResume _ => true
  | .tabStop _ => true
  | .take _ _ _ => true
  | .takeComplete _ _ => true
  | .release _ _ _ => true
  | .fillBackComplete _ _ => true
  | .claim _ _ _ => true
  | .claimComplete _ _ => true
  | .send _ _ _ => true
  | .sendAdmit _ _ => true
  | .sendComplete _ _ => true
  | .bindRequest _ _ => true
  | .bindAnswerReceive _ _ capacity pages => decide (capacity < 2 ^ 16) && decide (pages < 2 ^ 16)
  | .slotArrival _ _ a => a.wellFormed
  | .creditRecordRefresh _ _ => true
  | .creditRecordReceive _ _ _ => true
  | .stageQueueStall _ _ us => decide (us < 2 ^ 32)
  | .ctxEnable _ => true
  | .ctxDisable _ => true
  | .ctxFinish _ => true
  | .ctxDrained _ => true
  | .copyWord _ _ _ => true
  | .copyDescriptorStart _ _ => true
  | .copyReadIssue _ _ => true
  | .copyReadReturn _ _ _ => true
  | .copyReadTimeout _ _ _ => true
  | .itemRetire _ => true
  | .firnScrub _ _ _ => true
  | .scrubOverrun _ => true
  | .hbmRequestAccept _ r => r.wellFormed
  | .hbmRequestServe _ n _ => decide (n < 2 ^ 31)
  | .pageIdleClose _ _ _ => true
  | .hbmRefresh _ _ _ => true
  | .hbmScrub _ _ _ => true
  | .retConfirm _ _ => true
  | .retirementTableSave => true
  | .mcfg _ _ _ => true
  | .mload _ _ _ => true
  | .mstream _ _ _ => true
  | .mclr _ _ _ => true
  | .memit _ _ _ => true
  | .bowWait _ _ us => decide (us < 2 ^ 32)
  | .vcfg _ _ _ => true
  | .vstr _ _ _ => true
  | .vtbl _ _ _ => true
  | .vmov _ _ _ => true
  | .vadd _ _ _ => true
  | .vsub _ _ _ => true
  | .vmul _ _ _ => true
  | .vfma _ _ _ => true
  | .vmax _ _ _ => true
  | .vmin _ _ _ => true
  | .vabs _ _ _ => true
  | .vneg _ _ _ => true
  | .vrcp _ _ _ => true
  | .vrsq _ _ _ => true
  | .vcrv _ _ _ => true
  | .vdrop _ _ _ => true
  | .vnrm _ _ _ => true
  | .vsel _ _ _ => true
  | .rsum _ _ _ => true
  | .rmax _ _ _ => true
  | .rdot _ _ _ => true
  | .nstat _ _ _ => true
  | .rstat _ _ _ => true
  | .smxs _ _ _ => true
  | .smxn _ _ _ => true
  | .gacc _ _ _ => true
  | .opt _ _ _ => true
  | .vbegin _ _ _ => true
  | .vbeginOpen _ => true
  | .snowpackSlotWait _ n => decide (n < 2 ^ 32)
  | .vend _ _ _ => true
  | .buildBecomesHead _ => true
  | .vendTimeout _ => true
  | .vread _ _ _ => true
  | .vpub _ _ _ => true
  | .snpArrival _ a _ => a.wellFormed
  | .failureNoticeReceive _ _ _ => true
  | .compactionComplete _ _ => true
  | .snpReset _ => true
  | .snpAdopt _ _ _ => true
  | .nuUnstick _ => true
  | .nuClrpend _ => true
  | .coll _ _ _ => true
  | .collStart _ => true
  | .collGrantReceive _ _ m => decide (m.rank < 256) && decide (m.limit < 2 ^ 32)
  | .collDataReceive d => d.wellFormed
  | .collTimeout _ => true
  | .collComplete _ => true
  | .digestReceive _ _ _ => true
  | .amsend _ _ _ => true
  | .amPlace a => a.wellFormed
  | .handlerStart _ => true
  | .amsgStall _ n => decide (n < 2 ^ 32)
  | .dqadd _ _ _ => true
  | .dqaddArrival a => a.wellFormed
  | .flowUnitSend _ => true
  | .flowUnitReceive _ u => decide (u.length = 256)
  | .replayTimeout _ => true
  | .segmentPlace _ _ => true
  | .receiptReceive _ _ _ m => decide (m.count < 2 ^ 40)
  | .cancelReceive _ _ => true
  | .bypassFallback _ => true
  | .linkTrained _ _ _ _ => true
  | .statusReceive _ m => m.wellFormed
  | .statusPeriodic _ => true
  | .lnkRetrain _ => true
  | .drainEnd _ _ => true
  | .laneLockLost _ => true
  | .retrainTimeout _ => true
  | .graceExpired _ => true
  | .downReceive _ => true
  | .timeReqSend => true
  | .timeReqReceive _ t1 => decide (t1 < 2 ^ 72)
  | .timeRspReceive _ t1 t2 t3 t4 depth _ => [t1, t2, t3, t4].all (fun t => decide (t < 2 ^ 72)) && decide (depth < 256)
  | .ethFrameReceive _ f => decide (14 ≤ f.length)
  | .ethAckIdle _ => true
  | .ptpEventMessage _ _ _ => true
  | .twiacPacketReceive _ hdr data => decide (hdr.length = 16) && decide (data.length ≤ 4608)
  | .flitRetry _ _ => true
  | .capabilityBlockReceive _ b => decide (b.length = 64)
  | .capabilityRerequest _ => true
  | .twiacClockLoss _ => true
  | .thermalReport _ _ => true
  | .throttleStepDown _ => true
  | .doorbellReceive _ _ _ => true
  | .doorbellPoll _ => true
  | .readDataReceive _ tag _ data => decide (tag < 2 ^ 16) && decide (data.length ≤ 65536)
  | .sqNop _ _ => true
  | .sqCopy _ _ => true
  | .sqFeed _ _ => true
  | .feedAdmit _ _ => true
  | .sqPost _ _ => true
  | .sqTab _ _ => true
  | .sqAmsg _ _ => true
  | .mqRecordWrite _ => true
  | .interruptHoldoffEnd _ _ => true
  | .mgmtReq _ tag _ _ => decide (tag < 2 ^ 16)
  | .adapterStatusReceive _ _ => true
  | .portLightDetect _ => true
  | .portGraceExpired _ => true
  | .plhPortEnable _ _ => true
  | .plhSqEnable _ _ _ => true
  | .plhMqEnable _ _ => true
  | .pollCfgSend _ => true
  | .registerWrite _ _ _ _ => true
  | .registerReadClear _ _ => true
  | .timNowRead _ _ => true
  | .timSet _ => true
  | .cfiUnlock _ _ _ => true
  | .cfiCommit _ _ => true
  | .configSweep _ => true
  | .epochAdvance _ => true
  | .epochDiscard => true
  | .epochUnitReport u => u.wellFormed
  | .epochCommit => true
  | .epochTimeout => true
  | .eventLogDeliver => true
  | .suppressionWindowEnd => true
  | .clusterIdlePs1 _ => true
  | .clusterIdlePs2 _ => true
  | .unassignedClusterSleep _ => true
  | .cirPmHold _ _ => true
  | .clusterWake _ => true
  | .ps3Request _ => true
  | .dieWake _ _ => true
  | .standbyRequest _ => true
  | .standbyWake _ b => b.wellFormed
  | .railSettled _ _ => true
  | .railSettleTimeout _ => true
  | .pllLocked _ => true
  | .clockLoss _ b => b.wellFormed
  | .thermalForce _ _ _ => true
  | .forcedClear _ => true
  | .thermalTrip _ _ _ => true
  | .powerOnReset b => b.wellFormed
  | .packageWarmReset b => b.wellFormed
  | .singleDieReset _ => true
  | .clusterReset _ => true
  | .linkReset _ => true
  | .hostPortReset _ => true
  | .railPgTimeout _ => true
  | .vcoreFault _ => true
  | .vfirnPgLoss => true
  | .vserdesPgLoss => true
  | .vhubPgLoss b => b.wellFormed
  | .hbmRailFault _ => true
  | .i2cRegRead _ => true
  | .i2cRegWrite _ _ => true
  | .i2cWake b => b.wellFormed
  | .i2cWarmReset _ b => b.wellFormed
  | .i2cStatus => true
  | .i2cFlashRead _ len => decide (len ≤ 256)
  | .i2cFlashWrite _ data => decide (data.length ≤ 256)
  | .i2cFlashErase _ => true
  | .recoveryPoll => true
  | .recoveryConfigure _ => true
  | .recoveryHalt _ => true
  | .recoveryAttest _ => true
  | .recoveryRestore _ => true
  | .mirrorStart _ => true
  | .mirrorCommitReceive _ _ _ _ _ => true
  | .mirrorCommittedReceive _ _ _ => true
  | .mirrorCommitTimeout _ => true
  | .helloReceive _ _ _ => true
  | .partnerAnswerReceive _ _ a => a.wellFormed
  | .partnerAnswerTimeout _ => true
  | .heartbeatSend _ => true
  | .partnerLost _ => true
  | .restoreReqReceive _ _ _ entry => decide (entry.length = 32)
  | .mirrorSegmentReceive m => m.wellFormed
  | .bindRequestReceive _ _ => true
  | .heartbeatReceive _ _ => true
  | .lctlRetrainReceive _ _ _ => true
  | .pliandLaneLockLost _ => true
  | .vcoreRestored _ => true
  | .ps3EntryComplete _ => true
  | .reservedClassWord _ _ _ => true

end Sys2Proof
end

