-- ==== Sys2Proof/Tests/Slice0.lean ====
section
/-! SUPPORT. Tests: one ill-formed command for each check, and for each statement states and operands that meet its hypotheses
together, with what the command leaves there. Expected values are worked out by hand from the rules. -/
open Sys2Proof Sys2Proof.Machine
namespace Sys2Proof.Tests
set_option Elab.async false

/-- The state after a command. -/
def after (c : Instr) (s : State) : State := match exec c s with | .next u => u | _ => State.reset

/-- A state whose registers, staged and applied, hold some values; the rest is as after reset. -/
def regs (l : List (Nat × Nat)) : State :=
  l.foldl (fun s e => (s.setReg e.1 (BitVec.ofNat 32 e.2)).setApp e.1 (BitVec.ofNat 32 e.2)) State.reset

/-- The codes of the events raised. -/
def codes (s : State) : List Nat := s.log.raised.map Event.code

/-- A register value with one field set. -/
def put (f : Fld) (n : Nat) : Nat := n * 2 ^ f.lo

/-- Thread k has fetched the line of its pc, and word w stands there. -/
def lay (s : State) (k w : Nat) : State :=
  let t := s.thread k
  s.setThread k { t with lines := [(t.pc / 64, List.replicate (t.pc % 64) 0 ++ leBytes 8 w)] }

/-- A thread at word w of a fill program. -/
def run (s : State) (k w : Nat) : State := lay (s.setThread k { prog := .fill }) k w

/-- The results reported. -/
def results (s : State) : List Completion := s.items.log.map fun r => r.comp

/-- The registers of a partition p that holds cluster 0 for job 0. -/
def partRegs (p : Nat) : List (Nat × Nat) := [(Reg.stgPartCtrl p, 1), (Reg.stgPartMap p 0, 1)]

/-- The row that the tests use: every stream enabled, no barrier wait. -/
def row0 : Row :=
  { rep := 2, fEn := true, bEn := false, uEn := false, bPart := 0, stepEnd := false, eval := false, fPrio := 0, bPrio := 0, uPrio := 0
    wait := 0, fVst := 0, bVst := 0, uVst := 0, cond := 0, next := 0, alt := 0, arg := 0, limit := 0 }

/-- Opener o holds the lock open. -/
def unlocked (o : Opener) (s : State) : State := s.setLockOpen (openerNat o) true
/-! ## Words of the sequencer -/

theorem witness_control_words :
    let s := fun o w => run State.reset 0 (progWord 3 o w); let w : BitVec 56 := 0x01_0000_8000_0005#56; let n := s 0 0;
    n.mayIssue 0 (progWord 3 0 0) ∧ n.atStart 0 = n ∧ (after (.ctrlNop 0 .F 0) n).thread 0 = { n.thread 0 with pc := 8 } ∧
    n.sameButThreads (after (.ctrlNop 0 .F 0) n) ∧ after (.ctrlNop 0 .F 1) n = n ∧
    (s 2 w.toNat).mayIssue 0 (progWord 3 2 w.toNat) ∧ lowReserved w.toNat setaReserved = none ∧
    ((after (.ctrlSeta 0 .F w) (s 2 w.toNat)).thread 0).ag.get 0 1 = 0x80000005 ∧
    ((after (.ctrlAdda 0 .F w) ((s 3 w.toNat).setAg 0 1 0x80000005)).thread 0).ag.get 0 1 = 10 ∧
    lowReserved 7 ((2 ^ 53 - 1) * 8) = none ∧ ((after (.ctrlGroup 0 .F 7) (s 5 7)).thread 0).grp = 7 ∧
    lowReserved 8 ((2 ^ 53 - 1) * 8) = some 3 ∧ results (after (.ctrlGroup 0 .F 8) (s 5 8)) = [malformed 3] := by decide +kernel

theorem witness_reserved_word : let s := fun w => run State.reset 3 w; let r := fun w => after (.reservedClassWord 0 .H (BitVec.ofNat 64 w)) (s w);
    let v := 0x1BF1FFE000000000; let m := 0x5600000000010000;
    let p := lay (State.reset.setThread 0 { prog := .pass }) 0 m;
    (s 0x7000000000000000).mayIssue 3 0x7000000000000000 ∧ results (r 0x7000000000000000) = [malformed 60] ∧
    results (r 0x3F00000000000000) = [malformed 56] ∧ results (r 0x3F00000000000010) = [malformed 4] ∧
    results (r 0x4501000000000000) = [malformed 48] ∧ results (r 0x4500000000000000) = [malformed 56] ∧
    reservedVop (bits v 52 6) = true ∧ ((r v).items.live.map Item.comp) = [some (malformed 49)] ∧
    p.mayIssue 0 m ∧ ((after (.reservedClassWord 0 .F (BitVec.ofNat 64 m)) p).items.live.map Item.comp) = [some (malformed 16)] ∧ ((r 0x6300000000000000).items.live.map Item.comp) = [some (malformed 56)] ∧
    after (.reservedClassWord 0 .H 0x3000000000000000) (s 0x3000000000000000) = s 0x3000000000000000 := by decide +kernel

theorem witness_wait : let s := run State.reset 0 (progWord 3 6 1);
    let t := s.accept { id := 0, unit := 0x0100, index := 0, owner := s.ownerOf 0 };
    s.mayIssue 0 (progWord 3 6 1) ∧ lowReserved 1 ((2 ^ 48 - 1) * 256) = none ∧ ((after (.ctrlWait 0 .F 1) s).thread 0).wait = .none ∧
    t.items.live.any (inGroups 0 1) = true ∧ ((after (.ctrlWait 0 .F 1) t).thread 0).wait = .groups 1 := by decide +kernel

theorem witness_loop : let w : BitVec 56 := 0x3_FFFF#56; let s := run State.reset 0 (progWord 3 4 w.toNat);
    s.mayIssue 0 (progWord 3 4 w.toNat) ∧ lowReserved w.toNat (0x7 * 2 ^ 53 + 2 ^ 51 + 0xFFFF * 2 ^ 32) = none ∧ bit w.toNat 52 = false ∧
    ((after (.ctrlLoop 0 .F w) s).thread 0).loops = [{ first := 8, last := 32 - 8, left := 0xFFFF }] := by decide +kernel

theorem witness_loop_corners : let s := fun w => run State.reset 0 (progWord 3 4 w); let l : Loop := { first := 0, last := 4096, left := 2 };
    let full := fun w => (s w).setThread 0 { (s w).thread 0 with loops := [l, l, l, l] };
    let skip : BitVec 56 := 0x2_0000#56; let fromAg : BitVec 56 := 0x17_0000_FFFF_0000#56; let odd : BitVec 56 := 0x1_0002_0001#56;
    let go := fun (w : BitVec 56) => after (.ctrlLoop 0 .F w) (s w.toNat);
    let deep := after (.ctrlLoop 0 .F 0x2_0001) (full 0x2_0001);
    (full 0x2_0001).mayIssue 0 (progWord 3 4 0x2_0001) ∧
    lowReserved fromAg.toNat (0x7 * 2 ^ 53 + 2 ^ 51 + 0xFFFF * 2 ^ 32) = none ∧ (s fromAg.toNat).ag 0 7 = 0 ∧
    ((go 0xFFFF).thread 0).pc = 8 ∧ results (go 0xFFFF) = [malformed 16] ∧ ((go skip).thread 0).pc = 24 ∧ ((go skip).thread 0).loops = [] ∧
    ((go fromAg).thread 0).pc = 8 + 8 * 0xFFFF ∧ results (go odd) = [malformed 32] ∧ ((go odd).thread 0).pc = 24 ∧
    (deep.thread 0).pc = 24 ∧ results deep = [malformed 56] := by decide +kernel

theorem witness_end : let s := run State.reset 0 (progWord 3 1 0);
    let t := s.accept { id := 0, unit := 0x0100, index := 0, owner := s.ownerOf 0 };
    s.mayIssue 0 (progWord 3 1 0) ∧ t.items.live.any (ownedBy 0) = true ∧ ((after (.ctrlEnd 0 .F 0) t).thread 0).wait = .ending ∧
    s.items.live.any (ownedBy 0) = false ∧ ((after (.ctrlEnd 0 .F 0) s).thread 0).prog = .idle ∧
    ((after (.ctrlEnd 0 .F 0) s).thread 0).ended = true := by decide +kernel

/-! ## Tablatures -/

/-- Partition 63, whose tablature is in a state, with more registers. -/
def tab (st : Nat) (l : List (Nat × Nat)) : State := (regs (partRegs 63 ++ [(Reg.stgTabLen 63, 1024)] ++ l)).setTab 63 st

theorem witness_tab_start : let s := tab 0 [(Reg.stgTabCtrl 63, put Fld.stgTabCtrlEntry 1023)];
    s.startBad 63 = false ∧ (after (.tabStart 63) s).tab 63 = 1 ∧
    (after (.tabStart 63) s).fld (Reg.stgTabStatus 63) Fld.stgTabStatusRow = 1023 ∧
    (after (.tabStart 63) (s.setFld (Reg.stgTabTc 63 3) Fld.stgTabTcInit 9)).fld (Reg.stgTabTc 63 3) Fld.stgTabTcCount = 9 ∧
    codes (after (.tabResume 63) s) = [0x0004] ∧
    (tab 1 []).startBad 63 = true ∧ codes (after (.tabStart 63) (tab 1 [])) = [0x0004] := by decide +kernel

theorem witness_tab_resume_stop : let s := (tab 2 [(Reg.stgTabIter 63, 1)]).setPart 63 { row := some row0 };
    s.tab 63 = 2 ∧ 0 < s.fld (Reg.stgTabIter 63) Fld.stgTabIterLeft ∧ (after (.tabResume 63) s).tab 63 = 1 ∧
    ((after (.tabResume 63) s).thread 0).prog = .pass ∧
    ((after (.tabStop 63) (tab 1 [])).part 63).pendingStop = true := by decide +kernel

theorem witness_program_fetch : let s := State.reset.setThread 0 { prog := .fill, pc := sliceSize - 8 };
    s.badByte (firnAddr 0 (sliceSize - 64)) 64 = none ∧
    (((after (.programFetch 0 .F) s).thread 0).lines.map Prod.fst) = [(sliceSize - 8) / 64] := by decide +kernel

theorem witness_row_fetch : let s := (tab 1 []).setPart 63 { fetchDue := true };
    let t := s.store (firnAddr 0 0) (leBytes 32 (1 * 2 ^ 96 + 2 ^ 112));
    let f := s.store (firnAddr 0 0) (leBytes 32 (1 * 2 ^ 96 + 1023 * 2 ^ 144 + 5 * 2 ^ 136));
    rowCode (leNat (t.bytes (firnAddr 0 0) 32)) 1024 0 0 = 0 ∧ ((after (.rowFetch 63) t).thread 0).prog = .pass ∧
    (after (.rowFetch 63) t).tab 63 = 1 ∧
    rowCode (leNat (f.bytes (firnAddr 0 0) 32)) 1024 0 0 = 3 ∧ (after (.rowFetch 63) f).tab 63 = 4 ∧
    codes (after (.rowFetch 63) f) = [0x0104] := by decide +kernel

theorem witness_barrier : let s := (tab 1 [(Reg.stgTabIter 63, 2)]).setPart 63 { row := some row0, phase := .running };
    let t := s.setPart 63 { s.part 63 with pendingStop := true };
    s.atBarrier 63 row0 = true ∧ 1 < s.fld (Reg.stgTabIter 63) Fld.stgTabIterLeft ∧
    (after (.partitionBarrier 63) s).fld (Reg.stgTabIter 63) Fld.stgTabIterLeft = 1 ∧
    (after (.partitionBarrier 63) t).tab 63 = 2 ∧ ((after (.partitionBarrier 63) t).part 63).pendingStop = false := by decide +kernel

theorem witness_overruns :
    let f := (tab 1 [(Reg.stgTabFill 63, put Fld.stgTabFillLimit 5)]).setPart 63 { phase := .filling };
    let i := (tab 1 []).setPart 63 { row := some { row0 with limit := 5 }, phase := .running };
    let q := (regs [(Reg.stgCtxCtrl 255, put Fld.stgCtxCtrlWaitLimit 5)]).setQueue 255 3
      { ops := [{ kind := 3, item := 0, key := 0, d := 0, len := 0, fmt := 0, flags := 0 }] };
    codes (after (.fillOverrun 63 6) f) = [0x0105] ∧ codes (after (.fillOverrun 63 5) f) = [] ∧
    codes (after (.iterationOverrun 63 6) i) = [0x0107] ∧ codes (after (.iterationOverrun 63 5) i) = [] ∧
    codes (after (.stageQueueStall 255 3 6) q) = [0x0103] ∧ codes (after (.stageQueueStall 255 3 5) q) = [] := by decide +kernel

/-! ## Bubbles and COMMIT -/

/-- The row of partition 63 that early forwards and layer updates act in. -/
def earlyRow : Row := { row0 with uEn := true, wait := 1, fVst := 3, uVst := 3 }

theorem witness_early_forward :
    let s := ((tab 1 [(Reg.stgTabWaitcfg 63, 64)]).setPart 63 { row := some earlyRow, phase := .running }).setQueue 255 0
      { slots := [{ ix := 0 }] };
    let s := (s.setThread 0 { ended := true }).setFwdCredit 63 3 63;
    s.allWait 63 earlyRow = true ∧ s.fwdCredit 63 3 = 63 ∧ s.slotWaiting 255 0 = true ∧ (s.freeEntry 255).isSome = true ∧
    s.partClusters 63 = [0] ∧ (after (.earlyForward 63) s).fwdCredit 63 3 = 64 ∧
    ((after (.earlyForward 63) s).thread 0).prog = .early := by decide +kernel

theorem witness_layer_update :
    let s := ((tab 1 [(Reg.stgTabStep 63, 9)]).setPart 63 { row := some earlyRow, phase := .running, ready := [{ layer := 1023 }] });
    s.partOf 0 = some 63 ∧ s.isFailed 63 9 = false ∧ ((after (.layerUpdateRun 0) s).thread 2).prog = .pass ∧
    ((after (.layerUpdateRun 0) s).thread 2).ag.get 0 0 = 1023 ∧ ((after (.layerUpdateRun 0) s).thread 2).tag.step = 9 ∧
    ((after (.layerUpdateRun 0) s).part 63).ready = [] := by decide +kernel

theorem witness_fill :
    let s := (tab 1 [(Reg.stgTabFillWin 63, put Fld.stgTabFillWinSize 1 + 63)]).store (firnAddr 0 (63 * 0x10000)) (leBytes 8 (1023 + 5 * 2 ^ 32));
    let d := s.setPart 63 { row := some { row0 with wait := 3 }, phase := .fillDue };
    let e := s.setPart 63 { row := some { row0 with wait := 3 }, phase := .filling };
    s.fillRing 63 = some (1023, 5) ∧ ((after (.fillSwitch 63) d).part 63).phase = .filling ∧
    ((after (.fillSwitch 63) d).thread 0).prog = .fill ∧
    (after (.fillProgramEnd 63) e).fillRing 63 = some (0, 5) ∧ (after (.fillProgramEnd 63) e).reg (Reg.stgTabFills 63) = 1 ∧
    ((after (.fillProgramEnd 63) e).part 63).phase = .running := by decide +kernel

/-- Layer-table entry 0 of cluster 0: set 0, trigger on SAT, one widened body at word 16, resume at word 32. -/
def ltab : State :=
  (regs (partRegs 63 ++ [(Reg.cirNuLtab 0, put Fld.cirNuLtabEntries 1), (Reg.cirNuCtrl 0, put Fld.cirNuCtrlReplay 1),
    (Reg.cirRimeSat 0 0, 3)])).store (firnAddr 0 0) (leBytes 32 (1 + 16 * 2 ^ 96 + 32 * 2 ^ 160 + 2 ^ 192 + 2 ^ 193 + 2 ^ 195))

theorem witness_commit : let s := lay (ltab.setThread 1 { prog := .pass, pc := 8 }) 1 (progWord 3 7 0);
    let t := after (.commit 0 .B 0) s;
    let u := after (.commitExchangeEnd 63 .B) t;
    s.mayIssue 1 (progWord 3 7 0) ∧ (t.thread 1).wait = .commit 0 0 ∧ ((t.part 63).joined 1).length = 1 ∧ (t.item 0).isSome = true ∧
    (∀ x ∈ t.snps, 0 ∉ x.2.vends) ∧ (u.thread 1).wait = .none ∧ (u.thread 1).level = 1 ∧ (u.thread 1).pc = 128 ∧
    (u.item 0).bind Item.comp = some { detail := 0x101 } ∧ ((u.part 63).joined 1) = [] ∧ codes u = [0x0202] := by decide +kernel

theorem witness_layerdone : let s := run (regs (partRegs 63)) 2 (progWord 3 8 0xFFFF);
    s.mayIssue 2 (progWord 3 8 0xFFFF) ∧ s.partOf 0 = some 63 ∧ s.partClusters 63 = [0] ∧ lowReserved 0xFFFF ((2 ^ 40 - 1) * 2 ^ 16) = none ∧
    ((after (.layerdone 0 .U 0xFFFF) s).part 63).ready = [{ layer := 0xFFFF }] := by decide +kernel

theorem witness_clears : let s := regs (partRegs 63 ++ [(Reg.cirRimeConv 0 63, 7)]);
    let b := s.setPart 63 { joinF := [{ g := 0, layer := 0, item := 0, entry := none, bad := none, snap := [] }] };
    s.inExchange 0 = false ∧
    b.inExchange 0 = true ∧ (after (.nuClrpend 0) b).clrpend = [0] ∧
    (after (.nuClrpend 0) b).reg (Reg.cirRimeConv 0 63) = 7 := by decide +kernel

/-! ## Stage queues -/

/-- Partition 63 runs a pass row on virtual stage 3; thread k runs the pass program, and context 255 is in a state. -/
def staged (k st : Nat) (l : List (Nat × Nat)) : State :=
  (((regs (partRegs 63 ++ [(Reg.stgTabLen 63, 1024), (Reg.stgCtxStatus 255, st)] ++ l)).setTab 63 1).setPart 63
    { row := some { row0 with fVst := 3, bVst := 3 }, phase := .running }).setThread k { prog := .pass, pc := 8 }

theorem witness_queue_words : let s := staged 0 1 [(Reg.stgqCfg 255 0, 1), (Reg.stgqCfg 255 1, 1)];
    let t := staged 0 2 [(Reg.stgqCfg 255 0, 1), (Reg.stgqCfg 255 1, 1), (Reg.stgqSlot 255 1, 1)];
    let r := t.setQueue 255 0 { slots := [{ ix := 5, taken := true }, { ix := 6 }], released := 0xFFFFFFFF };
    let c := t.setQueue 255 1 { claimed := [(0, {})] };
    let o : BitVec 56 := 0x40_0000_0000_0000#56; let n : BitVec 56 := o + 64#56;
    let at_ := fun (s : State) k (w : BitVec 56) => lay s 0 (progWord 4 k w.toNat);
    (at_ s 0 0).mayIssue 0 (progWord 4 0 0) ∧ s.ctxOf 0 = some 255 ∧ s.pairOk 0 0 0 = true ∧ s.pairOk 0 1 0 = true ∧ s.pairOk 0 2 1 = true ∧
    s.pairOk 0 3 1 = true ∧ s.ctxState 255 = 1 ∧ ((after (.take 0 .F 0) (at_ s 0 0)).thread 0).wait = .item 0 ∧
    ((after (.claim 0 .F o) (at_ s 2 o)).queue 255 1).ops.length = 1 ∧ ((after (.send 0 .F o) (at_ s 3 o)).queue 255 1).ops.length = 1 ∧
    ((after (.release 0 .F 0) (at_ s 1 0)).queue 255 0).ops.length = 1 ∧
    t.ctxDead 255 = false ∧ t.ctxState 255 = 2 ∧ ((after (.take 0 .F 0) (at_ t 0 0)).queue 255 0).ops.length = 1 ∧
    ((after (.release 0 .F 0) (at_ r 1 0)).queue 255 0).released = 0 ∧ ((after (.release 0 .F 0) (at_ r 1 0)).queue 255 0).slots = [{ ix := 6 }] ∧
    64 ≤ c.qBytes 255 1 ∧ ((after (.send 0 .F n) (at_ c 3 n)).queue 255 1).ops.length = 1 ∧
    (((after (.send 0 .F o) (at_ c 3 o)).item 0).bind Item.comp) = some { status := .empty } := by decide +kernel

theorem witness_unpaired : let s := staged 0 2 [(Reg.stgqCfg 255 0, 1)]; let w : BitVec 56 := 0xC0_0000_0000_0000#56;
    let x := lay s 0 (progWord 4 0 w.toNat);
    x.mayIssue 0 (progWord 4 0 w.toNat) ∧ s.pairOk 0 0 3 = false ∧ s.pairOk 0 1 1 = false ∧ s.pairOk 0 2 0 = false ∧ s.pairOk 0 3 2 = false ∧
    results (after (.take 0 .F w) x) = [malformed 54] ∧
    (after (.take 0 .F 0) (lay s 0 (progWord 4 0 0))).items.log = [] := by decide +kernel

/-- A queue operation of kind k that thread 0 waits for as item 7. -/
def op7 (k : Nat) : QOp := { kind := k, item := 7, key := 0, d := 7, len := 64, fmt := 0, flags := 0 }

/-- A context whose inbound queue q holds a slot with header h, and whose TAKE waits. -/
def taking (q : Nat) (h : Nat) (l : List (Nat × Nat)) : State :=
  ((((staged 0 2 ([(Reg.stgqCfg 255 q, 1), (Reg.stgqSlot 255 q, 1), (Reg.stgqFirn 255 q, 1), (Reg.stgCtxStash 255, put Fld.stgCtxStashEntries 63)] ++
    l)).setQueue 255 q { slots := [{ ix := 0 }], ops := [op7 0] }).setItems { next := 7 }).accept { id := 0, unit := 0x0031, index := 255, owner := .thread 0 0 }).store
      firnBase (leBytes 64 h)

theorem witness_take_gradient :
    let s := (taking 2 (5 + 6 * 2 ^ 32 + 2 ^ 64 + 2 ^ 80) []).setStash 255 63 { used := true, tag := { mb := 5, step := 6, ver := 1 } };
    badField 2 (parseSlotHdr (s.slotHdr 255 2 0)) = none ∧ s.badByte (s.hdrAddr 255 2 0) 64 = none ∧ s.ctxRuns 255 = true ∧
    ((after (.takeComplete 255 2) s).thread 0).tag = { mb := 5, step := 6, ver := 1 } ∧
    ((after (.takeComplete 255 2) s).thread 0).stash = some (255, 63) ∧
    ((after (.takeComplete 255 2) s).item 7).map Item.tag = some { mb := 5, step := 6, ver := 1 } ∧
    ((after (.takeComplete 255 2) s).thread 0).ag.get 0 7 = 4096 := by decide +kernel

theorem witness_take_activation : let s := taking 0 (5 + 6 * 2 ^ 32 + 0xFFFF * 2 ^ 64) [(Reg.snpSlot 255 7, 3 + 0xFFFF * 16)];
    badField 0 (parseSlotHdr (s.slotHdr 255 0 0)) = none ∧ s.snpFind 255 0xFFFF = some 7 ∧ s.freeEntry 255 = some 0 ∧ s.qKind 255 0 = 1 ∧
    (after (.takeComplete 255 0) s).stashAt 255 0 =
      { used := true, order := 7, tag := { mb := 5, step := 6, ver := 0xFFFF } } ∧
    (after (.takeComplete 255 0) s).pinsOf 255 7 = 1 := by decide +kernel

theorem witness_take_bad_slot : let s := taking 0 (2 ^ 511) [];
    badField 0 (parseSlotHdr (s.slotHdr 255 0 0)) = some 288 ∧ codes (after (.takeComplete 255 0) s) = [0x0100] ∧
    ((after (.takeComplete 255 0) s).queue 255 0).slots = [] ∧ ((after (.takeComplete 255 0) s).queue 255 0).released = 1 := by decide +kernel

theorem witness_claim :
    let s := ((staged 0 2 [(Reg.stgqCfg 255 1, 1 + put Fld.stgqCfgDepth 63), (Reg.stgqSlot 255 1, 1), (Reg.stgqFirn 255 1, 1)]).setThread 0
      { prog := .pass, tag := { mb := 5 } }).setQueue 255 1 { ops := [op7 2], nextClaim := 63 };
    (s.queue 255 1).outFree 63 = true ∧ s.ctxRuns 255 = true ∧ ((after (.claimComplete 255 1) s).queue 255 1).nextClaim = 0 ∧
    ((after (.claimComplete 255 1) s).thread 0).ag.get 0 7 = 64 * 4096 ∧
    (after (.claimComplete 255 1) s).bytes (firnBase + 63 * 64) 1 = [5] := by decide +kernel

theorem witness_send :
    let f : Flight := { slot := 3, len := 64, seq := 0, item := 7, result := some {} };
    let s := (staged 0 2 [(Reg.stgqCfg 255 1, 1), (Reg.stgqSlot 255 1, 1), (Reg.stgCtxStatus 0, 2)]).setQueue 255 1
      { ops := [op7 3], claimed := [(63, {})], peerCap := 1 };
    let n := s.setQueue 255 1 { s.queue 255 1 with peerCap := 0 };
    let d := s.setQueue 255 1 { flights := [f] };
    s.sendCheck 255 1 (op7 3) = none ∧ s.hasCredit 255 1 = true ∧ s.ctxDead (s.peerCtx 255 1) = false ∧
    ((after (.sendAdmit 255 1) s).queue 255 1).sent = 1 ∧ n.hasCredit 255 1 = false ∧ after (.sendAdmit 255 1) n = n ∧
    ((after (.sendComplete 255 1) d).queue 255 1).flights = [] := by decide +kernel

theorem witness_send_host :
    let b : PostBuf := ⟨hostBase 0 + 4096, 8192, 9⟩; let l := hostBase 0 + 4096 + 64;
    let s := (((staged 0 2 [(Reg.stgqCfg 255 1, 3), (Reg.stgqSlot 255 1, 1), (Reg.stgqFirn 255 1, 1), (Reg.plhStatus 0, 2)]).setQueue 255 1
      { ops := [{ op7 3 with len := 2 }], claimed := [(0, { mb := 5 })], posts := [b] }).store (firnBase + 4096) [1, 2]);
    let t := after (.sendAdmit 255 1) s;
    s.sendCheck 255 1 { op7 3 with len := 2 } = none ∧ s.ctxRuns 255 = true ∧ s.qKind 255 1 = 3 ∧ s.payAddr 255 1 0 = firnBase + 4096 ∧
    s.hostHeld b.addr = false ∧ s.hostGone b.addr = false ∧ (t.queue 255 1).sent = 1 ∧ (t.queue 255 1).posts = [] ∧
    ((t.queue 255 1).flights.map Flight.buf) = [some b] ∧ t.bytes l 2 = [1, 2] ∧ t.bytes (hostBase 0 + 4096) 1 = [5] ∧
    ((t.layer 32).txq.map fun g => (g.vc, g.typ)) = [(0, 4), (0, 4)] ∧ (after (.sendComplete 255 1) t) = t := by decide +kernel

theorem witness_fill_back :
    let s := (staged 0 2 [(Reg.stgqCfg 255 0, 1 + put Fld.stgqCfgSpillEn 1), (Reg.stgqSlot 255 0, 1), (Reg.stgqFirn 255 0, 1),
      (Reg.stgqSpillDepth 255 0, 2)]).setQueue 255 0 { slots := [{ ix := 0, resident := false }], spill := [1], filling := true };
    let s := s.store (s.spillHdr 255 0 1) (leBytes 64 (9 + 64 * 2 ^ 160));
    s.badByte (s.spillHdr 255 0 1) 64 = none ∧ s.badByte (s.spillPay 255 0 1) 64 = none ∧
    ((after (.fillBackComplete 255 0) s).queue 255 0).slots = [{ ix := 0 }] ∧ ((after (.fillBackComplete 255 0) s).queue 255 0).spill = [] ∧
    (after (.fillBackComplete 255 0) s).bytes firnBase 1 = [9] := by decide +kernel

theorem witness_binding :
    let s := regs (partRegs 0 ++ [(Reg.stgCtxStatus 255, 1), (Reg.stgCtxStatus 3, 1), (Reg.stgqCfg 255 1, 1), (Reg.stgqCfg 3 0, 1 + put Fld.stgqCfgDepth 63),
      (Reg.stgqPeer 255 1, 3), (Reg.stgqSlot 255 1, 5), (Reg.stgqSlot 3 0, 5)]);
    let r := regs [(Reg.stgCtxStatus 255, 1), (Reg.stgqCfg 255 3, 2), (Reg.stgqSlot 255 3, 5)];
    let i := regs [(Reg.stgCtxStatus 255, 1 + put Fld.stgCtxStatusBound 4), (Reg.stgqCfg 255 2, 2)];
    s.answers 3 0 1 = true ∧ s.peerCtx 255 1 = 3 ∧ s.isBound 255 1 = false ∧ (after (.bindRequest 255 1) s).isBound 255 1 = true ∧
    (after (.bindRequest 255 1) s).isBound 3 0 = true ∧ ((after (.bindRequest 255 1) s).queue 255 1).peerCap = 64 ∧
    (after (.bindRequest 255 1) s).ctxState 3 = 2 ∧
    after (.bindRequest 255 3) r = r.send (.bindRequest 255 3) ∧ (after (.bindAnswerReceive 255 3 9 5) r).isBound 255 3 = true ∧
    (after (.bindAnswerReceive 255 3 9 4) r).fld (Reg.stgCtxStatus 255) Fld.stgCtxStatusCfgErr = 5 ∧
    i.answers 255 2 2 = true ∧ i.isBound 255 2 = true ∧ (after (.bindRequestReceive 255 2) i).out.length = 1 := by decide +kernel

/-- A REMOTE inbound queue of one Firn slot and one spill slot. -/
def remoteIn (x : Queue) : State :=
  (regs [(Reg.stgCtxStatus 255, 2), (Reg.stgqCfg 255 2, 2 + put Fld.stgqCfgSpillEn 1), (Reg.stgqSpillDepth 255 2, 1),
    (Reg.stgqSlot 255 2, 1), (Reg.stgqFirn 255 2, 1), (Reg.stgqSpillBase 255 2, 16)]).setQueue 255 2 x

theorem witness_arrival :
    let h := fun n => leBytes 64 (8 + n * 2 ^ 256);
    let c := fun x n => after (.slotArrival 255 2 (.fromFabric (h n) [3])) (remoteIn x);
    let one : Queue := { slots := [{ ix := 0 }], arrived := 1 };
    let two : Queue := { slots := [{ ix := 0 }], spill := [0], arrived := 2 };
    let back : Queue := { slots := [{ ix := 0, resident := false }], spill := [0], filling := true, arrived := 1 };
    (h 1).length = 64 ∧ (remoteIn {}).qCap 255 2 = 2 ∧ field (h 1) 32 4 = 1 ∧ bit (field (h 1) 11 1) 1 = false ∧
    ((c {} 0).queue 255 2).slots = [{ ix := 0 }] ∧ (c {} 0).bytes (firnBase + 4096) 1 = [3] ∧ codes (c {} 0) = [] ∧
    ((c one 1).queue 255 2).spill = [0] ∧ (c one 1).bytes (16 * 4096 + 65536) 1 = [3] ∧ codes (c one 1) = [] ∧
    ((c two 2).queue 255 2) = { two with reported := 0 } ∧ codes (c two 2) = [0x0101] ∧
    ((c back 1).queue 255 2).slots = [{ ix := 0 }] ∧ ((c back 1).queue 255 2).spill = [0] ∧ ((c back 1).queue 255 2).arrived = 2 ∧
    (c back 1).bytes (16 * 4096 + 65536) 1 = [3] := by decide +kernel

theorem witness_local_arrival :
    let s := (staged 0 2 [(Reg.stgCtxStatus 0, 2), (Reg.stgqCfg 0 0, 1), (Reg.stgqSlot 0 0, 1), (Reg.stgqHdr 0 0, 2), (Reg.stgqFirn 0 0, 3),
      (Reg.stgqCfg 255 1, 1)]).setQueue 255 1 { flights := [{ slot := 0, len := 64, seq := 0, item := 7 }] };
    s.ctxDead 0 = false ∧ s.peerCtx 255 1 = 0 ∧ ((after (.slotArrival 0 0 (.fromLocal 255 1)) s).queue 0 0).slots = [{ ix := 0 }] ∧
    ((after (.slotArrival 0 0 (.fromLocal 255 1)) s).queue 255 1).flights =
      [{ slot := 0, len := 64, seq := 0, item := 7, result := some {} }] ∧
    ((after (.slotArrival 0 0 (.fromLocal 255 1)) (s.setQueue 0 0 { slots := [{ ix := 0 }] })).queue 255 1).flights =
      [{ slot := 0, len := 64, seq := 0, item := 7, dropped := true }] := by decide +kernel

theorem witness_feed_arrival :
    let s := (regs [(Reg.stgCtxStatus 255, 2), (Reg.stgqCfg 255 0, 3), (Reg.stgqSlot 255 0, 1), (Reg.stgqFirn 255 0, 1), (Reg.plhStatus 3, 2)]).setQueue 255 0
      { feeds := [{ addr := hostBase 3, len := 64, mb := 77, flags := 0, fmt := 0, item := 7, started := true }] };
    s.ctxDead 255 = false ∧ s.qKind 255 0 = 3 ∧ ((after (.slotArrival 255 0 .fromFeed) s).queue 255 0).feeds = [] ∧
    (parseSlotHdr ((after (.slotArrival 255 0 .fromFeed) s).slotHdr 255 0 0)).tag.mb = 77 := by decide +kernel

theorem witness_feed_admit :
    let f : Feed := { addr := hostBase 3, len := 64, mb := 77, flags := 0, fmt := 0, item := 7 };
    let s := fun st => ((regs [(Reg.stgCtxStatus 255, 2), (Reg.stgqCfg 255 0, 3), (Reg.plhStatus 3, st)]).setItems { next := 7 }).accept
      { id := 0, unit := 0x0010, index := 0, owner := .device } |>.setQueue 255 0 { feeds := [f, { f with item := 8 }], fed := 0xFFFFFFFF };
    let u := after (.feedAdmit 255 0) (s 2);
    (s 2).ctxRuns 255 = true ∧ (s 2).qCap 255 0 = 1 ∧ nextFeed [f, { f with item := 8 }] = some f ∧
    (((s 2).settleFeeds 255 0).queue 255 0).feeds = [{ f with ready := true }, { f with item := 8 }] ∧
    ((u.queue 255 0).feeds.map fun x => (x.item, x.started, x.seq)) = [(7, true, 0xFFFFFFFF), (8, false, 0)] ∧
    (u.queue 255 0).fed = 0 ∧ (u.port 3).reads.length = 1 ∧ u.out = [.readReq 3 0 0 64] ∧
    after (.feedAdmit 255 0) (s 3) = (s 3).settleFeeds 255 0 ∧ (s 3).hostHeld (hostBase 3) = true ∧ (s 0).hostGone (hostBase 3) = true ∧
    ((after (.feedAdmit 255 0) (s 0)).item 7).bind Item.comp = some (addressFault (hostBase 3)) := by decide +kernel

theorem witness_credit : let o := regs [(Reg.stgqCfg 255 3, 2)];
    let i := remoteIn { released := 0x10001 };
    ((after (.creditRecordReceive 255 3 0xFFFF) o).queue 255 3).seen = 0xFFFF ∧ (i.queue 255 2).reported = 0 ∧
    ((after (.creditRecordRefresh 255 2) i).queue 255 2).reported = 1 ∧ (after (.creditRecordRefresh 255 2) i).fab.nextXid = 1 := by
  decide +kernel

theorem witness_contexts :
    let l := partRegs 0 ++ [(Reg.stgCtxStash 0, 0), (Reg.stgCtxStashPages 0, 1)];
    let s := regs l;
    let q := regs (l ++ [(Reg.stgqCfg 0 1, 2), (Reg.stgqSlot 0 1, 1)]);
    let e := regs (l ++ [(Reg.stgCtxStashPages 0, 0)]);
    let st := fun n => (regs [(Reg.stgCtxStatus 0, n)]).setQueue 0 0 { released := 5 };
    s.ctxState 0 = 0 ∧ s.ctxCfgErr 0 = [] ∧ (after (.ctxEnable 0) s).ctxState 0 = 2 ∧ q.ctxCfgErr 0 = [] ∧
    (after (.ctxEnable 0) q).ctxState 0 = 1 ∧ (after (.ctxEnable 0) q).fld (Reg.stgCtxCtrl 0) Fld.stgCtxCtrlEnable = 1 ∧
    e.ctxCfgErr 0 = [1] ∧ (after (.ctxEnable 0) e).fld (Reg.stgCtxStatus 0) Fld.stgCtxStatusCfgErr = 1 ∧
    (after (.ctxFinish 0) (st 2)).ctxState 0 = 3 ∧ (st 3).drained 0 = true ∧ (after (.ctxDrained 0) (st 3)).ctxState 0 = 4 ∧
    (after (.ctxDisable 0) (st 4)).ctxState 0 = 0 ∧ (after (.ctxDisable 0) (st 5)).queue 0 0 = {} := by decide +kernel

/-! ## Copies, items and memory -/

/-- Cluster 0, of partition 63, with a copy descriptor at its slice offset 1024: 64 bytes from byte 0 to byte 4096. -/
def copyDesc : Bytes := leBytes 32 (firnBase + (firnBase + 4096) * 2 ^ 64 + 64 * 2 ^ 128 + 2 ^ 160)

theorem witness_copy_word : let w : BitVec 60 := 32 + 2 ^ 32; let s := (run (regs (partRegs 63)) 0 (2 * 2 ^ 60 + w.toNat)).store (firnAddr 0 1024) copyDesc;
    let t := after (.copyWord 0 .F w) s;
    s.mayIssue 0 (2 * 2 ^ 60 + w.toNat) ∧ s.badByte (firnAddr 0 1024) 32 = none ∧ (t.chan 0 0).queue = [{ item := 0, desc := copyDesc, job := some 0 }] ∧
    (t.thread 0).wait = .none ∧
    ((after (.copyReadReturn 0 0 0) (after (.copyReadIssue 0 0) (after (.copyDescriptorStart 0 0) t))).item 0).bind Item.comp =
      some { count := 64 } := by decide +kernel

theorem witness_copy_descriptor : let d : CopyDesc := { item := 7, desc := copyDesc, job := some 0 };
    let b : CopyDesc := { d with desc := copyDesc.set 31 1 };
    let s := (regs (partRegs 63)).setChan 0 7 { queue := [d] };
    let h := (regs []).setChan 515 7 { queue := [{ b with desc := leBytes 32 (2 ^ 59) }] };
    descFault copyDesc = none ∧ (parseDesc copyDesc).after = false ∧ (parseDesc copyDesc).list = none ∧
    s.rowsFault (some 0) (parseDesc copyDesc) = none ∧ s.spansMeet (parseDesc copyDesc) = false ∧
    (((after (.copyDescriptorStart 0 7) s).chan 0 7).queue.map fun d => d.reqs.length) = [1] ∧
    descFault (leBytes 32 (2 ^ 59)) = some 59 ∧ ((after (.copyDescriptorStart 515 7) h).chan 515 7).queue = [] := by decide +kernel

/-- A channel with a held read and with an issued one. -/
def reading (st : ReqState) (rd : Option (Nat × Nat)) : State :=
  (regs [(Reg.cirCeCfg 0, put Fld.cirCeCfgTmo 1)]).setChan 0 7
    { queue := [{ item := 7, desc := copyDesc, job := none, started := true, reqs := [{ src := firnBase, dst := firnBase + 4096, len := 64, st, rd }] }] }

theorem witness_copy_reads : let s := reading .held none; let i := reading .issued (some (7, 0));
    (s.chooseRead 0 7).isSome = true ∧ s.slotsUsed 0 7 = 0 ∧ s.hostHeld firnBase = false ∧ s.hostGone firnBase = false ∧
    ((after (.copyReadIssue 0 7) s).chan 0 7).reads = 1 ∧ i.issuedRead 0 7 0 = some (7, 0) ∧
    ((after (.copyReadReturn 0 7 0) i).chan 0 7).queue = [] ∧ ((after (.copyReadTimeout 0 7 0) i).chan 0 7).prev = some .timeout := by
  decide +kernel

theorem witness_retire :
    let s := (State.reset.accept { id := 0, unit := 0x0031, index := 0, owner := .thread 2047 0, comp := some {} }).setThread 2047
      { prog := .pass, wait := .item 0 };
    (s.item 0).bind Item.comp = some {} ∧ (s.item 0).map s.mayRetire = some true ∧ ((after (.itemRetire 0) s).thread 2047).wait = .none ∧
    (after (.itemRetire 0) s).items.live = [] ∧ (after (.itemRetire 0) s).items.log.length = 1 := by decide +kernel

theorem witness_firn_scrub : let s := regs [(Reg.cirFpScrub 511, put Fld.cirFpScrubPeriod 3)]; let u := after (.firnScrub 511 0x1FFFF ⟨3, .uncorrectable⟩) s;
    (after (.firnScrub 511 0x1FFFF ⟨0, .corrected⟩) s).reg (Reg.cirFpCe 511) = 1 ∧ after (.firnScrub 511 0 ⟨0, .clean⟩) s = s ∧
    let c := s.setMem { s.mem with ce := [firnAddr 511 8] }; let v := after (.firnScrub 511 0 ⟨1, .clean⟩) c;
    v.mem.ce = [] ∧ v.reg (Reg.cirFpCe 511) = 1 ∧ u.mem.ue = [firnAddr 511 (sliceSize - 8)] ∧ codes u = [0x0301] ∧ u.fld (Reg.cirFpErraddr 511) Fld.cirFpErraddrValid = 1 ∧
    codes (after (.scrubOverrun 511) s) = [0x0300] := by decide +kernel

theorem witness_hbm :
    let w : WinReq := { addr := 2 ^ 37 - 64, len := 64, write := some (List.replicate 64 9), fromEngine := false, time := 0 };
    let s := State.reset.setStack 7 { window := [w] };
    let r := State.reset.setStack 7 { window := [{ w with write := none, data := [5] }] };
    let full := State.reset.setStack 7 { window := List.replicate 256 w };
    let q : HbmReq := { fromEngine := true, addr := 2 ^ 37 - 1, len := 1, write := none };
    let e := after (.hbmScrub 7 0x7FFFFFFF .uncorrectable) State.reset; let o := after (.hbmRequestServe 7 0 .clean) r;
    ((after (.hbmRequestAccept 7 q) s).stack 7).window.length = 2 ∧
    ((after (.hbmRequestAccept 7 q) full).stack 7).waiting.length = 1 ∧
    (s.stack 7).next 0 0 = some (0, w) ∧ ((after (.hbmRequestServe 7 0 .clean) s).stack 7).window = [] ∧
    (after (.hbmRequestServe 7 0 .clean) s).bytes (s.hbmAddr 7 (2 ^ 37 - 1)) 1 = [9] ∧
    (o.stack 7).hit (2 ^ 37 - 64) = true ∧ o.out = [.hbmRead 7 (2 ^ 37 - 64) [5]] ∧
    ((after (.hbmRefresh 7 15 63) o).stack 7).hit (2 ^ 37 - 64) = false ∧
    ((after (.pageIdleClose 7 15 63) o).stack 7).hit (2 ^ 37 - 64) = false ∧
    ((after (.hbmScrub 7 0x7FFFFFFF .corrected) State.reset).stack 7).ces.get 0 (2 ^ 26 - 1) = 1 ∧
    after (.hbmScrub 7 0x7FFFFFFF .uncorrectable) s = s ∧ e.mem.ue = [s.hbmAddr 7 (2 ^ 37 - 64)] ∧
    ((e.stack 7).ret.get {} 0) = { page := 2 ^ 26 - 1, state := 2 } := by decide +kernel

theorem witness_retirement :
    let w : WinReq := { addr := 0, len := 64, write := none, fromEngine := false, time := 0 };
    let s := fun l => unlocked .bridge (State.reset.setStack 7 { ret := [(511, { page := 3, state := 1 })], window := l });
    let t := after (.retConfirm .bridge ⟨7, 511⟩) (s []); let k := (s []).setLockOpen (openerNat .bridge) false;
    let v := after .retirementTableSave t;
    (s []).mayAccess (openerNat .bridge) (Reg.morRetCtrl 7) true = true ∧ (s []).regGone (Reg.morRetCtrl 7) = false ∧
    (s []).wakeByAccess (Reg.morRetCtrl 7) = s [] ∧ (s []).lockOpen (openerNat .bridge) = true ∧
    (t.stack 7).ret.get {} 511 = { page := 3, state := 2 } ∧
    ((after (.retConfirm .bridge ⟨7, 511⟩) (s [w])).stack 7).confirm = [(511, [w])] ∧
    codes (after (.retConfirm .bridge ⟨7, 510⟩) (s [])) = [0x0004] ∧ codes (after (.retConfirm .bridge ⟨7, 511⟩) k) = [0x0006] ∧
    (t.stack 7).retDirty = true ∧ v.retSave = { slot := 0, ver := 1 } ∧ (v.stack 7).retDirty = false ∧ t.flash.wf = true ∧
    t.retBody.length + 128 ≤ 0x10000 ∧ v.flashBytes (imageSlot 7 0) 16 = (retImage 1 t.retBody).take 16 := by decide +kernel

/-! ## Matrix cores -/

/-- Cluster 0, of partition 63, with core 7 enabled and leading itself; INT8 3 at slice byte 0x1000 and 2 at 0x2000. -/
def matrix : State :=
  let s := (run (regs (partRegs 63 ++ [(Reg.cirMcCtrl 0 7, 1), (Reg.cirMcGang 0 7, 7)])) 1 0)
  (s.store (firnAddr 0 0x1000) [3]).store (firnAddr 0 0x2000) [2]

/-- Thread 1 issues a command that stands as word w of class c and opcode o at its pc. -/
def does (c o : Nat) (w : BitVec 56) (i : Instr) (s : State) : State := after i (lay s 1 (progWord c o w.toNat))

/-- An operand word of N = 1 or L = 1 with bit fields set. -/
def bitsAt (l : List (Nat × Nat)) : BitVec 56 := BitVec.ofNat 56 (l.foldl (fun x e => x + e.2 * 2 ^ e.1) 0)

/-- MLOAD, MSTREAM, MCLR and MEMIT words for bank 1 and accumulator 63, in INT8; MEMIT writes FP32. -/
def mloadW : BitVec 56 := bitsAt [(0, 0x1000), (31, 1), (41, 1), (52, 4), (55, 1)]
def mstreamW : BitVec 56 := bitsAt [(0, 0x80), (25, 1), (35, 1), (42, 63), (52, 4), (55, 1)]
def mclrW : BitVec 56 := bitsAt [(35, 1), (42, 63)]
def memitW : BitVec 56 := bitsAt [(0, 0x600), (28, 1), (35, 1), (42, 63)]

theorem witness_matrix_issue : let s := matrix;
    let h := lay (s.setThread 1 { s.thread 1 with prog := .handler }) 1 (progWord 0 3 0);
    let n := run State.reset 1 (progWord 0 0 0);
    s.mayIssue 1 (progWord 0 0 0) ∧ (upFrom 0 8).filter s.coreOn = [7] ∧ s.members 7 = [] ∧ s.coreLeader 7 = 7 ∧
    s.gstate 7 = 0 ∧ h.mayIssue 1 (progWord 0 3 0) ∧ results (after (.mclr 0 .B 0) h) = [malformed 60] ∧
    n.mayIssue 1 (progWord 0 0 0) ∧ (upFrom 0 8).filter n.coreOn = [] ∧
    results (after (.mcfg 0 .B 0) n) = [{ status := .empty }] ∧
    ((after (.mcfg 0 .B 0) s).items.live.map Item.parts) = [1] := by decide +kernel

theorem witness_mcfg_mload : let s := matrix;
    let t := does 0 1 mloadW (.mload 0 .B mloadW) s;
    (lay s 1 (progWord 0 1 mloadW.toNat)).mayIssue 1 (progWord 0 1 mloadW.toNat) ∧
    mcfgFault 16 = none ∧ ((does 0 0 16 (.mcfg 0 .B 16) s).core 7).loadStride = 16 ∧
    mloadFault mloadW.toNat = none ∧ s.lanesFault (s.threadJob 1) [0x1000] 1 = none ∧ s.badByte (firnBase + 0x1000) 1 = none ∧
    (t.reg (Reg.cirMcBank 0 7 1)).toNat = 1 + 4 * 2 ^ 7 + 2 ^ 10 + 2 ^ 20 ∧ (t.core 7).byte 512 = 3 := by decide +kernel

theorem witness_mstream_memit : let s := does 0 1 mloadW (.mload 0 .B mloadW) matrix;
    let t := does 0 2 mstreamW (.mstream 0 .B mstreamW) s;
    let u := does 0 4 memitW (.memit 0 .B memitW) t;
    (lay s 1 (progWord 0 2 mstreamW.toNat)).mayIssue 1 (progWord 0 2 mstreamW.toNat) ∧
    s.mstreamFault 7 mstreamW.toNat = none ∧ s.rangeFault (s.threadJob 1) (firnBase + 0x2000) 16 = none ∧
    s.fld (Reg.cirMcBank 0 7 1) Fld.cirMcBankValid = 1 ∧ (t.core 7).accOf 63 = 0x40C00000#32 ∧
    (lay t 1 (progWord 0 4 memitW.toNat)).mayIssue 1 (progWord 0 4 memitW.toNat) ∧
    memitFault memitW.toNat = none ∧ t.rangeFault (t.threadJob 1) (firnBase + 0x3000) 4 = none ∧
    u.bytes (firnAddr 0 0x3000) 4 = [0, 0, 0xC0, 0x40] ∧
    mclrFault mclrW.toNat = none ∧ ((does 0 3 mclrW (.mclr 0 .B mclrW) t).core 7).acc = [] := by decide +kernel

theorem witness_bow_held : let h : Header := { ord := 0, fmt := 4, n := 64, k := 16, avail := 32 };
    let s := (((regs (partRegs 63 ++ [(Reg.cirMcCtrl 0 7, 1 + put Fld.cirMcCtrlBowLimit 5), (Reg.cirMcGang 0 7, 7), (Reg.cirMcCtrl 0 6, 1),
      (Reg.cirMcGang 0 6, 7)])).setGstate 6 1).setCore 7 { hdrs := [h] }).setCore 6 { hdrs := [h] };
    s.coreOn 7 = true ∧ s.coreLeader 7 = 7 ∧ s.slowest (s.members 7) = some 6 ∧ s.outstanding 6 = 32 ∧
    codes (after (.bowWait 0 7 6) s) = [0x0201] := by decide +kernel

theorem witness_bow_wait :
    let s := (regs [(Reg.cirMcCtrl 0 7, 1 + put Fld.cirMcCtrlBowLimit 5), (Reg.cirMcGang 0 7, 3)]).setCore 7
      { fifo := [{ item := 0, op := 2, w := 0, ag := 0, key := 0 }] };
    s.coreOn 7 = true ∧ s.coreLeader 7 = 3 ∧ codes (after (.bowWait 0 7 6) s) = [0x0201] ∧ after (.bowWait 0 7 5) s = s := by
  decide +kernel

/-! ## Vector engines -/

/-- Cluster 0 with FP32 data in its slice, and streams 1, 2 and 7 of thread 3. -/
def vector (vl : Nat) : State :=
  let st := fun p => { ptr := p, valid := true : VStream }
  ((run (regs (partRegs 63)) 3 0).store (firnAddr 0 64) (leBytes 4 0x40000000 ++ leBytes 4 0x40400000 ++ leBytes 4 0x3F800000)).setVctx 3
    { vl := vl, thresh := 0, streams := [(1, st 64), (2, st 68), (7, st 128)] }

/-- A VOP word: destination 7 and selectors a, b and c. -/
def vop (a b c : Nat) : BitVec 52 := BitVec.ofNat 52 (7 * 2 ^ 49 + a * 2 ^ 45 + b * 2 ^ 41 + c * 2 ^ 37)

/-- Thread 3 issues a VECTOR command of KIND c whose bits below are w. -/
def runs (c w : Nat) (i : Instr) (s : State) : State := after i (lay s 3 (2 ^ 60 + c * 2 ^ 58 + w))

theorem witness_vector_contexts : let s := run (regs (partRegs 63)) 3 0;
    let b : BitVec 58 := BitVec.ofNat 58 (7 * 2 ^ 55 + 3 * 2 ^ 52 + 2 ^ 49 + 0x40);
    let c : Bytes := leBytes 32 (2 ^ 32) ++ leBytes 12 (0x3F800000);
    let c := c.take 28 ++ leBytes 4 (crc32c (c.take 28 ++ c.drop 32)).toNat ++ c.drop 32;
    let t := s.store (firnAddr 0 0x40) c;
    let n := 2 ^ 54 + 63; let v := 3 * 2 ^ 56 + 0x40;
    (lay s 3 (2 ^ 60 + n)).mayIssue 3 (2 ^ 60 + n) ∧ vcfgFault n = none ∧
    ((runs 0 n (.vcfg 0 .H (BitVec.ofNat 58 n)) s).vctx 3).rime = 63 ∧
    vstrFault b.toNat = none ∧ ((runs 1 b.toNat (.vstr 0 .H b) s).vctx 3).stream 7 = { ptr := 0x40, fmt := .w8, adv := true, valid := true } ∧
    curveFault (t.bytes (firnBase + 0x40) 44) = none ∧ curveNlog (t.bytes (firnBase + 0x40) 32) = 0 ∧
    t.rangeFault (t.threadJob 3) (firnBase + 0x40) 44 = none ∧
    ((runs 3 v (.vtbl 0 .H (BitVec.ofNat 58 v)) t).curve 0 3).bytes = c := by decide +kernel

theorem witness_vop : let s := vector 2;
    let w := vop 1 2 15; let x := vop 1 15 15; let op := fun o (w : BitVec 52) i => runs 2 (o * 2 ^ 52 + w.toNat) i s;
    let word := 2 ^ 60 + 2 * 2 ^ 58 + (2 ^ 52 + w.toNat);
    (lay s 3 word).mayIssue 3 word ∧ s.vopFault 3 0x01 w.toNat = none ∧ (s.vctx 3).vl = 2 ∧ ((s.vctx 3).stream 7).aligned = true ∧
    (∀ q ∈ streamsOf (s.vopSources 3 0x01 w.toNat), q.2.aligned = true ∧ rangesAgree 2 2 ((s.vctx 3).stream 7) q.2 = true ∧ s.srcBad 2 q.2 = none) ∧
    s.rangeFault (s.threadJob 3) (firnBase + 64) 12 = none ∧ s.rangeFault (s.threadJob 3) (firnBase + 128) 8 = none ∧
    (op 1 w (.vadd 0 .H w)).bytes (firnBase + 128) 8 = leBytes 4 0x40A00000 ++ leBytes 4 0x40800000 ∧
    (op 3 w (.vmul 0 .H w)).bytes (firnBase + 128) 8 = leBytes 4 0x40C00000 ++ leBytes 4 0x40400000 ∧
    (op 2 w (.vsub 0 .H w)).bytes (firnBase + 128) 8 = leBytes 4 0xBF800000 ++ leBytes 4 0x40000000 ∧
    (op 32 x (.rsum 0 .H x)).bytes (firnBase + 128) 4 = leBytes 4 0 ∧
    (op 33 x (.rmax 0 .H x)).bytes (firnBase + 128) 4 = leBytes 4 0x40400000 := by decide +kernel

theorem witness_elements : let s := vector 2;
    let a := some (VSrc.stream 1 ((s.vctx 3).stream 1));
    (s.srcVals 2 a)[1]?.isSome = true ∧ (s.vopResults 3 0x08 0 2 a none none)[1]? = some (arith (Val.fin true 3 0)) := by decide +kernel

/-! ## Moraine engines and Snowpack -/

/-- Stack-local windows, HBM owned by job 0, a build open in slot 1 of context 252 over a head in slot 0; thread B of cluster 0
has the record b at slice byte 0. -/
def moraine (b : Nat) (l : List (Nat × Nat)) : State :=
  let s := regs (partRegs 63 ++ [(Reg.morHmap 0, 255), (Reg.plhTenHbm 0, 0x44444444), (Reg.snpCtxElems 252, 4),
    (Reg.snpCtxCfg 252, put Fld.snpCtxCfgWfmt 1), (Reg.snpCtxStore 252, put Fld.snpCtxStoreOffset 1), (Reg.snpCtxHead 252, 2 ^ 19),
    (Reg.snpSlot 252 0, 2)] ++ l)
  (s.setThread 1 { prog := .pass }).store (firnAddr 0 0) (leBytes 64 b)

/-- A build of version 1 is open in slot 1. -/
def buildRegs : List (Nat × Nat) := [(Reg.snpSlot 252 1, 1 + 16), (Reg.snpCtxBuild 252, 1 + 2 ^ 16 + 2 ^ 19)]

/-- A record: count 1, format or kernel sel, TAGV and version 1, address 0 in Firn and address 1 in HBM. -/
def recordOf (sel a0 a1 a2 a3 : Nat) : Nat :=
  2 ^ 32 + sel * 2 ^ 144 + 2 ^ 160 + a0 * 2 ^ 192 + a1 * 2 ^ 256 + a2 * 2 ^ 320 + a3 * 2 ^ 384

theorem witness_gacc_opt :
    let s := (moraine (recordOf 1 (firnBase + 0x1000) 0x100000 0 0) []).store (firnBase + 0x1000) (leBytes 2 0x3C00);
    let o := moraine (recordOf 0 0x100000 0x100040 0x100080 (firnBase + 0x1000)) buildRegs;
    (lay s 1 (progWord 5 0 0)).mayIssue 1 (progWord 5 0 0) ∧ s.morCtx 1 = 252 ∧ s.morWordFault 0 0 252 = none ∧ s.stackCut 0 = false ∧ s.badByte (firnAddr 0 0) 64 = none ∧
    s.fld (Reg.twiLstatus 0) Fld.twiLstatusState ≠ 3 ∧ (s.doGacc (s.morCtl 1) 0 (s.bytes (firnAddr 0 0) 64)).2 = { count := 1 } ∧
    (does 5 0 0 (.gacc 0 .B 0) s).bytes 0x100000 4 = leBytes 4 ((convert .fp32 (valueOf .w16 0x3C00)).1) ∧
    o.morWordFault 1 0 252 = none ∧ (o.doOpt (o.morCtl 1) 0 (o.bytes (firnAddr 0 0) 64)).2 = { count := 1 } ∧
    ((does 5 1 0 (.opt 0 .B 0) o).snp 252).counts.get 0 0 = 1 := by decide +kernel

theorem witness_gacc_host :
    let s := moraine (recordOf 1 (hostBase 0 + 0x1000) 0x100000 0 0) [(Reg.plhStatus 0, 2)]; let a := hostBase 0 + 0x1000;
    let t := does 5 0 0 (.gacc 0 .B 0) s; let u := after (.readDataReceive 0 0 false [0x00, 0x3C]) t;
    s.rangeFault (s.threadJob 1) a 2 = none ∧ hostPortOf a = some 0 ∧ (s.stack 0).cmds = [] ∧ (t.item 0).bind Item.comp = none ∧
    ((t.stack 0).cmds.map MorCmd.item) = [0] ∧ t.out = [.readReq 0 0 0x1000 2] ∧ (u.item 0).bind Item.comp = some { count := 1 } ∧
    u.bytes 0x100000 4 = leBytes 4 ((convert .fp32 (valueOf .w16 0x3C00)).1) ∧ (u.stack 0).cmds = [] := by decide +kernel

theorem witness_vread_vpub :
    let s := (moraine (recordOf 1 (firnBase + 0x1000) 0 0 0 - 2 ^ 160) []).store 4096 [7, 8];
    let p := moraine (recordOf 0 0 0 0 0) (buildRegs ++ [(Reg.snpCtxPeers 252, 2)]);
    s.morWordFault 4 0 252 = none ∧ (s.doVread (s.morCtl 1) 0 (s.bytes (firnAddr 0 0) 64)).2 = { count := 1 } ∧ s.snpFind 252 0 = some 0 ∧
    (does 5 4 0 (.vread 0 .B 0) s).bytes (firnBase + 0x1000) 2 = [7, 8] ∧
    p.morWordFault 5 0 252 = none ∧ p.vpubCheck (p.morCtl 1) (p.bytes (firnAddr 0 0) 64) = none ∧
    (does 5 5 0 (.vpub 0 .B 0) p).items.live.length = 1 := by decide +kernel

theorem witness_builds : let s := moraine 0 [];
    let f := moraine 0 [(Reg.snpSlot 252 1, 3)];
    let o := moraine 0 buildRegs;
    let w := does 5 2 0 (.vbegin 0 .B 0) f;
    let e := does 5 3 0 (.vend 0 .B 0) o;
    let r := ((w.setReg (Reg.snpSlot 252 1) 0).setFld (Reg.snpCtxTmo 252) Fld.snpCtxTmoSlotLimit 5);
    (lay s 1 (progWord 5 2 0)).mayIssue 1 (progWord 5 2 0) ∧ s.morWordFault 2 0 252 = none ∧ s.mirrorHold 252 0 = false ∧ s.buildOpen 252 = false ∧ s.buildRoom 252 = some 1 ∧
    (does 5 2 0 (.vbegin 0 .B 0) s).buildNum 252 = 1 ∧ (does 5 2 0 (.vbegin 0 .B 0) s).buildSlot 252 = 1 ∧
    o.buildOpen 252 = true ∧ (((does 5 2 0 (.vbegin 0 .B 0) o).item 0).bind Item.comp) = some {} ∧
    f.buildRoom 252 = none ∧ (w.thread 1).wait = .item 0 ∧ (w.snp 252).begins.length = 1 ∧
    r.buildRoom 252 = some 1 ∧ (after (.vbeginOpen 252) r).buildOpen 252 = true ∧ codes (after (.snowpackSlotWait 252 0) (r.setNow 6000)) = [0x0305] ∧
    o.morWordFault 3 0 252 = none ∧ (e.snp 252).vends = [0] := by decide +kernel

theorem witness_head :
    let e := (moraine 0 (buildRegs ++ [(Reg.snpCtxTmo 252, 1)])).setSnp 252
      { vends := [7], counts := (upFrom 0 8).map fun st => (st, 4) };
    let e := e.setFld (Reg.snpCtxBuild 252) Fld.snpCtxBuildState 2;
    let h := after (.buildBecomesHead 252) e;
    (∀ st < 8, e.elems 252 ≤ (e.snp 252).counts.get 0 st) ∧ h.headNum 252 = 1 ∧ h.buildOpen 252 = false ∧ h.slotState 252 0 = 0 ∧
    (h.snp 252).vends = [] ∧ codes (after (.vendTimeout 252) e) = [0x0308] := by decide +kernel

theorem witness_arrivals :
    let a : SnpPub := { sender := 5, version := 1, step := 0, stack := 7, ix := 3, codes := [0xABCD] };
    let o := moraine 0 buildRegs;
    let f := moraine 0 [(Reg.snpSlot 252 1, 3)];
    let b := after (.snpArrival 252 a 9) o;
    o.pubFate 252 a = .write ∧ (b.snp 252).counts.get 0 7 = 1 ∧ b.bytes (o.slotAddr 252 7 1 + 6) 2 = [0xCD, 0xAB] ∧
    f.pubFate 252 a = .wait ∧ f.buildRoom 252 = none ∧ ((after (.snpArrival 252 a 9) f).snp 252).waits.length = 1 ∧
    o.pubFate 252 { a with ix := 4 } = .stray ∧ codes (after (.snpArrival 252 { a with ix := 4 } 9) o) = [0x0306] ∧
    (after (.failureNoticeReceive 252 1 0) o).isFailed 63 0 = true ∧ (after (.failureNoticeReceive 252 1 0) o).buildOpen 252 = false := by
  decide +kernel

theorem witness_compaction :
    let s := moraine 0 [(Reg.snpCtxElems 252, 0), (Reg.snpSlot 252 1, 3 + 5 * 16 + 2 ^ 31), (Reg.snpSlot 252 7, 8 + 5 * 16 + 2 ^ 31),
      (Reg.snpCtxCfg 252, put Fld.snpCtxCfgKeep 7)];
    s.compacting 252 1 = true ∧ (after (.compactionComplete 252 1) s).slotState 252 7 = 3 ∧
    (after (.compactionComplete 252 1) s).slotState 252 1 = 0 ∧ s.compacting 252 2 = false := by decide +kernel

theorem witness_compaction_fails :
    let s := moraine 0 [(Reg.snpSlot 252 1, 3 + 5 * 16 + 2 ^ 31), (Reg.snpSlot 252 7, 8 + 5 * 16 + 2 ^ 31), (Reg.snpCtxCfg 252, put Fld.snpCtxCfgKeep 7)];
    let b := s.markUe (s.slotAddr 252 0 1 / 64 * 64); let t := after (.compactionComplete 252 1) b;
    b.compacting 252 1 = true ∧ b.compactFits 252 1 (b.fld (Reg.snpSlot 252 7) Fld.snpSlotRef) = false ∧ t.reg (Reg.snpSlot 252 7) = 0 ∧
    t.fld (Reg.snpSlot 252 1) Fld.snpSlotCompact = 0 ∧ t.reg (Reg.snpCtxOver 252) = 1 := by decide +kernel

theorem witness_reset_adopt :
    let s := moraine 0 ([(Reg.snpCtxHead 252, 0), (Reg.snpSlot 252 0, 0)] ++ (upFrom 1 7).map fun st => (Reg.plhTenHbm (2 * st), 4));
    let r := moraine 0 ((Reg.stgCtxStatus 252, 5) :: buildRegs);
    let x := moraine 0 ((Reg.stgCtxStatus 252, 2) :: buildRegs);
    s.adoptErr 252 1 = 0 ∧ (after (.snpAdopt 252 1 0xFFFF) s).headNum 252 = 0xFFFF ∧ s.adoptErr 252 7 = 6 ∧
    (after (.snpAdopt 252 7 0) s).fld (Reg.snpCtxStatus 252) Fld.snpCtxStatusErr = 6 ∧ (after (.snpReset 252) r).hasHead 252 = false ∧
    (after (.snpReset 252) r).slotState 252 1 = 0 ∧ x.ctxState 252 = 2 ∧ codes (after (.snpReset 252) x) = [0x0004] := by decide +kernel

/-! ## The Drift store -/

/-- Cluster 0 of job 0 with more registers; thread 0 may issue the MESSAGE word of an opcode, and its slice begins with a record. -/
def msg (o : Nat) (l : List (Nat × Nat)) (b : Nat) : State :=
  (lay ((regs (partRegs 63 ++ l)).setThread 0 { prog := .pass }) 0 (progWord 6 o 0)).store (firnAddr 0 0) (leBytes 64 b)

/-- Its record stands where R339 has it, and can be read. -/
def hasRecord (s : State) (b : Nat) : Bool :=
  s.badByte (firnAddr 0 0) 64 == none && s.bytes (firnAddr 0 0) 64 == leBytes 64 b

/-- An AMSEND or DQADD record: destination device, word 1, payload of n bytes at slice offset 1024 with the field at bit p. -/
def rcdOf (dest hi p n : Nat) : Nat := dest + hi * 2 ^ 32 + n * 2 ^ p + (firnBase + 1024) * 2 ^ 128

theorem witness_amsend : let x := rcdOf 1 (5 + 1023 * 2 ^ 16 + 2 * 2 ^ 48) 64 16384; let s := msg 1 [] x;
    let y := rcdOf 0 (511 + 1 * 2 ^ 48) 64 4; let l := (msg 1 [] y).store (firnAddr 0 1024) [7, 6, 5, 4];
    s.mayIssue 0 (progWord 6 1 0) ∧ hasRecord s x = true ∧ amsendFault (leBytes 64 x) = none ∧ s.ownAddr = 0 ∧
    s.rangeFault (s.threadJob 0) (firnBase + 1024) 16384 = none ∧ s.badByte (firnBase + 1024) 16384 = none ∧
    (after (.amsend 0 .F 0) s).fab.nextXid = 2 ∧ ((after (.amsend 0 .F 0) s).item 0).map Item.parts = some 2 ∧
    l.mayIssue 0 (progWord 6 1 0) ∧ hasRecord l y = true ∧ amsendFault (leBytes 64 y) = none ∧
    l.rangeFault (l.threadJob 0) (firnBase + 1024) 4 = none ∧
    (((after (.amsend 0 .F 0) l).ring 511).waits.map fun w => w.msg.payload) = [[7, 6, 5, 4]] := by decide +kernel

theorem witness_dqadd : let x := rcdOf 1 (63 + 255 * 2 ^ 8 + 3 * 2 ^ 16) 96 1; let s := msg 2 [] x;
    s.mayIssue 0 (progWord 6 2 0) ∧ hasRecord s x = true ∧ dqaddFault (leBytes 64 x) = none ∧ fmtOf 3 = some .w8 ∧
    s.rangeFault (s.threadJob 0) (firnBase + 1024) 1 = none ∧ s.badByte (firnBase + 1024) 1 = none ∧
    ((after (.dqadd 0 .F 0) s).item 0).map Item.parts = some 1 ∧ (after (.dqadd 0 .F 0) s).fab.nextXid = 1 := by decide +kernel

/-- A COLL record on axis 0: an all-to-all of one element a slot, or with op 0 a reduce-scatter of one element, window 1. -/
def collRcd (op win : Nat) : Nat :=
  9 + op * 2 ^ 16 + win * 2 ^ 56 + 1 * 2 ^ 64 + (firnBase + 1024) * 2 ^ 128 + (firnBase + 2048) * 2 ^ 192

theorem witness_coll : let s := msg 0 [(Reg.drfPool 0, put Fld.drfPoolPages 17)] (collRcd 0 1);
    let key : CollKey := { job := 0, cid := 9, step := 0 }; let b := leBytes 64 (collRcd 0 1);
    let c : Coll := { key, thread := 4, item := 99, rcd := b };
    let f := s.setDrift { s.drift with colls := (upFrom 0 16).map fun i => (i, { c with key := { key with cid := 1 } }) };
    s.mayIssue 0 (progWord 6 0 0) ∧ hasRecord s (collRcd 0 1) = true ∧ collFault b = none ∧ s.collCheck 0 b key = none ∧
    ((after (.coll 0 .F 0) s).drift.colls.map fun e => (e.1, e.2.key, e.2.state)) = [(0, key, 1)] ∧
    f.collCheck 0 b key = none ∧ ((after (.coll 0 .F 0) f).drift.collWait.map Coll.key) = [key] := by decide +kernel

/-- A message of 33 bytes for cluster 0, handler 1023, job 0; its cluster's table and ring are set up. -/
def amMsg : AmMsg :=
  { dest := 0, dcl := 0, handler := 1023, job := 0, scl := 4, src := 7, mb := 3, step := 2, ver := 1, arg := 5, payload := List.replicate 33 9 }

/-- A state where it waits, with the handler table of job 0 enabled or not, and its handler at slice offset 64. -/
def amWaits (en : Nat) (w : List AmWait) : State :=
  let s := regs (partRegs 63 ++ [(Reg.drfHtab 0, en * put Fld.drfHtabEn 1), (Reg.drfAmring 0, 1 + put Fld.drfAmringSize 1),
    (Reg.drfTmo 0, put Fld.drfTmoAmLimit 10)])
  (s.setRing 0 { waits := w }).store (firnAddr 0 (1023 * 8)) (leBytes 8 (8 + 2 ^ 19 + 33 * 2 ^ 20))

theorem witness_am_place : let w : AmWait := { msg := amMsg, teller := .nobody }; let s := amWaits 1 [w]; let d := amWaits 0 [w];
    let t := after (.amPlace (.waiting 0)) s;
    s.amDead amMsg = false ∧ s.amEntry amMsg = .inr 64 ∧ ringRoom (s.ring 0) (s.ringSpace 0).2 (recSize 33) = some (0, 96) ∧
    (t.ring 0).recs = [⟨0, 96, amMsg, 64⟩] ∧ t.bytes (firnAddr 0 65536) 4 = [0, 0, 0, 0] ∧ t.bytes (firnAddr 0 (65536 + 64)) 2 = [9, 0] ∧
    d.amDead amMsg = true ∧ (after (.amPlace (.waiting 0)) d).reg Reg.drfAmDead = 1 ∧
    ((after (.handlerStart 0) t).thread 3).pc = 64 ∧ ((after (.handlerStart 0) t).thread 3).ag.get 0 0 = 65568 ∧
    ((after (.handlerStart 0) t).thread 3).ag.get 0 2 = 7 ∧ codes (after (.amsgStall 0 0) (s.setNow 11000)) = [0x0413] ∧
    codes (after (.amsgStall 0 0) (s.setNow 10000)) = [] := by decide +kernel

/-- Queue 63: one entry of one element, two contributors in rank order, and one page of hold space; its reader is cluster 0. -/
def combining (reader : Nat) (x : DriftQueue) : State :=
  (regs (partRegs 63 ++ [(Reg.drfDqCfg 63, 1 + put Fld.drfDqCfgKm1 1), (Reg.drfDqSize 63, 1 + put Fld.drfDqSizeElems 1),
    (Reg.drfDqReader 63, reader + put Fld.drfDqReaderHandler 1023), (Reg.drfDqBase 63, put Fld.drfDqBaseHold 1)])).setDq 63 x

/-- A contribution of the FP32 value 1.0 of contributor c. -/
def contrib (c : Nat) : DqMsg :=
  { queue := 63, contrib := c, fmt := 0, entry := 0, job := 0, src := 7, mb := 0, step := 0, ver := 0, count := 1, body := [0, 0, 128, 63] }

theorem witness_dqadd_arrival : let s := combining 0 {}; let d := combining 1 {};
    let e : DqEntry := { sum := [0x3F800000], by_ := [0] };
    let h := combining 0 { entries := [(0, e)] };
    let t := after (.dqaddArrival (.fabric 5 (contrib 1))) h;
    s.dqFault (contrib 0) = none ∧ s.dqDead 63 = false ∧ dqTurn true (({} : Tbl DqEntry).get {} 0) 0 = true ∧
    (((after (.dqaddArrival (.fabric 5 (contrib 0))) s).dq 63).entries.get {} 0) = e ∧
    (t.dq 63).entries.get {} 0 = { e with sum := [0x40000000], by_ := [0, 1], delivering := true } ∧
    ((t.ring 0).waits.map fun w => (w.msg.handler, w.msg.payload)) = [(1023, [0, 0, 0, 64])] ∧
    s.dqRoom 63 = true ∧ ((after (.dqaddArrival (.fabric 5 (contrib 1))) s).dq 63).held = [contrib 1] ∧
    d.dqFault (contrib 0) = none ∧ d.dqDead 63 = true ∧ ((after (.dqaddArrival (.fabric 5 (contrib 0))) d).dq 63).entries = [] ∧
    (s.dqFault { contrib 2 with entry := 1 }) = some 40 := by decide +kernel

/-- A device of an axis of two devices with a reduce-scatter of one element in entry 15. -/
def collects (st : Nat) (f : Coll → Coll) : State :=
  let s := regs (partRegs 63 ++ [(Reg.lnkAxes, 1), (Reg.drfPool 0, put Fld.drfPoolPages 17), (Reg.drfTmo 0, 1)])
  let c : Coll := { key := { job := 0, cid := 9, step := 0 }, thread := 1, item := 0, rcd := leBytes 64 (collRcd 0 1), state := st,
                    shards := [1, 0], pages := 17 }
  s.setDrift { s.drift with colls := [(15, f c)] }

theorem witness_collectives : let key : CollKey := { job := 0, cid := 9, step := 0 };
    let s := collects 1 id; let a := collects 2 fun c => { c with gOut := 1, gIn := [(1, 2)] };
    let f := collects 1 fun c => { c with pages := 18 };
    let d : CollData := { key, src := 2 ^ 24, xid := 4, kind := 0, op := 0, failed := false, comp := false, nonfin := false, rank := 1, ifmt := 0
                          block := 0, alpha := 0, count := 1, nr := 1, offset := 0, body := [0, 0, 0, 64] };
    let c := fun (t : State) => (t.coll 15).map Coll.state;
    s.fld (Reg.drfPool 0) Fld.drfPoolPages - s.poolUsed 0 = 17 ∧ c (after (.collStart 15) s) = some 2 ∧
    ((after (.collStart 15) s).coll 15).map Coll.gOut = some 1 ∧ c (after (.collStart 15) f) = some 1 ∧
    ((after (.collGrantReceive key (2 ^ 24) ⟨1, 2⟩) a).coll 15).map (fun c => c.gIn.get 0 1) = some 2 ∧
    codes (after (.collGrantReceive key (2 ^ 24) ⟨1, 1⟩) a) = [0x0414] ∧ codes (after (.collGrantReceive key (2 ^ 24) ⟨0, 2⟩) a) = [0x0414] ∧
    (a.coll 15).map (fun c => (a.dataDiffers c d, a.blockOk c d, axisIx d.src 0)) = some (none, true, 1) ∧
    (after (.collDataReceive d) a).bytes (firnBase + 2048) 4 = [0, 0, 0, 64] ∧
    ((after (.collDataReceive d) a).coll 15).map (fun c => (c.written, c.elems, c.gOut)) = some (1, 1, 2) ∧
    codes (after (.collDataReceive d) State.reset) = [0x0414] := by decide +kernel

theorem witness_coll_complete : let w : Coll → Coll := fun c => { c with written := 1, elems := 1 };
    let l := fun (n : Nat) => (collects n w).accept { id := 0, unit := 0x0103, index := 0, owner := .thread 1 0 };
    let s := l 2;
    ((s.coll 15).map fun c => (s.outputDone c, s.sendsDone 15 c, (parseColl c.rcd).dx)) = some (true, true, false) ∧
    ((after (.collComplete 15) s).item 0).bind Item.comp = some { count := 1 } ∧ (after (.collComplete 15) s).drift.colls = [] ∧
    ((after (.collTimeout 15) s).item 0).bind Item.comp = some { status := .timeout, count := 1 } ∧
    codes (after (.collTimeout 15) s) = [0x0410] := by decide +kernel

theorem witness_digest : let key : CollKey := { job := 0, cid := 9, step := 0 }; let s := collects 3 fun c => { c with rxPeer := [(1, 5)] };
    codes (after (.digestReceive key (2 ^ 24) 5) s) = [] ∧ codes (after (.digestReceive key (2 ^ 24) 6) s) = [0x0411] ∧
    (after (.digestReceive key (2 ^ 24) 6) s).reg Reg.drfDigmis = 1 ∧
    ((after (.digestReceive key (2 ^ 24) 5) s).coll 15).map Coll.digests = some [(1, 5)] ∧ codes (after (.digestReceive key 7 5) State.reset) = [0x0414] := by decide +kernel

/-! ## Fabric links -/

/-- Link 31 in a state, with its layer and more registers. -/
def link (st : Nat) (x : LinkLayer) (l : List (Nat × Nat)) : State := (regs ((Reg.lnkStatus 31, st) :: l)).setLayer 31 x

/-- The units sent. -/
def sentUnits (s : State) : List Bytes := s.out.filterMap fun e => match e with | .unit _ b => some b | _ => none

/-- A unit with a control word, all of whose payload is zero, as a receiver that expects sequence number 0 takes it. -/
def flowUnit (w : Nat) : Bytes := let b := leBytes 8 w ++ List.replicate 240 0; b ++ leBytes 8 (crc64 (leBytes 2 0 ++ b))

/-- A single-unit segment on virtual channel 0. -/
def seg : SegTx := { vc := 0, units := [List.replicate 40 1], typ := 2 }

theorem witness_unit_send : let h : HeldUnit := { ctl := 0, payload := [7] };
    let r := link 3 { next := 0xFFFF, acked := 0xFFFF, held := [h] } [];
    let c := link 3 { lctl := [[5]] } []; let d := link 3 { txq := [seg], seen := [(0, 1)] } []; let i := link 4 {} [];
    let f := fun s => sentUnits (after (.flowUnitSend 31) s);
    r.layerUp 31 = true ∧ (f r).map List.length = [256] ∧ ((after (.flowUnitSend 31) r).layer 31).next = 0 ∧
    ((f r).map fun b => field b 8 1) = [7] ∧ ((after (.flowUnitSend 31) c).layer 31).lctl = [] ∧ ((f c).map fun b => (field b 0 1, field b 8 1)) = [(2, 5)] ∧
    d.pickSeg 31 = some seg ∧ ((after (.flowUnitSend 31) d).layer 31).next = 1 ∧ ((after (.flowUnitSend 31) d).layer 31).held.length = 1 ∧
    i.pickSeg 31 = none ∧ ((f i).map fun b => field b 0 1) = [1] := by decide +kernel

theorem witness_unit_receive : let s := link 3 { alloc := [(0, 1)], seen := [(16, 3)] } [];
    let w := 1 + 16 * 2 ^ 37 + 4 * 2 ^ 42; let t := after (.flowUnitReceive 31 (flowUnit w)) s;
    let d := after (.flowUnitReceive 31 (flowUnit (2 ^ 7 + 2 ^ 8 + 240 * 2 ^ 9))) s;
    ((after (.flowUnitReceive 31 []) s).layer 31).nakDue = some 0 ∧ s.layerUp 31 = true ∧
    crc64 (leBytes 2 0 ++ (flowUnit w).take 248) = field (flowUnit w) 248 8 ∧ (flowUnit w).length = 256 ∧ (t.layer 31).seen.get 0 16 = 4 ∧
    (d.layer 31).e = 1 ∧ d.reg (Reg.lnkRxu 31) = 1 := by decide +kernel

theorem witness_replay : let h : HeldUnit := { ctl := 0, payload := [] }; let tmr := [(Reg.lnkTmr 31, put Fld.lnkTmrMaxreplay 15)];
    let s := link 3 { next := 5, acked := 4, held := [h], replays := 14 } tmr;
    let e := link 4 { held := [h], replays := 15 } tmr;
    let p := (regs [(Reg.plhStatus 3, 2)]).setLayer 35 { held := [h], replays := 8 };
    let b := link 3 { txq := [seg] } [];
    ((after (.replayTimeout 31) s).layer 31).next = 4 ∧ ((after (.replayTimeout 31) s).layer 31).replays = 15 ∧
    (after (.replayTimeout 31) e).linkState 31 = 5 ∧ codes (after (.replayTimeout 31) e) = [0x0404] ∧ p.layerUp 35 = true ∧
    (after (.replayTimeout 35) p).fld (Reg.plhStatus 3) Fld.plhStatusState = 3 ∧ (b.layer 31).credit 0 = false ∧
    ((after (.bypassFallback 31) b).layer 31).txq = [{ seg with vc := 8 }] := by decide +kernel

theorem witness_transfers : let r : RxXfer := { src := 7, xid := 9, typ := 9, hdr := leBytes 48 firnBase, total := 2, got := [(1, [2]), (0, [1])] };
    let x : Xfer := { xid := 3, dest := 7, typ := 1, vc := 0, port := 0, why := .item 0, total := 1, unsent := 0 };
    let s := (State.reset.setFab { rx := [r], xfers := [x], placed := [(7, 8, { count := 5 })] }).setNow 9;
    let c := after (.cancelReceive 0 ⟨7, 9⟩) s;
    r.whole = some [1, 2] ∧ (after (.segmentPlace 7 9) s).fab.placed.length = 2 ∧ s.xfer 3 = some x ∧
    (after (.receiptReceive 0 8 3 ⟨0, 0, 1⟩) s).fab.xfers = [] ∧ (after (.receiptReceive 0 8 3 ⟨0, 0, 1⟩) s).reg (Reg.lnkClamp 0) = 0 ∧
    s.xfer 4 = none ∧ (after (.receiptReceive 31 8 4 ⟨10, 0, 1⟩) s).reg (Reg.lnkProto 31) = 1 ∧
    (after (.receiptReceive 0 9 4 ⟨10, 0, 1⟩) s).reg (Reg.lnkClamp 0) = 1 ∧ (after (.receiptReceive 0 9 4 ⟨10, 0, 1⟩) s).now = 9 ∧
    (after (.cancelReceive 0 ⟨7, 8⟩) s).fab.nextXid = 1 ∧ c.fab.rx = [] ∧ c.fab.placed.length = 2 ∧
    (after (.cancelReceive 31 ⟨7, 10⟩) s).reg (Reg.lnkProto 31) = 1 := by decide +kernel

theorem witness_link_states : let x : LinkLayer := { next := 5, acked := 4, held := [{ ctl := 0, payload := [] }] };
    let m : LinkStatusMsg := { addr := 0, port := 6, link := 3, session := 9, width := 2, speed := 2, allocs := [], eth := false, extra := false };
    let s := fun n => link n x []; let e := fun n => link n {} [];
    let up := after (.linkTrained 31 15 2 0) (s 5); let ini := after (.linkTrained 31 1 0 77) (s 8);
    up.linkState 31 = 3 ∧ after (.linkTrained 31 15 2 77) (s 6) = s 6 ∧ (up.layer 31).next = 4 ∧ ini.linkState 31 = 2 ∧ (ini.layer 31).session = 77 ∧ (ini.layer 31).lctl.length = 1 ∧
    (e 2).ethPort 7 = false ∧ (e 2).allocSum 31 ≤ 1024 ∧ (e 2).wiredRight 31 m = true ∧ (e 2).wiredRight 31 { m with link := 2 } = false ∧
    (after (.statusReceive 31 m) (e 2)).linkState 31 = 3 ∧ (after (.statusReceive 31 { m with link := 2 }) (e 2)).linkState 31 = 8 ∧
    ((after (.statusPeriodic 31) (e 3)).layer 31).lctl.length = 1 ∧ (after (.lnkRetrain 31) (s 3)).linkState 31 = 4 ∧
    (after (.laneLockLost 31) (s 3)).linkState 31 = 5 ∧ (after (.drainEnd 31 false) (e 4)).linkState 31 = 5 ∧
    (after (.drainEnd 31 false) (s 4)).linkState 31 = 4 ∧ (after (.drainEnd 31 true) (s 4)).linkState 31 = 5 := by decide +kernel

theorem witness_link_states_end : let s := fun n => link n {} [(Reg.lnkCtrl 31, 1)];
    let r := after (.lctlRetrainReceive 31 1 0) (s 4);
    r.linkState 31 = 5 ∧ (r.layer 31).capWidth = 1 ∧ (after (.retrainTimeout 31) (s 5)).linkState 31 = 6 ∧
    (after (.graceExpired 31) (s 6)).linkState 31 = 7 ∧ (after (.downReceive 31) (s 2)).linkState 31 = 1 ∧
    (after (.downReceive 31) (link 8 {} [])).linkState 31 = 0 ∧ (after (.linkReset 31) (s 3)).reg (Reg.lnkCtrl 31) = BitVec.ofNat 32 (resetAt (Reg.lnkCtrl 31)) ∧
    (codes (after (.linkReset 31) (s 3))).getLast? = some 0x0702 := by decide +kernel

theorem witness_fabric_time : let s := (link 3 {} [(Reg.lnkTimeCfg, 1 + put Fld.lnkTimeCfgParent 31)]);
    let r := fun t2 t3 => after (.timeRspReceive 31 0 t2 t3 0 127 true) s; let q := after .timeReqSend s;
    s.timeLink = some 31 ∧ s.timeChild = true ∧ (q.layer 31).lctl = [2 :: leBytes 9 0] ∧
    ((sentUnits (after (.flowUnitSend 31) (q.setNow 3))).map fun b => (field b 8 1, field b 9 9)) = [(2, 768)] ∧
    ((after (.timeReqReceive 31 5) s).layer 31).lctl.length = 1 ∧ (r 256002 256001).now = 1000 ∧ (r 256000 256000).now = 0 ∧
    (r 256000 256000).fab.slew = 1000 ∧ (r 256000 256000).fld Reg.lnkTimeStatus Fld.lnkTimeStatusDepth = 127 ∧
    (after (.timeRspReceive 31 512004 0 0 0 0 true) s).fab.hold = 1 ∧
    (s.setNow 4).arrivalTime 3 = 1027 ∧ (link 4 {} [(Reg.lnkTimeCfg, 1 + put Fld.lnkTimeCfgParent 31)]).timeLink = some 31 := by decide +kernel

/-- A frame for MAC and IP address 0 and UDP port 4791 that carries a transport datagram with one unit. -/
def frame (seq : Nat) (u : Bytes) : Bytes :=
  let zeros := List.replicate 4 (0 : Byte)
  List.replicate 12 0 ++ [8, 0] ++ [0x45, 0, 1, 0x2C, 0, 0, 0, 0, 0x40, 17, 0x79, 0xC2] ++ zeros ++ zeros ++
    udpMake 0 4791 zeros zeros ([1, 0] ++ leBytes 2 seq ++ [1] ++ List.replicate 11 0 ++ u)

theorem witness_ethernet : let s := link 3 { told := 1 } [(Reg.lnkPortcfg 7, 1), (Reg.lnkEthUdp 31, put Fld.lnkEthUdpDport 4791), (Reg.lnkPtpCfg, put Fld.lnkPtpCfgEn 1)];
    let u := flowUnit 1; let f := frame 0 u; let a := after (.ethAckIdle 31) s;
    s.ethPort 7 = true ∧ f.length = 314 ∧ (s.frameTake 31 f).map Prod.fst = some false ∧ s.frameTake 31 (1 :: f.drop 1) = none ∧
    (after (.ethFrameReceive 31 (1 :: f.drop 1)) s).reg (Reg.lnkEthDrop 31) = 1 ∧
    ((s.frameTake 31 f).bind fun x => datagramTake (some 0) x.2) = some (0, [u]) ∧
    ((after (.ethFrameReceive 31 f) s).layer 31).nakDue = none ∧
    ((after (.ethFrameReceive 31 (frame 1 u)) s).layer 31).nakDue = some 2 ∧ s.pickSeg 31 = none ∧ (s.layer 31).owes = true ∧
    a.out.length = 1 ∧ (a.layer 31).owes = false ∧ (after (.ethAckIdle 31) a).out.length = 1 ∧
    (after (.ptpEventMessage 31 true [1, 2, 0, 0, 0]) s).out = [.ptp 31 true 0 [1, 2, 0, 0, 0]] ∧ s.ptpMine [2, 2, 0, 0, 0] = false ∧ s.nextSeg 31 = none ∧ (s.layer 31).again = none ∧
    (after (.ptpEventMessage 31 true [0, 2, 0, 0, 0]) s).out = [.ptp 31 true 0 [0, 2, 0, 0, 0], .ptpReply 31 8 0 [0, 2, 0, 0, 0]] := by
  decide +kernel

/-! ## Twiac, resets and isolation -/

/-- Twiac link 15 in a state of Table 12-8, with more registers. -/
def twi (st : Nat) (l : List (Nat × Nat)) : State := regs ((Reg.twiLstatus 15, put Fld.twiLstatusState st + put Fld.twiLstatusGood 0x81) :: l)

/-- A Twiac header: type, source 0, destination 0, address and length. -/
def twiHdr (typ a n : Nat) : Bytes := leBytes 16 (typ + a * 2 ^ 64 + (n - 1) * 2 ^ 112)

theorem witness_twiac_packet : let s := (twi 3 []).store firnBase [7, 0, 9];
    let out := fun t => (after t s).out;
    s.twiState 15 = 3 ∧ s.packetBad 15 (twiHdr 6 0 1) = true ∧ codes (after (.twiacPacketReceive 15 (twiHdr 6 0 1) []) s) = [0x0500] ∧
    out (.twiacPacketReceive 15 (twiHdr 6 0 1) []) = [] ∧ s.packetBad 15 (twiHdr (2 ^ 60) 0 1) = true ∧
    out (.twiacPacketReceive 15 (twiHdr (2 ^ 60) 0 1) []) = [.twiac 15 (replyHdr (twiHdr (2 ^ 60) 0 1) 4) []] ∧
    s.packetBad 15 (twiHdr 0 firnBase 3) = false ∧ regionOf firnBase = some .firn ∧
    out (.twiacPacketReceive 15 (twiHdr 0 firnBase 3) []) = [.twiac 15 (replyHdr (twiHdr 0 firnBase 3) 3) [7, 0, 9]] ∧
    (after (.twiacPacketReceive 15 (twiHdr 1 firnBase 2) [5, 6, 7]) s).bytes firnBase 3 = [5, 6, 9] ∧
    s.packetMem firnBase 3 = true ∧ (after (.twiacPacketReceive 15 (twiHdr 2 firnBase 3) ([5, 6, 7] ++ leBytes 8 5)) s).bytes firnBase 3 = [5, 0, 7] ∧
    s.packetBad 15 (twiHdr 0 (2 ^ 47) 1) = false ∧ s.packetMem (2 ^ 47) 1 = false ∧
    out (.twiacPacketReceive 15 (twiHdr 0 (2 ^ 47) 1) []) = [.twiac 15 (replyHdr (twiHdr 0 (2 ^ 47) 1) 4) []] ∧
    (let d := s.setFld (Reg.pwrDie 0) Fld.pwrDiePs3 1; d.inPs3 0 = true ∧ s.wakeByPacket 15 0 = s ∧
      (after (.twiacPacketReceive 15 (twiHdr 1 firnBase 2) [5, 6]) d).inPs3 0 = false) ∧
    ((after (.flitRetry 15 7) s).twiLink 15).fails.get 0 7 = 1 := by decide +kernel

/-- A capability block of a base die: major version 2, every feature. -/
def capBlock : Bytes :=
  let b := leBytes 60 (0x0C17 + 2 * 2 ^ 32 + 2 ^ 40 + 16 * 2 ^ 48 + 0x3F * 2 ^ 64 + 4096 * 2 ^ 80); b ++ leBytes 4 (crc32c b).toNat

theorem witness_twiac_links : let s := fun n => regs [(Reg.twiLstatus 7, put Fld.twiLstatusState n), (Reg.twiLctrl 7, put Fld.twiLctrlGmask 0xFFFF)];
    let c := (s 4).setTwi 7 { cut := true };
    capBlock.length = 64 ∧ (crc32c (capBlock.take 60)).toNat = field capBlock 60 4 ∧ field capBlock 4 1 = 2 ∧
    (field (ownBlock 7) 8 2 &&& field capBlock 8 2) &&& 15 = 15 ∧ (after (.capabilityBlockReceive 7 capBlock) (s 2)).twiState 7 = 3 ∧
    (after (.capabilityBlockReceive 7 capBlock) c).twiState 7 = 5 ∧
    ((after (.capabilityBlockReceive 7 (capBlock.set 60 0)) (s 1)).twiLink 7).badBlock = true ∧
    (after (.capabilityRerequest 7) (after (.capabilityBlockReceive 7 (capBlock.set 60 0)) (s 1))).out.getLast? = some (.capRequest 7) := by decide +kernel

theorem witness_clock_loss : let t := after (.twiacClockLoss 7) State.reset;
    (State.reset.twiLink 7).cut = false ∧ t.stackCut 7 = true ∧ t.twiState 7 = 4 := by decide +kernel

theorem witness_throttle : let s := regs [(Reg.twiTemp 11, put Fld.twiTempStep 2), (Reg.twiThr 11, put Fld.twiThrHeavy 85 + put Fld.twiThrHyst 5)];
    codes (after (.thermalReport 11 95) s) = [0x0502] ∧ codes (after (.thermalReport 11 94) s) = [] ∧
    (after (.thermalReport 11 0xFF) s).fld (Reg.twiTemp 11) Fld.twiTempDegc = 0xFF ∧
    degrees 0xFF = -1 ∧ s.power.stepAt.get 0 11 = 0 ∧ s.twiState (sensorLink 11) ≠ 3 ∧
    (after (.throttleStepDown 11) s).fld (Reg.twiTemp 11) Fld.twiTempStep = 1 ∧
    (let h := (regs [(Reg.twiTemp 11, put Fld.twiTempStep 2 + put Fld.twiTempDegc 95), (Reg.twiThr 11, put Fld.twiThrHeavy 100)]).setPower { stepAt := [(11, 1)] };
      (after (.throttleStepDown 11) (h.setNow 9999)) = h.setNow 9999 ∧ (after (.throttleStepDown 11) (h.setNow 10000)).fld (Reg.twiTemp 11) Fld.twiTempStep = 2) := by decide +kernel

set_option maxRecDepth 100000 in
theorem witness_die_reset : let s := State.reset.store (firnAddr 384 0) [1];
    let t := after (.singleDieReset (.cirque 3)) s;
    s.dieCut 3 = false ∧ t.dieCut 3 = true ∧ t.mem.cells = [] ∧ (codes t).getLast? = some 0x0702 := by decide +kernel

theorem witness_stack_and_cluster_reset : let t := after (.singleDieReset (.base 7)) State.reset;
    let s := run (regs [(Reg.cirPmCtrl 511, 1)]) 2047 0; let c := after (.clusterReset 511) s;
    State.reset.stackCut 7 = false ∧ t.stackCut 7 = true ∧ (codes t).getLast? = some 0x0702 ∧ c.thread 2047 = {} ∧
    c.reg (Reg.cirPmCtrl 511) = BitVec.ofNat 32 (resetAt (Reg.cirPmCtrl 511)) ∧ (codes c).getLast? = some 0x0702 := by decide +kernel

/-! ## Power and clocks -/

/-- Cluster 511 in a power state, with more registers. -/
def cluster (n : Nat) (l : List (Nat × Nat)) : State :=
  regs ([(Reg.pwrCfg, put Fld.pwrCfgP1en 1 + put Fld.pwrCfgP2en 1), (Reg.cirPmStatus 511, put Fld.cirPmStatusState n)] ++ l)

theorem witness_cluster_power : let p := [(Reg.stgPartCtrl 63, 1), (Reg.stgPartMap 63 15, 2 ^ 31)];
    let s := cluster 0 p; let o := cluster 0 []; let b := run s 2046 0;
    let st := fun (u : State) => (u.pmState 511, u.pmHeld 511); let e := fun (c : Instr) (u : State) => (after c u).power.entries;
    let done := fun (c : Instr) (u : State) => st (after c u).idle;
    s.pmEntry 511 = none ∧ s.partOf 511 = some 63 ∧ s.clusterIdle 511 = true ∧ s.mayPs2 511 = true ∧
    e (.clusterIdlePs1 511) s = [(511, 1, false)] ∧ done (.clusterIdlePs1 511) s = (1, false) ∧
    e (.clusterIdlePs2 511) s = [(511, 2, false)] ∧ done (.clusterIdlePs2 511) (cluster 1 p) = (2, false) ∧
    o.partOf 511 = none ∧ e (.unassignedClusterSleep 511) o = [(511, 2, false)] ∧ done (.unassignedClusterSleep 511) o = (2, false) ∧
    e (.cirPmHold 511 2) s = [(511, 2, true)] ∧ done (.cirPmHold 511 2) s = (2, true) ∧
    st (after (.cirPmHold 511 1) (cluster 1 p)) = (1, true) ∧ b.clusterIdle 511 = false ∧ codes (after (.cirPmHold 511 1) b) = [0x0700] ∧
    st (after (.clusterWake 511) (cluster 1 p)) = (0, false) ∧ st (after (.clusterWake 511) (cluster 2 p)) = (0, false) := by decide +kernel

theorem witness_cluster_abort : let s := cluster 0 [(Reg.stgPartCtrl 63, 1), (Reg.stgPartMap 63 15, 2 ^ 31)];
    let u := after (.clusterWake 511) (s.beginPm 511 2 false); let h := after (.clusterWake 511) (after (.cirPmHold 511 1) s);
    (s.beginPm 511 2 false).pmEntry 511 = some (2, false) ∧ u.pmEntry 511 = none ∧ u.pmState 511 = 0 ∧ codes u = [] ∧
    u.reg (Reg.pwrRefused 1) = 1 ∧ h.pmEntry 511 = none ∧ codes h = [0x0700] ∧ h.fld (Reg.cirPmCtrl 511) Fld.cirPmCtrlReq = 0 := by
  decide +kernel

theorem witness_die_power : let s := unlocked .bridge (regs [(Reg.pwrDie 3, 0)]); let e := s.setPower { entering := [3] };
    let p := regs [(Reg.pwrDie 3, put Fld.pwrDiePs3 1)];
    let r := unlocked .bridge (regs ([3, 2 * 3, 2 * 3 + 1, 10, 12, 13, 17].map fun n => (Reg.twiLstatus n, put Fld.twiLstatusState 3)));
    let a := after (.ps3Request ⟨3, .bridge⟩) r; let n := after (.ps3Request ⟨3, .bridge⟩) s; let w := after (.dieWake 3 none) p;
    s.mayAccess 4 (Reg.pwrDie 3) true = true ∧ s.inPs3 3 = false ∧ s.lockOpen 4 = true ∧ r.epochRefuser = none ∧ r.dieRefuser 3 = none ∧
    a.power.entering = [3] ∧ a.fld (Reg.pwrDie 3) Fld.pwrDieReq = 1 ∧ a.lockOpen 4 = false ∧
    s.dieRefuser 3 ≠ none ∧ codes n = [0x0700] ∧ n.lockOpen 4 = false ∧ codes (after (.ps3Request ⟨3, .bridge⟩) (regs [])) = [0x0006] ∧
    (after (.ps3EntryComplete 3) e).inPs3 3 = true ∧ codes (after (.dieWake 3 none) e) = [0x0700] ∧
    (after (.dieWake 3 none) e).power.entering = [] ∧ (after (.pllLocked (.core 3)) p) = p ∧ p.inPs3 3 = true ∧
    w.pmState 511 = 2 ∧ w.fld (Reg.pwrDie 3) Fld.pwrDieWaking = 1 := by decide +kernel

set_option maxRecDepth 100000 in
theorem witness_standby :
    let s := unlocked .bridge ((regs ((upFrom 0 4).map fun d => (Reg.pwrDie d, put Fld.pwrDiePs3 1))).setPower { rails := upFrom 0 11 });
    let r := unlocked .bridge State.reset; let t := after (.standbyRequest .bridge) s;
    s.mayAccess (openerNat .bridge) Reg.pwrPkg true = true ∧ s.standbyRefuser (openerNat .bridge) = none ∧ t.power.standby = true ∧
    t.power.rails = [0, 1, 2, 3] ∧ t.out = [7, 8, 9, 10, 6, 5, 4].map (fun x => .rail x false) ∧
    r.standbyRefuser (openerNat .bridge) ≠ none ∧ codes (after (.standbyRequest .bridge) r) = [0x0700] ∧
    codes (after (.standbyRequest .bridge) State.reset) = [0x0006] := by decide +kernel

/-- A package whose flash is erased. -/
def erased : State := State.reset.setFlash {}

/-- A start whose clock and identity are good, and whose rails come up. -/
def boot : BootEnv :=
  { pufGood := true, refclkGood := true, stalls := [], damaged := [], trained := [], caps := [], bootMs := 5 }

theorem witness_starts : let b := boot;
    b.stalls = [] ∧ b.refclkGood = true ∧ b.pufGood = true ∧ erased.config = [] ∧
    ([1, 0, 2, 3, 4, 5].all fun i => (erased.imageUse i).isSome) = false ∧
    State.reset.mayStart = true ∧ (State.reset.setPower { railsOff := true }).mayStart = false ∧
    (let s := (regs [(Reg.pwrPkg, put Fld.pwrPkgLightwake 8 + put Fld.pwrPkgI2cwake 1)]).setPower { standby := true };
      s.mayStart = true ∧ s.power.standby = true ∧ bit (s.fld Reg.pwrPkg Fld.pwrPkgLightwake) 3 = true ∧
      s.fld Reg.pwrPkg Fld.pwrPkgI2cwake = 1) := by decide +kernel

set_option maxRecDepth 100000 in
theorem witness_cold_start : let t := after (.powerOnReset boot) erased;
    let st := fun (b : BootEnv) => (after (.powerOnReset b) erased).fld Reg.pwrBoot Fld.pwrBootStage;
    t.fld Reg.pwrBoot Fld.pwrBootStage = 2 ∧ t.power.rails = upFrom 0 11 ∧ st { boot with refclkGood := false } = 0 ∧
    st { boot with pufGood := false } = 1 := by decide +kernel

theorem witness_rails : let s := regs [(Reg.clkVfp 0, put Fld.clkVfpMv 700), (Reg.pwrVset 3, 0)];
    let k := regs [(Reg.clkStatus, put Fld.clkStatusRefok 1 + put Fld.clkStatusCorelock 8 + put Fld.clkStatusHublock 1)];
    let o := k.setPower { oscOff := [3] };
    s.targetMv 3 = 700 ∧ (after (.railSettled 3 710) s).fld (Reg.pwrVset 3) Fld.pwrVsetSettled = 1 ∧
    (after (.railSettled 3 689) s).fld (Reg.pwrVset 3) Fld.pwrVsetSettled = 0 ∧ s.fld (Reg.pwrVset 3) Fld.pwrVsetSettled = 0 ∧
    codes (after (.railSettleTimeout 3) s) = [0x0005] ∧ (after (.pllLocked .ref) s).fld Reg.clkStatus Fld.clkStatusRefok = 1 ∧
    after (.pllLocked .hub) s = s ∧ (after (.pllLocked .hub) (after (.pllLocked .ref) s)).fld Reg.clkStatus Fld.clkStatusHublock = 1 ∧
    codes (after (.clockLoss (.corePll 3) boot) k) = [0x0703] ∧ (after (.clockLoss .refclk boot) k).reg Reg.clkStatus = 0 ∧
    codes (after (.clockLoss (.oscillator 3) boot) k) = [0x0703] ∧ o.power.oscOff.contains 3 = true ∧ o.inPs3 3 = false ∧
    degrees 105 = 105 ∧ codes (after (.thermalForce 3 true 105) s) = [0x0502] ∧
    codes (after (.thermalForce 3 true 104) s) = [] ∧ (after (.thermalForce 3 true 105) s).fld (Reg.pwrVset 3) Fld.pwrVsetForced = 1 ∧
    (after (.forcedClear 3) s).fld (Reg.pwrVset 3) Fld.pwrVsetForced = 0 ∧
    (after (.vcoreRestored 3) (s.setPower { railDown := [3] })).power.railDown = [] := by decide +kernel

set_option maxRecDepth 100000 in
theorem witness_trip : let s := regs [(Reg.pwrTrip, put Fld.pwrTripMargin 5)];
    sensorLimit 16 + s.fld Reg.pwrTrip Fld.pwrTripMargin ≤ degrees 110 ∧ (after (.thermalTrip 16 110 false) s).power.standby = true ∧
    (after (.thermalTrip 16 109 false) s).power.standby = false ∧ (after (.thermalTrip 16 105 true) s).power.alert = true := by decide +kernel

set_option maxRecDepth 100000 in
theorem witness_rail_faults : let s := erased; let p : PendingStart := { kind := 1, cold := true, rail := 10, env := boot };
    let n := s.setPower { railTries := 1, rails := upFrom 0 10, start := some p }; let f := s.setPower { rails := upFrom 0 11 };
    let r := s.setPower { rails := upFrom 0 10, start := some p };
    (after (.railPgTimeout 10) r).power.railTries = 0 ∧ (after (.railPgTimeout 10) r).power.rails = upFrom 0 11 ∧
    (after (.railPgTimeout 10) n).power.rails = [] ∧ (after (.railPgTimeout 10) n).power.railsOff = true ∧ after (.railPgTimeout 9) n = n ∧
    f.enterStandby.power.rails = upFrom 0 4 ∧ (after (.hbmRailFault 3) s).power.alert = true := by decide +kernel

set_option maxRecDepth 100000 in
theorem witness_core_rail : let s := regs [(Reg.pwrBoot, put Fld.pwrBootStage 12), (Reg.clkVfp 0, put Fld.clkVfpMv 700), (Reg.pwrVset 3, 0)];
    s.running = true ∧ s.lowTarget 3 = 700 ∧ (after (.vcoreFault ⟨3, some 639⟩) s).dieCut 3 = true ∧ (after (.vcoreFault ⟨3, some 640⟩) s).dieCut 3 = false ∧
    (after (.vcoreFault ⟨3, none⟩) s).power.railDown = [3] ∧ (s.setPower { standby := true }).running = false := by decide +kernel

theorem witness_sideband : let s := regs [(Reg.pwrBoot, put Fld.pwrBootStage 11)];
    let out := fun c => (after c s).out;
    s.i2cServes 0 = false ∧ out (.i2cRegRead 0) = [.i2cNack] ∧ s.i2cServes 0x10000 = true ∧ accessStatus 0x10000 = 0 ∧
    s.i2cServes 0x2FFFC = true ∧ s.i2cServes 0x30000 = false ∧
    (out (.i2cRegRead 0x10000)).length = 1 ∧ (out .i2cStatus).length = 1 ∧ out (.i2cFlashRead 0 257) = [.i2cNack] ∧
    (out (.i2cFlashRead 0xFFFFFFFF 256)).length = 1 := by decide +kernel

theorem witness_flash : let s := State.reset;
    let w := after (.i2cFlashErase 0x1FFFF) s; let p := after (.i2cFlashWrite 0x10000 [0xF0, 0x5A]) w;
    s.flash.wf = true ∧ w.flashBytes 0x10000 2 = [0xFF, 0xFF] ∧ p.flashBytes 0x10000 2 = [0xF0, 0x5A] ∧
    (after (.i2cFlashWrite 0x10000 [0x3C]) p).flashBytes 0x10000 1 = [0x30] ∧ (after (.i2cFlashErase 0xFFFF) s).out = [.i2cNack] := by
  decide +kernel

/-! ## Events, time and integrity -/

theorem witness_events : let e : Event := { time := 0, code := 0x0301, job := none, unit := 0, index := 0, arg0 := 0, arg1 := 0 };
    let s := State.reset.setLog { raised := [e], next := 7 };
    let q := (regs [(Reg.timEvCfg, put Fld.timEvCfgBurst 1)]).setLog { raised := [{ e with code := 0x0404 }], logged := [(0x0404, 1)], lost := [(0x0404, 2)] };
    s.suppressed 0x0301 = false ∧ (after .eventLogDeliver s).log.held.map Prod.fst = [7] ∧ (after .eventLogDeliver s).log.next = 8 ∧
    q.suppressed 0x0404 = true ∧ (after .eventLogDeliver q).log.held = [] ∧ (after .eventLogDeliver q).log.lost.get 0 0x0404 = 3 ∧
    codes (after .suppressionWindowEnd q) = [0x0404, 0x0002] := by decide +kernel

theorem witness_time : let s := (regs []).setNow 5; let c := (regs [(Reg.lnkTimeCfg, 1)]).setNow 5;
    s.timeSettable = true ∧ (after (.timSet 5) s).now = 5 ∧ codes (after (.timSet 6) s) = [0x0009] ∧ (after (.timSet 6) s).now = 6 ∧
    (after (.timSet 4) s).now = 5 ∧ c.timeSettable = false ∧ (after (.timSet 6) c).now = 5 := by decide +kernel

theorem witness_integrity : let s := regs [(Reg.cfiStatus, put Fld.cfiStatusStale 31)];
    let a : Attempt := { snap := [], waiting := [] };
    let w := s.setHub { attempt := some a };
    s.mayAccess (openerNat .bridge) Reg.cfiUnlock true = true ∧ (after (.cfiUnlock .bridge 0 0xC5A3) s).lockOpen 4 = true ∧
    (after (.cfiUnlock .bridge 0 0xC5A2) s).reg Reg.cfiKeyfail = 1 ∧ after (.cfiUnlock .bridge 3 0xC5A3) s = s ∧ s.hub.attempt = none ∧
    s.sweepSkipped 4 = false ∧ bit ((after (.cfiCommit 31 true) s).fld Reg.cfiStatus Fld.cfiStatusArmed) 4 = true ∧
    (after (.cfiCommit 31 true) s).hub.learn = [0, 1, 2, 3, 4] ∧ (after (.cfiCommit 16 false) w).hub.commits = [(16, false)] := by decide +kernel

/-- A sweep does not read its own reference. -/
theorem sweepCrc_setReg (s : State) (v : W32) : (s.setReg (Reg.cfiRef 4) v).sweepCrc 4 = s.sweepCrc 4 := by
  have h : (s.setReg (Reg.cfiRef 4) v).sweepBytes = s.sweepBytes := by
    funext o
    by_cases e : canonOff o = Reg.cfiRef 4
    · have d : o = Reg.cfiRef 4 := by
        unfold canonOff at e
        split at e
        · exact absurd e (by decide)
        · exact e
      have c : (regAt (Reg.cfiRef 4)).map RegDef.cfg = some 0 := by decide +kernel
      cases r : regAt (Reg.cfiRef 4) with
      | none => simp [r] at c
      | some x => simp [r] at c; simp [State.sweepBytes, d, r, c]
    · simp only [State.sweepBytes, State.areg]; rw [State.reg_setReg_ne s v e]; rfl
  unfold State.sweepCrc; rw [h]

theorem witness_sweep : ∃ s : State, s.sweepSkipped 4 = false ∧ s.hub.learn.contains 4 = false ∧
    bit (s.fld Reg.cfiStatus Fld.cfiStatusArmed) 4 = true ∧ bit (s.fld Reg.cfiStatus Fld.cfiStatusStale) 4 = false ∧
    bit (s.fld Reg.cfiStatus Fld.cfiStatusDrift) 4 = false ∧ s.reg (Reg.cfiRef 4) ≠ s.sweepCrc 4 := by
  let s := regs [(Reg.cfiStatus, put Fld.cfiStatusArmed 16)]
  by_cases h : (0 : W32) = s.sweepCrc 4
  · refine ⟨s.setReg (Reg.cfiRef 4) 1, by decide +kernel, by decide +kernel, by decide +kernel, by decide +kernel, by decide +kernel, ?_⟩
    rw [sweepCrc_setReg, ← h]; decide +kernel
  · refine ⟨s.setReg (Reg.cfiRef 4) 0, by decide +kernel, by decide +kernel, by decide +kernel, by decide +kernel, by decide +kernel, ?_⟩
    rw [sweepCrc_setReg]
    exact fun e => h ((by decide +kernel : (0 : W32) = (s.setReg (Reg.cfiRef 4) 0).reg (Reg.cfiRef 4)).trans e)

/-! ## Pliand host ports -/

/-- Port 3 in a state, with rings 3 and the message ring of 64 units enabled, and more registers. -/
def hport (st : Nat) (l : List (Nat × Nat)) : State :=
  regs ([(Reg.plhStatus 3, st), (Reg.plhSqCtrl 3 3, 1), (Reg.plhSqSize 3 3, 65536), (Reg.plhCqSize 3 3, 65536), (Reg.plhMqCtrl 3, 1),
    (Reg.plhMqSize 3, 1)] ++ l)

theorem witness_doorbells : let s := hport 2 [(Reg.plhCqState 3 3, 65535), (Reg.plhSqState 3 3, 65534 * 65537)]; let d := hport 2 [(Reg.plhMqState 3, 63)];
    let n := hport 2 [(Reg.plhSqSize 3 3, 2)];
    s.portUp 3 = true ∧ s.sqOn 3 3 = true ∧ s.sqOn 3 0 = false ∧
    (after (.doorbellReceive 3 3 65535) s).fld (Reg.plhSqState 3 3) Fld.plhSqStateTail = 65535 ∧
    codes (after (.doorbellReceive 3 3 2) (hport 2 [(Reg.plhSqSize 3 3, 2)])) = [0x0600] ∧
    (after (.doorbellReceive 3 3 2) n).fld (Reg.plhSqState 3 3) Fld.plhSqStateTail = 1 ∧ headOk 65535 65536 65535 0 = true ∧
    (after (.doorbellReceive 3 7 65535) s).fld (Reg.plhCqState 3 3) Fld.plhCqStateHead = 65535 ∧ headOk 65536 65536 65535 0 = false ∧
    (after (.doorbellReceive 3 7 65536) s).reg (Reg.plhViol 3) = 1 ∧ headOk 63 (d.mqUnits 3) 63 0 = true ∧
    (after (.doorbellReceive 3 8 63) d).fld (Reg.plhMqHead 3) Fld.plhMqHeadHead = 63 ∧
    codes (after (.doorbellReceive 3 15 0) s) = [0x0600] ∧ codes (after (.doorbellReceive 3 0 0) s) = [0x0600] := by decide +kernel

theorem witness_poll : let w := fun n => (upFrom 0 n).foldl (fun (t : Tbl Nat) i => t.put 0 i 1) [];
    let s := (hport 2 []).setPort 3 { words := w 9 }; let t := (hport 2 []).setPort 3 { words := w 8 };
    let word := fun (s : State) (w : Nat) => leNat (s.bytes (hostBase 3 + s.reg64 (Reg.plhDbAddr 3 0) % 2 ^ 44 / 64 * 64 + 4 * w) 4);
    (∀ i ∈ upFrom 0 9, (s.port 3).words.get 0 i = word s i + 1) ∧ after (.doorbellPoll 3) s = s ∧
    (∀ i ∈ upFrom 0 8, (t.port 3).words.get 0 i = word t i + 1) ∧ (t.port 3).words.get 0 8 ≠ word t 8 + 1 ∧
    ((after (.doorbellPoll 3) t).port 3).words.get 0 8 = 1 := by decide +kernel

theorem witness_read_data : let s := (hport 2 []).setPort 3 { reads := [⟨5, none, hostBase 3, 1, 0⟩, ⟨6, some 3, hostBase 3, 64, 9⟩] };
    codes (after (.readDataReceive 3 5 false [1, 2]) s) = [0x0600] ∧
    (after (.readDataReceive 3 5 false [7]) s).bytes (hostBase 3) 1 = [7] ∧
    ((after (.readDataReceive 3 6 false (leBytes 64 1)) s).sqRing 3 3).fetched = [(9, leBytes 64 1)] ∧
    (∀ q ∈ upFrom 0 4, (s.port q).amsgs = []) ∧ (∀ st ∈ upFrom 0 8, (s.stack st).cmds = []) := by decide +kernel

theorem witness_read_order : let s := (hport 2 []).setPort 3 { reads := [⟨6, some 3, hostBase 3, 64, 9⟩, ⟨7, some 3, hostBase 3 + 64, 64, 10⟩] };
    let t := after (.readDataReceive 3 7 false (leBytes 64 2)) s;
    (s.sqRing 3 3).early = [] ∧ (t.sqRing 3 3).fetched = [] ∧ (t.sqRing 3 3).early = [(7, [(10, leBytes 64 2)])] ∧
    ((after (.readDataReceive 3 6 false (leBytes 64 1)) t).sqRing 3 3).fetched = [(9, leBytes 64 1), (10, leBytes 64 2)] ∧
    ((after (.readDataReceive 3 6 false (leBytes 64 1)) t).sqRing 3 3).early = [] := by decide +kernel

/-- Port 3 whose ring 3 begins with an entry at index 9: operation, flags and the rest. -/
def entry (op fl rest : Nat) (l : List (Nat × Nat)) : State :=
  (hport 2 l).setSqRing 3 3 { fetched := [(9, leBytes 64 (op + fl * 2 ^ 8 + 0xABCD * 2 ^ 16 + rest))] }

/-- How the entry ended. -/
def ended (s : State) : Option (Option Completion) := (s.items.live.find? fun i => i.id == 0).map Item.comp

theorem witness_entries_end : let f := (entry 0 1 0 []).setSqRing 3 3 { (entry 0 1 0 []).sqRing 3 3 with failed := true };
    let n := entry 0 2 0 [];
    (f.frontEntry 3 3).isSome = true ∧ f.fenceBad 3 3 = true ∧ ended (after (.sqNop 3 3) f) = some (some { status := .aborted, detail := 1 }) ∧
    ended (after (.sqTab 3 3) (entry 4 4 0 [])) = some (some (malformed 10)) ∧
    ended (after (.sqNop 3 3) (entry 6 0 0 [])) = some (some (malformed 0)) ∧ ended (after (.sqNop 3 3) n) = some (some {}) ∧
    n.entryBegun (after (.sqNop 3 3) n) 3 3 9 (leBytes 64 (2 * 2 ^ 8 + 0xABCD * 2 ^ 16)) (some {}) := by
  refine ⟨by decide +kernel, by decide +kernel, by decide +kernel, by decide +kernel, by decide +kernel, by decide +kernel, ?_⟩
  exact ⟨{ id := 0, unit := 0x0010, index := 3, chan := 3, ordered := false, owner := .entry 3 3 9 0xABCD true, parts := 1, comp := some {} },
    by decide +kernel⟩

theorem witness_sq_copy : let d := leBytes 32 (firnBase + (firnBase + 4096) * 2 ^ 64 + 64 * 2 ^ 128 + 2 ^ 160);
    let s := entry 1 0 (leNat d * 2 ^ 64) [];
    (parseDesc d).after = false ∧ (parseDesc d).ch = 0 ∧ descFault d = none ∧ ended (after (.sqCopy 3 3) s) = some none ∧
    ((after (.sqCopy 3 3) s).chan 515 0).queue = [{ item := 0, desc := d, job := some 0 }] := by decide +kernel

/-- A context of partition 63 that runs, with HOST queues. -/
def hostCtx : List (Nat × Nat) :=
  partRegs 63 ++ [(Reg.stgCtxStatus 255, 2), (Reg.stgqCfg 255 0, 3), (Reg.stgqCfg 255 1, 3), (Reg.stgqSlot 255 0, 1), (Reg.stgqSlot 255 1, 1)]

theorem witness_sq_feed : let s := fun len src st => entry 2 0 (255 * 2 ^ 64 + len * 2 ^ 96 + 77 * 2 ^ 128 + src * 2 ^ 256) (hostCtx ++ [(Reg.stgCtxStatus 255, st)]);
    let ok := s 64 (hostBase 3) 2;
    ok.partJob 63 = ok.portJob 3 ∧ ok.qKind 255 0 = 3 ∧ 64 ≤ ok.qBytes 255 0 ∧ ok.ctxDead 255 = false ∧
    ok.rangeFault (some (ok.portJob 3)) (hostBase 3) 64 = none ∧ ended (after (.sqFeed 3 3) ok) = some none ∧
    ((after (.sqFeed 3 3) ok).queue 255 0).feeds.map (fun f => (f.item, f.len, f.mb, f.started)) = [(0, 64, 77, false)] ∧
    ended (after (.sqFeed 3 3) (s 0 (hostBase 3) 2)) = some (some { status := .empty }) ∧
    ended (after (.sqFeed 3 3) (s 64 (hostBase 3) 5)) = some (some { status := .queueDead }) ∧
    (s 64 (2 ^ 47) 2).rangeFault (some 0) (2 ^ 47) 64 = some (2 ^ 47) ∧
    ended (after (.sqFeed 3 3) (s 64 (2 ^ 47) 2)) = some (some (addressFault (2 ^ 47))) := by decide +kernel

theorem witness_sq_post : let b := (hostCtx, 64 + (entry 0 0 0 hostCtx).qBytes 255 1);
    let s := entry 3 0 (255 * 2 ^ 64 + 2 ^ 72 + b.2 * 2 ^ 128 + hostBase 3 * 2 ^ 256) b.1;
    s.ctxDead 255 = false ∧ (hostPortOf (hostBase 3)).isSome = true ∧ s.rangeFault (some (s.portJob 3)) (hostBase 3) b.2 = none ∧
    ended (after (.sqPost 3 3) s) = some none ∧ ((after (.sqPost 3 3) s).queue 255 1).posts = [⟨hostBase 3, b.2, 0⟩] := by decide +kernel

theorem witness_sq_tab : let s := fun o l => entry 4 0 (63 * 2 ^ 64 + o * 2 ^ 72 + 1023 * 2 ^ 80) (partRegs 63 ++ [(Reg.stgTabLen 63, 1024)] ++ l);
    let run := (s 2 []).setTab 63 1;
    (s 0 []).partJob 63 = (s 0 []).portJob 3 ∧ ((s 0 []).setFld (Reg.stgTabCtrl 63) Fld.stgTabCtrlEntry 1023).startBad 63 = false ∧
    (after (.sqTab 3 3) (s 0 [])).tab 63 = 1 ∧ ended (after (.sqTab 3 3) (s 0 [])) = some (some {}) ∧
    ended (after (.sqTab 3 3) (s 0 [(Reg.stgTabLen 63, 1023)])) = some (some (malformed 72)) ∧
    ended (after (.sqTab 3 3) ((s 1 [(Reg.stgTabIter 63, put Fld.stgTabIterLeft 3)]).setTab 63 2)) = some (some {}) ∧
    (after (.sqTab 3 3) ((s 1 [(Reg.stgTabIter 63, put Fld.stgTabIterLeft 3)]).setTab 63 2)).tab 63 = 1 ∧
    ended (after (.sqTab 3 3) (s 2 [])) = some (some {}) ∧ ended (after (.sqTab 3 3) run) = some none ∧
    ((after (.sqTab 3 3) run).part 63).pendingStop = true := by decide +kernel

theorem witness_entries_more : let b := 64 + (entry 0 0 0 hostCtx).qBytes 255 1;
    let p := fun dst l => entry 3 0 (255 * 2 ^ 64 + 2 ^ 72 + b * 2 ^ 128 + dst * 2 ^ 256) (hostCtx ++ l);
    let tab := fun o => entry 4 0 (63 * 2 ^ 64 + o * 2 ^ 72 + 2 ^ 96 + 7 * 2 ^ 128) (partRegs 63 ++ [(Reg.stgTabLen 63, 1024)]);
    let f : Feed := { addr := hostBase 2, len := 64, mb := 77, flags := 0, fmt := 0, item := 7, ready := true };
    let g := (regs hostCtx).setQueue 255 0 { feeds := [f] };
    ended (after (.sqPost 3 3) (p (hostBase 3) [(Reg.stgCtxStatus 255, 5)])) = some (some { status := .queueDead }) ∧
    ended (after (.sqPost 3 3) (p firnBase [])) = some (some (addressFault firnBase)) ∧
    (p (hostBase 2) []).rangeFault (some 0) (hostBase 2) b = some (hostBase 2) ∧
    ended (after (.sqPost 3 3) (p (hostBase 2) [])) = some (some (addressFault (hostBase 2))) ∧
    ended (after (.sqTab 3 3) ((tab 0).setTab 63 1)) = some (some (malformed 72)) ∧ codes (after (.sqTab 3 3) ((tab 0).setTab 63 1)) = [0x0004] ∧
    (after (.sqTab 3 3) (tab 0)).reg (Reg.stgTabStep 63) = 7 ∧ ended (after (.sqTab 3 3) (tab 1)) = some (some (malformed 72)) ∧
    (after (.sqTab 3 3) (tab 1)).reg (Reg.stgTabStep 63) = 0 ∧
    (after (.sqTab 3 3) (tab 2)).reg (Reg.stgTabStep 63) = 7 ∧
    g.hostGone f.addr = true ∧ ((after (.feedAdmit 255 0) g).queue 255 0).feeds = [] := by decide +kernel

theorem witness_sq_amsg : let s := fun len pay => entry 5 0 (511 * 2 ^ 64 + 1023 * 2 ^ 80 + len * 2 ^ 96 + pay * 2 ^ 128) [(Reg.plhStatus 0, 2)];
    let ok := s 16384 (hostBase 0);
    ok.rangeFault (some (ok.portJob 3)) (hostBase 0) 16384 = none ∧ hostPortOf (hostBase 0) = some 0 ∧ ok.portState 0 ≠ 3 ∧
    ((after (.sqAmsg 3 3) ok).port 3).amsgs.map (fun w => (w.item, w.addr, w.len)) = [(0, hostBase 0, 16384)] ∧
    (after (.sqAmsg 3 3) ok).out.head? = some (.readReq 0 0 0 4096) ∧
    ended (after (.sqAmsg 3 3) (s 1 (2 ^ 47))) = some (some (addressFault (2 ^ 47))) ∧
    (let h := (s 16384 (hostBase 0)).setReg (Reg.plhStatus 0) 3; after (.sqAmsg 3 3) h = h) ∧
    (s 0 (hostBase 0)).rangeFault (some ((s 0 (hostBase 0)).portJob 3)) (hostBase 0) 0 = none ∧ ((s 0 (hostBase 0)).port 3).amsgs = [] ∧
    (s 0 (hostBase 0)).badByte (hostBase 0) 0 = none ∧
    ((after (.sqAmsg 3 3) (s 0 (hostBase 0))).ring 511).waits.map (fun w => (w.msg.handler, w.msg.payload)) = [(1023, [])] := by decide +kernel

theorem witness_feed_turn : let f : Feed := { addr := hostBase 3, len := 64, mb := 77, flags := 0, fmt := 0, item := 7 };
    let s := ((regs hostCtx).setReg (Reg.plhStatus 3) 2).setQueue 255 0 { feeds := [f], fed := 0xFFFFFFFF };
    let r := s.settleFeeds 255 0; let g := r.setReg (Reg.plhStatus 3) 3; let t := after (.feedAdmit 255 0) s;
    let h := (s.setReg (Reg.stgCtxStatus 255) 0);
    s.ctxRuns 255 = true ∧ nextFeed [f] = some f ∧ (s.queue 255 0).held + 0 < s.qCap 255 0 ∧ (r.queue 255 0).feeds = [{ f with ready := true }] ∧
    s.hostGone f.addr = false ∧ s.hostHeld f.addr = false ∧ g.hostGone f.addr = false ∧ g.hostHeld f.addr = true ∧
    after (.feedAdmit 255 0) g = g ∧ after (.feedAdmit 255 0) h = h ∧ (t.queue 255 0).fed = 0 ∧
    (t.queue 255 0).feeds = [{ f with ready := true, started := true, seq := 0xFFFFFFFF }] := by decide +kernel

theorem witness_mq : let r : MqRec := { bytes := leBytes 64 9, event := false };
    let s := fun t h b => (hport 2 [(Reg.plhMqState 3, t + put Fld.plhMqStatePhase 1), (Reg.plhMqHead 3, h)]).setPort 3 { recs := [{ r with bytes := b }] };
    let one := s 62 0 (leBytes 64 9); let pad := s 63 3 (leBytes 128 9); let full := s 62 63 (leBytes 64 9);
    let st := fun (u : State) => (u.fld (Reg.plhMqState 3) Fld.plhMqStateTail, u.fld (Reg.plhMqState 3) Fld.plhMqStatePhase);
    one.portUp 3 = true ∧ one.mqOn 3 = true ∧ one.mqUnits 3 = 64 ∧ st (after (.mqRecordWrite 3) one) = (63, 1) ∧
    (after (.mqRecordWrite 3) one).bytes (hostBase 3 + 62 * 64) 2 = [9, 1] ∧ st (after (.mqRecordWrite 3) pad) = (2, 0) ∧
    (after (.mqRecordWrite 3) pad).bytes (hostBase 3 + 63 * 64) 2 = [1, 1] ∧ (after (.mqRecordWrite 3) pad).bytes (hostBase 3) 2 = [9, 0] ∧
    after (.mqRecordWrite 3) full = full ∧ st (after (.mqRecordWrite 3) (s 63 3 (leBytes 64 9))) = (0, 0) := by decide +kernel

/-- The record of a SLOT that needs no payload, and one of two units: Table 13-8. -/
theorem witness_slot_records : let f : Flight := { slot := 0, len := 0, seq := 0, item := 7 }; let r : MqRec := { bytes := leBytes 128 9, event := false, slot := some (255, 1) };
    let s := fun t h => ((hport 2 [(Reg.plhMqState 3, t + put Fld.plhMqStatePhase 1), (Reg.plhMqHead 3, h)]).setPort 3 { recs := [r] }).setQueue 255 1 { flights := [f] };
    let fit := after (.mqRecordWrite 3) (s 61 0); let pad := after (.mqRecordWrite 3) (s 63 3);
    (fit.queue 255 1).flights = [{ f with wrote := some 3 }] ∧ (fit.port 3).recs = [] ∧ fit.fld (Reg.plhMqState 3) Fld.plhMqStateTail = 63 ∧
    (pad.queue 255 1).flights = [{ f with wrote := some 3 }] ∧ pad.bytes (hostBase 3 + 63 * 64) 2 = [1, 1] ∧ pad.bytes (hostBase 3) 2 = [9, 0] ∧
    pad.fld (Reg.plhMqState 3) Fld.plhMqStateTail = 2 ∧ after (.mqRecordWrite 3) (s 62 0) = s 62 0 ∧ after (.mqRecordWrite 3) (s 63 2) = s 63 2 := by
  decide +kernel

theorem witness_holdoff : let s := (hport 2 [(Reg.plhIrq 3, 16)]).setPort 3 { irqMore := [4] }; let n := (hport 2 []).setPort 3 { irqMore := [4] };
    (after (.interruptHoldoffEnd 3 4) s).out = [.interrupt 3 4] ∧ ((after (.interruptHoldoffEnd 3 4) s).port 3).irqMore = [] ∧
    after (.interruptHoldoffEnd 3 4) n = n := by decide +kernel

theorem witness_port_enable : let s := unlocked .bridge (hport 2 [(Reg.plhCfg 3, 1)]); let l := hport 2 [(Reg.plhCfg 3, 1)]; let o := Opener.bridge;
    s.mayAccess (openerNat o) (Reg.plhCfg 3) true = true ∧ s.lockOpen (openerNat o) = true ∧ l.lockOpen (openerNat o) = false ∧
    (after (.plhPortEnable 3 ⟨false, o⟩) s).portState 3 = 0 ∧ (after (.plhPortEnable 3 ⟨false, o⟩) s).lockOpen (openerNat o) = false ∧
    (after (.plhPortEnable 3 ⟨true, o⟩) (unlocked o (hport 0 []))).fld (Reg.plhCfg 3) Fld.plhCfgEn = 1 ∧
    (after (.plhPortEnable 3 ⟨false, o⟩) l).portState 3 = 2 ∧ codes (after (.plhPortEnable 3 ⟨false, o⟩) l) = [0x0006] ∧
    l.mayAccess (openerNat (.port 2)) (Reg.plhCfg 3) true = false ∧ codes (after (.plhPortEnable 3 ⟨false, .port 2⟩) l) = [0x0601] := by
  decide +kernel

theorem witness_ports : let s := fun st => hport st [(Reg.plhCfg 3, 1)];
    (s 0).portState 3 = 0 ∧ (after (.portLightDetect 3) (s 0)).portState 3 = 1 ∧ after (.portLightDetect 3) (hport 0 []) = hport 0 [] ∧
    after (.portLightDetect 3) (s 2) = s 2 ∧ (s 1).chans = [] ∧
    (∀ k ∈ upFrom 0 4, ((s 1).sqRing 3 k).cqWait = []) ∧ (after (.adapterStatusReceive 3 5) (s 1)).portState 3 = 2 ∧
    (after (.adapterStatusReceive 3 0) (s 3)).portState 3 = 2 ∧ (after (.adapterStatusReceive 3 1) (s 3)).portState 3 = 0 ∧
    (after (.portGraceExpired 3) (s 3)).portState 3 = 0 ∧ (after (.pliandLaneLockLost 3) (s 2)).portState 3 = 3 ∧
    (after (.pollCfgSend 3) (s 2)).out.length = 1 ∧ (codes (after (.hostPortReset 3) (s 2))).getLast? = some 0x0702 := by
  decide +kernel

theorem witness_rings : let s := hport 2 [(Reg.plhCfg 3, 1), (Reg.plhSqSize 3 2, 2), (Reg.plhCqSize 3 2, 2)];
    let b := hport 2 [(Reg.plhSqSize 3 2, 1), (Reg.plhCqSize 3 2, 2), (Reg.plhMqCtrl 3, 0)];
    let m := hport 2 [(Reg.plhCfg 3, 1), (Reg.plhMqCtrl 3, 0)];
    s.sqOn 3 2 = false ∧ (after (.plhSqEnable 3 2 true) s).sqOn 3 2 = true ∧ (after (.plhSqEnable 3 2 true) b).sqOn 3 2 = false ∧
    (after (.plhSqEnable 3 2 true) b).fld (Reg.plhStatus 3) Fld.plhStatusCfgErr = 2 ∧ s.sqOn 3 3 = true ∧
    (after (.plhSqEnable 3 3 false) s).sqOn 3 3 = false ∧ m.mqOn 3 = false ∧ (after (.plhMqEnable 3 true) m).mqOn 3 = true ∧
    (after (.plhMqEnable 3 true) b).fld (Reg.plhStatus 3) Fld.plhStatusCfgErr = 3 ∧ s.mqOn 3 = true ∧
    (after (.plhMqEnable 3 false) s).mqOn 3 = false := by decide +kernel

/-! ## Registers and configuration epochs -/

theorem witness_register_access : let s := State.reset; let off : BitVec 24 := 0x17C008;
    (off.toNat = Reg.lnkTmr 31 ∧ s.mayAccess (openerNat (.port 3)) off.toNat true = false ∧ s.mayAccess (openerNat (.port 3)) off.toNat false = false ∧
      codes (after (.registerWrite (.port 3) 0 off 5) s) = [0x0601] ∧ (after (.registerReadClear (.port 3) off) s).out = [.regValue (.port 3) off.toNat 0]) ∧
    (after (.registerWrite .bridge 0 1 5) s = s ∧ s.isAdmin (openerNat .bridge) = true ∧ (regAt off.toNat).map RegDef.rwk = some 0 ∧
      (after (.registerWrite .bridge 0 off 0x7007) s).reg off.toNat = 0x7007 ∧
      (after (.registerWrite .bridge 3 off 5) (after (.registerWrite .bridge 0 off 0x7007) s)).reg off.toNat = BitVec.ofNat 32 (viewCombine 3 0x7007 5)) ∧
    (let c := regs [(Reg.drfViol, 9)];
      (regAt Reg.drfViol).map RegDef.rc = some 0xFFFFFFFF ∧ (after (.registerReadClear .bridge (BitVec.ofNat 24 Reg.drfViol)) c).reg Reg.drfViol = 0 ∧
      (after (.registerReadClear .bridge (BitVec.ofNat 24 Reg.drfViol)) c).out = [.regValue .bridge Reg.drfViol 9]) := by decide +kernel

set_option maxRecDepth 100000 in
theorem witness_gone_register : let a := Reg.cirPmCtrl 511; let off := BitVec.ofNat 24 a; let d := after (.singleDieReset (.cirque 3)) State.reset;
    d.regGone a = true ∧ d.regGone (Reg.cirPmCtrl 0) = false ∧ d.isAdmin (openerNat .bridge) = true ∧ after (.registerWrite .bridge 0 off 1) d = d := by decide +kernel

theorem witness_mgmt : let s := regs [(Reg.plhStatus 3, 2)]; let a := regs [(Reg.plhStatus 3, 2), (Reg.plhCfg 3, put Fld.plhCfgAdmin 1)];
    let out := fun (s : State) (o : W32) (w : Option W32) => (after (.mgmtReq 3 7 o w) s).out;
    s.portUp 3 = true ∧ out s 1 none = [.mgmtRsp 3 7 2 0] ∧ out s 0x4000000 none = [.mgmtRsp 3 7 3 0] ∧
    s.mayAccess (openerNat (.port 3)) 0x17C008 true = false ∧ out s 0x317C008 (some 1) = [.mgmtRsp 3 7 1 0] ∧
    out a 0x17C008 none = [.mgmtRsp 3 7 0 (a.view 0x17C008)] ∧ out a 0x17C008 (some 5) = [.mgmtRsp 3 7 0 0] ∧
    (after (.mgmtReq 3 7 0x17C008 (some 5)) a).reg 0x17C008 = 5 := by decide +kernel

theorem witness_time_reads : let s := State.reset.setNow 0x5_0000_0007; let t := after (.timNowRead .bridge true) s;
    s.mayAccess (openerNat .bridge) (Reg.timNow 0) false = true ∧ t.out = [.regValue .bridge (Reg.timNow 0) 7] ∧
    (t.hub.latch.find? fun e => e.1 == 4) = some (4, 5) ∧ (after (.timNowRead .bridge false) t).out = t.out ++ [.regValue .bridge (Reg.timNow 1) 5] := by
  decide +kernel

/-- A state with a staged change of EN of link 31, and one in an attempt. -/
def staging : State := (regs []).setReg (Reg.lnkCtrl 31) 1
def attempting (a : Attempt) : State := (regs [(Reg.glbEpochAtt, 9)]).setHub { attempt := some a }

theorem witness_epoch_start : let s := staging; let t := after (.epochAdvance .bridge) s;
    let v : Nat × Nat := (0x0020, 31);
    s.mayAccess (openerNat .bridge) Reg.glbEpochCtrl true = true ∧ s.hub.attempt = none ∧ Reg.lnkCtrl 31 ∈ s.stagedDiffs ∧ s.offCut (Reg.lnkCtrl 31) = false ∧
    v ∈ stagedUnits (Reg.lnkCtrl 31) ∧ s.unitCut v = false ∧ t.hub.attempt = some { snap := [(Reg.lnkCtrl 31, 1)], waiting := [v] } ∧
    t.fld Reg.glbEpochCtrl Fld.glbEpochCtrlState = 1 ∧ codes (after (.epochAdvance .bridge) t) = [0x0004] ∧ after .epochDiscard t = t ∧
    (after .epochDiscard s).reg (Reg.lnkCtrl 31) = 0 := by decide +kernel

theorem witness_epoch_report : let ok := attempting { snap := [(Reg.lnkCtrl 31, 1)], waiting := [(0x0020, 31)] };
    let bad := attempting { snap := [(Reg.stgPartCtrl 63, 1)], waiting := [(0x0030, 63)] };
    let hold := (attempting { snap := [(Reg.morHmap 0, (State.reset.areg (Reg.morHmap 0)) ^^^ 1)], waiting := [(0x0200, 7)] }).setStack 7
      { window := [{ addr := 0, len := 64, write := none, fromEngine := false, time := 0 }] };
    let check := fun (s : State) (v : Nat × Nat) => s.hub.attempt.bind fun a => s.unitCheck a v;
    check ok (0x0020, 31) = some 0 ∧ ((after (.epochUnitReport ⟨0x0020, 31⟩) ok).epochPart (0x0020, 31)).state = 1 ∧
    (after (.epochUnitReport ⟨0x0020, 31⟩) ok).fld Reg.glbEpochCtrl Fld.glbEpochCtrlState = 2 ∧ (check bad (0x0030, 63)).isSome = true ∧
    check bad (0x0030, 63) ≠ some 0 ∧ (after (.epochUnitReport ⟨0x0030, 63⟩) bad).hub.attempt = none ∧
    codes (after (.epochUnitReport ⟨0x0030, 63⟩) bad) = [0x0007] ∧ check hold (0x0200, 7) = none ∧
    after (.epochUnitReport ⟨0x0200, 7⟩) hold = hold := by decide +kernel

theorem witness_epoch_end : let w := attempting { snap := [(Reg.lnkCtrl 31, 1)], waiting := [(0x0020, 31)] };
    let r := attempting { snap := [(Reg.lnkCtrl 31, 1)], waiting := [], ready := [(0x0032, 63)] };
    let hold := (attempting { snap := [(Reg.morHmap 0, (State.reset.areg (Reg.morHmap 0)) ^^^ 1)], waiting := [], ready := [(0x0200, 7)] }).setStack 7
      { window := [{ addr := 0, len := 64, write := none, fromEngine := false, time := 0 }] };
    (hold.hub.attempt.map hold.hmapHeld = some true ∧ after .epochCommit hold = hold ∧ (after .epochTimeout hold).hub.attempt = none) ∧
    after .epochCommit w = w ∧ codes (after .epochTimeout w) = [0x0007] ∧ (after .epochTimeout w).reg Reg.glbEpochFail = 2 ^ 24 ∧
    ((after .epochTimeout w).epochPart (0x0020, 31)).state = 4 ∧ (after .epochCommit r).reg Reg.glbEpoch = 9 ∧
    (after .epochCommit r).afld (Reg.lnkCtrl 31) Fld.lnkCtrlEn = 1 ∧ ((after .epochCommit r).epochPart (0x0032, 63)).state = 2 := by decide +kernel

/-! ## Recovery and mirroring -/

/-- The recovery area of job 0 at 8192, named by the directory at 4096, in HBM that the job owns. -/
def recovery (m : Mirror) : State :=
  ((regs [(Reg.glbRecdir 0, 4096), (Reg.plhTenHbm 0, 0x44444444), (Reg.plhStatus 0, 2)]).store 4096 (leBytes 8 8192)).setMirror 0 { m with area := 8192 }

theorem witness_recovery_poll : let s := (recovery {}).store 8192 [4]; let z := (recovery {}).store 8192 [5];
    s.areaOf 0 = 8192 ∧ s.areaOf 3 = 0 ∧ leNat (s.bytes (s.areaOf 0) 4) = 4 ∧ ((after .recoveryPoll s).mirror 0).cmd = 4 ∧
    ((after .recoveryPoll z).mirror 0).cmd = 0 := by decide +kernel

theorem witness_configure : let s := (recovery { cmd := 1 }).store (8192 + 8) [1]; let mir := fun n => s.store (8192 + 0x48) (leBytes 16 (2 ^ 20 + n * 2 ^ 64));
    let c := fun s => after (.recoveryConfigure 0) s; let st := fun (s : State) => s.bytes 8196 4;
    (s.mirror 0).area ≠ 0 ∧ (s.mirror 0).cur = none ∧ st (c (s.store (8192 + 0xB) [17])) = leBytes 4 (2 + 88 * 65536) ∧
    ((c (recovery { cmd := 1 })).mirror 0).on = false ∧ st (c (recovery { cmd := 1 })) = [0, 0, 0, 0] ∧
    st (c (mir 2046)) = leBytes 4 (2 + 640 * 65536) ∧ ((c (mir 2048)).mirror 0).on = true ∧ ((c (mir 2048)).mirror 0).n = 1 := by decide +kernel

theorem witness_halt_attest : let h := recovery { cmd := 2, on := true, incoming := [7] }; let a := recovery { cmd := 3 };
    ((after (.recoveryHalt 0) h).mirror 0).incoming = [] ∧ ((after (.recoveryHalt 0) h).mirror 0).on = false ∧ (a.mirror 0).cmd = 3 ∧
    (a.reportBody 0).length = 192 := by decide +kernel

theorem witness_restore : let p : CopyPart := { part := 2, addr := 2 ^ 20, size := 512, count := 512 };
    let e := fun src => leBytes 32 (src + 2 * 2 ^ 64 + 1 * 2 ^ 96 + 2 * 2 ^ 128 + 2 ^ 21 * 2 ^ 192);
    let s := fun n src => ((((recovery { cmd := 4, copies := [{ gen := 9, parts := [p], committed := true }] }).store (8192 + 0xB00) (leBytes 8 (9 + n * 2 ^ 32))).store
      (8192 + 0x2000) (e src)).store (2 ^ 20) [1, 2, 3, 4]);
    let r := fun s => after (.recoveryRestore 0) s;
    ((r (s 0 0)).mirror 0).restore = none ∧ ((s 1 0).restoreEntry 0 0).src = (s 1 0).ownAddr ∧ ((s 1 0).restoreEntry 0 0).count = 2 ∧
    ((s 1 0).restoreSource 0 ((s 1 0).restoreEntry 0 0) 9).2 = .inr [(2 ^ 20 + 1, 2)] ∧ (s 1 0).mem.ue = [] ∧ (s 1 0).rangeFault (some 0) (2 ^ 21) 2 = none ∧
    (r (s 1 0)).bytes (2 ^ 21) 2 = [2, 3] ∧ ((r (s 1 5)).mirror 0).restore = some { gen := 9, count := 1 } := by decide +kernel

/-- Job 0 mirrors context 0 with the region at 2 MiB. -/
def mirrors (m : Mirror) : State :=
  recovery { m with on := true, n := 1, ctxs := [0], mbase := 2 ^ 21, msize := 2 ^ 20 }

theorem witness_generation : let s := fun tier => mirrors { made := [(0, 5)], tier }; let n := s 0; let t := s (hostBase 0); let u := after (.mirrorStart 0) t;
    let copies := (t.slotParts 0 1).flatMap fun p => copyDescs p.addr (t.tierAddr 0 1 p) p.size;
    (n.mirror 0).due = some 5 ∧ ((after (.mirrorStart 0) n).mirror 0).gens = 1 ∧ codes (after (.mirrorStart 0) n) = [0x0781] ∧ (t.mirror 0).nextGen = 1 ∧
    (∀ x ∈ t.ownParts 0, x.part ≠ 2 → x.size ≠ 0 → t.rangeFault (some 0) x.addr x.size = none ∧ t.badByte x.addr x.size = none) ∧
    (∀ x ∈ t.slotParts 0 1, t.rangeFault (some 0) x.addr x.size = none ∧ t.inSlot 0 1 x = true) ∧
    (u.mirror 0).copies.map (fun c => (c.gen, c.step, c.committed)) = [(1, 5, false)] ∧
    (u.mirror 0).cur.map (fun g => (g.step, g.needPartner, decide (g.tier.length = copies.length), g.tier.isEmpty)) = some (5, false, true, false) ∧
    (u.chan 512 0).queue.map CopyDesc.desc = copies := by decide +kernel

theorem witness_generation_ends : let own : MirrorCopy := { gen := 1, step := 5 }; let g : Gen := { gen := 1, step := 5, digest := 0, tier := [9] };
    let it : Item := { id := 9, unit := 0x0012, index := 0, chan := 0, ordered := false, owner := .mirror 0, parts := 1, comp := some {} };
    let s := fun c => (mirrors { cur := some g, copies := [own] }).setItems { next := 10, live := [{ it with comp := some c }] };
    let ok := after (.itemRetire 9) (s {}); let bad := after (.itemRetire 9) (s (dataError 3 0));
    (s {}).mayRetire { it with comp := some {} } = true ∧ (ok.mirror 0).cur = none ∧ (ok.mirror 0).copies = [{ own with committed := true }] ∧
    (bad.mirror 0).cur = none ∧ 0x0781 ∈ codes bad := by decide +kernel

theorem witness_commits : let own : MirrorCopy := { gen := 1, step := 5, digest := 77 }; let theirs : MirrorCopy := { src := some 7, gen := 3 };
    let s := mirrors { incoming := [7], copies := [own, theirs] }; let c := fun d => after (.mirrorCommitReceive 0 7 3 5 d) s;
    ((c 77).mirror 0).copies.map MirrorCopy.committed = [false, true] ∧ ((c 78).mirror 0).copies = [own, theirs] ∧ (c 78).fab.nextXid = 1 ∧
    (after (.mirrorCommitReceive 0 8 3 5 77) s).fab.nextXid = 1 ∧
    (let g := mirrors { partner := some 7, cur := some { gen := 1, step := 5, digest := 77, sent := true }, copies := [own] };
      ((after (.mirrorCommittedReceive 0 7 1) g).mirror 0).copies = [{ own with committed := true }] ∧
      ((after (.mirrorCommittedReceive 0 7 1) g).mirror 0).cur = none ∧
      (let w : Gen := { gen := 1, step := 5, digest := 77, sent := true, needPartner := true, tier := [9] }; let h := mirrors { partner := some 7, cur := some w };
        ((after (.mirrorCommittedReceive 0 7 1) h).mirror 0).cur = some { w with sent := false, needPartner := false }) ∧
      after (.mirrorCommittedReceive 0 7 1) (mirrors {}) = mirrors {} ∧ after (.mirrorCommitTimeout 0) (mirrors {}) = mirrors {} ∧ codes (after (.mirrorCommitTimeout 0) g) = [0x0781]) := by decide +kernel

theorem witness_mirror_segment : let x : MirrorSeg := { src := 7, xid := 1, job := 0, restore := false, part := 2, stack := 0, ctx := 0, gen := 4, step := 5, first := 510, body := [8, 9] };
    let other : MirrorCopy := { src := some 8, gen := 2, parts := [{ part := 2, addr := 2 ^ 21 + 512, size := 512, count := 512 }] };
    let s := mirrors { incoming := [7], copies := [other] }; let p := s.placePart 0 4 [other] { src := some 7, gen := 4, step := 5 } (s.incomingPart x);
    let u := after (.mirrorSegmentReceive x) s; let c := after (.mirrorSegmentReceive { x with part := 1, first := 0, body := [] }) s;
    s.mirLocal (s.mirror 0) = false ∧ (p.part, p.first, p.count, p.size, p.addr) = (2, 510, 2, 2, 2 ^ 21 + 1024) ∧ s.slotBase 0 4 0 = 2 ^ 21 ∧
    sumBy CopyPart.size (s.ownParts 0) = 512 ∧ s.inSlot 0 4 p = true ∧ s.rangeFault (some 0) p.addr p.size = none ∧
    u.bytes (2 ^ 21 + 1024) 2 = [8, 9] ∧ (u.mirror 0).copies.map (fun c => (c.src, c.gen, c.parts)) = [(some 7, 4, [p]), (some 8, 2, other.parts)] ∧
    (c.mirror 0).copies.head?.map MirrorCopy.heads = some [(0, 0)] ∧ (after (.mirrorSegmentReceive { x with part := 3 }) s).mem = s.mem ∧
    (after (.mirrorSegmentReceive { x with src := 8 }) s).mem = s.mem ∧ s.restoreWaits 0 7 = none ∧
    after (.mirrorSegmentReceive { x with restore := true }) s = s.sendReceipt 7 1 (malformed 322) := by decide +kernel

theorem witness_partners : let s := mirrors { feed := 3 }; let a := mirrors { feed := 3, asking := some 7, cands := [(7, 4)], nextCand := 1 };
    let p := mirrors { partner := some 7, missed := 4 }; let q := mirrors { partner := some 7, missed := 5 };
    s.helloReason 0 0 3 = 1 ∧ (recovery {}).helloReason 0 0 3 = 7 ∧ s.helloReason 0 0 4 = 0 ∧
    ((after (.helloReceive 0 0 4) s).mirror 0).incoming = [0] ∧ (after (.helloReceive 0 0 3) s).mirrors = s.mirrors ∧
    ((after (.partnerAnswerReceive 0 7 .accept) a).mirror 0).partner = some 7 ∧ codes (after (.partnerAnswerReceive 0 7 (.refuse 5)) a) = [0x0782] ∧
    codes (after (.partnerAnswerTimeout 0) a) = [0x0782] ∧ ((after (.heartbeatSend 0) p).mirror 0).missed = 5 ∧
    ((after (.heartbeatReceive 0 7) p).mirror 0).missed = 0 ∧ after (.heartbeatReceive 0 8) p = p ∧ after (.partnerLost 0) p = p ∧
    ((after (.partnerLost 0) q).mirror 0).partner = none ∧ (s.restoreSource 0 (parseRestore []) 0).2 = .inl (malformed 0) ∧
    (after (.restoreReqReceive 0 7 0 []) s).mirrors = s.mirrors := by decide +kernel

theorem witness_restore_request : let c : MirrorCopy := { src := some 6, gen := 9, step := 5, committed := true, parts := [{ part := 2, addr := 2 ^ 20, size := 512, count := 512 }] };
    let s := (mirrors { copies := [c] }).store (2 ^ 20) [1, 2, 3, 4]; let b := leBytes 32 (6 * 2 ^ 32 + 2 * 2 ^ 64 + 1 * 2 ^ 96 + 2 * 2 ^ 128);
    let e := parseRestore b; let t := after (.restoreReqReceive 0 7 9 b) s;
    (s.restoreSource 0 e 9).2 = .inr [(2 ^ 20 + 1, 2)] ∧ s.heldCopy 0 e.owner 9 = some c ∧ (∀ q ∈ upFrom 0 6, s.isAdm q 3 = false) ∧
    s.gather [(2 ^ 20 + 1, 2)] = [2, 3] ∧ t.fab.xfers.map (fun x => (x.dest, x.typ, x.vc, x.total, x.ended)) = [(7, 8, 3, 2, none)] ∧ t.mem = s.mem := by
  decide +kernel

/-! ## The block as a whole -/

/-- The state after a step. -/
def stepped (s : State) : State := match step s with | .next u => u | _ => s

theorem witness_step : let c : Instr := .thermalReport 11 95; let s := State.reset.setPending [c, .i2cStatus];
    s.pending = [c, .i2cStatus] ∧ (stepped s).pending = [.i2cStatus] ∧ codes (stepped s) = [0x0502] ∧
    (stepped State.reset).now = 1 ∧ State.reset.hub.warmDue = false ∧ (stepped (State.reset.setHub { warmDue := true })).fld Reg.pwrBoot Fld.pwrBootStage = 0 ∧ State.reset.fab.hold = 0 ∧ State.reset.fab.slew = 0 := by decide +kernel

theorem witness_inv : let s := (regs []).store 5 [1, 0, 3];
    s.Inv ∧ s.mem.cells = [(5, 1), (7, 3)] ∧ s.mem.ue = [] ∧ s.retiredPages = [] ∧ s.twi = [] ∧ (s.store 5 [0, 2]).mem.cells = [(6, 2), (7, 3)] := by decide +kernel

theorem witness_frames : .ctrlNop 0 .F 0 ∈ controlWords 0 .F 0 ∧ .lnkRetrain 31 ∈ linkCommands 31 0 [] := by decide +kernel

/-! ## Well-formed commands -/

/-- One ill-formed command for each check. -/
def illFormed : List Instr :=
  let am : AmMsg := { amMsg with dcl := 512 }
  let cd : CollData := { key := { job := 0, cid := 9, step := 0 }, src := 1, xid := 4, kind := 0, op := 0, failed := false, comp := false
                         nonfin := false, rank := 1, ifmt := 0, block := 0, alpha := 0, count := 1, nr := 1, offset := 0, body := [] }
  let st : LinkStatusMsg := { addr := 0, port := 6, link := 3, session := 9, width := 2, speed := 2, allocs := List.replicate 17 0, eth := false
                              extra := false }
  let mir : MirrorSeg := { src := 7, xid := 1, job := 0, restore := false, part := 2, stack := 0, ctx := 0, gen := 4, step := 5, first := 0
                           body := [] }
  let hb : HbmReq := { fromEngine := true, addr := 0, len := 1, write := none }
  [.slotArrival 0 0 (.fromFabric (leBytes 63 0) []), .hbmRequestAccept 0 { hb with addr := 2 ^ 37 }, .hbmRequestAccept 0 { hb with write := some [] },
   .fillOverrun 0 (2 ^ 32), .iterationOverrun 0 (2 ^ 32), .bindAnswerReceive 0 0 65536 0, .bindAnswerReceive 0 0 0 65536,
   .stageQueueStall 0 0 (2 ^ 32), .bowWait 0 0 (2 ^ 32), .collGrantReceive cd.key 0 ⟨256, 0⟩,
   .collGrantReceive cd.key 0 ⟨0, 2 ^ 32⟩, .hbmRequestServe 0 (2 ^ 31) .clean, .snowpackSlotWait 0 (2 ^ 32),
   .amsgStall 0 (2 ^ 32), .collDataReceive { cd with kind := 256 }, .collDataReceive { cd with block := 2 ^ 32 },
   .collDataReceive { cd with offset := 2 ^ 40 }, .amPlace (.fabric 0 am), .amPlace (.fabric 0 { amMsg with handler := 1024 }),
   .dqaddArrival (.fabric 0 { contrib 0 with contrib := 256 }), .dqaddArrival (.fabric 0 { contrib 0 with count := 0 }),
   .flowUnitReceive 0 [], .receiptReceive 0 0 0 ⟨0, 0, 2 ^ 40⟩, .statusReceive 0 { st with allocs := [] },
   .statusReceive 0 { st with allocs := List.replicate 17 65536 }, .timeReqReceive 0 (2 ^ 72), .timeRspReceive 0 (2 ^ 72) 0 0 0 0 true,
   .timeRspReceive 0 0 0 0 0 256 true, .ethFrameReceive 0 (leBytes 13 0),
   .twiacPacketReceive 0 [] [], .capabilityBlockReceive 0 [], .readDataReceive 0 65536 false [], .mgmtReq 0 65536 0 none,
   .epochUnitReport ⟨65536, 0⟩, .powerOnReset { boot with caps := [(0, [])] },
   .powerOnReset { boot with bootMs := 2 ^ 32 }, .i2cFlashRead 0 257, .i2cFlashWrite 0 (leBytes 257 0), .restoreReqReceive 0 0 0 [],
   .partnerAnswerReceive 0 0 (.refuse 256), .mirrorSegmentReceive { mir with part := 256 }, .mirrorSegmentReceive { mir with first := 2 ^ 32 }]

theorem test_ill_formed : illFormed.all (fun c => !c.wellFormed) = true := by decide +kernel

theorem test_well_formed : [.ctrlNop 0 .F 0, .slotArrival 255 3 (.fromFabric (leBytes 64 0) [1]), .amPlace (.fabric 0 amMsg), .dqaddArrival (.fabric 0 (contrib 255)),
    .hbmRequestAccept 7 { fromEngine := true, addr := 2 ^ 37 - 1, len := 1, write := some [1] }, .flowUnitReceive 35 (flowUnit 1), .powerOnReset boot,
    .timeRspReceive 31 (2 ^ 72 - 1) 0 0 0 255 true, .i2cFlashRead 0xFFFFFFFF 256].all Instr.wellFormed = true := by decide +kernel

/-- The table gives no row any bits: no word spells a command, and the queue stays (log entry 2). -/
theorem test_no_words (n w : Nat) (s : State) : decodeTableWord n w = none ∧ s.withFetchWord n w = s := ⟨rfl, rfl⟩

end Sys2Proof.Tests
end

section
/-! SUPPORT. The issue of a word that its thread may issue, and what a LOOP word does then. -/
namespace Sys2Proof.Machine

variable {s z : State} {k w : Nat}

/-! ## The issue of a word (R79, R80, R82) -/

/-- A word that its thread may issue has its effect on the state as the thread starts it. -/
theorem State.issueTo_of_mayIssue (h : z.mayIssue k w) (f : State → State) : z.issueTo k w f = f (z.atStart k) := by
  obtain ⟨hdispatch, hbody, hturn⟩ := h
  simp [State.issueTo, hdispatch, hbody, hturn]

theorem State.issue_of_mayIssue (h : z.mayIssue k w) (f : State → State) : z.issue k w f = (f (z.atStart k)).advance k :=
  State.issueTo_of_mayIssue h _

/-- A word that is reported and leaves its thread as x ends with x. -/
theorem State.wordEnds_reportWord_setThread (s : State) (k : Nat) (x : Thread) (r : Completion) :
    s.wordEnds ((s.reportWord k r).setThread k x) k x r :=
  ⟨rfl, by simp, fun j hj => by simp [State.thread_setThread_ne _ _ hj], _, rfl, rfl, rfl, rfl⟩

/-! ## LOOP (R84) -/

theorem loopWord_of_no_body {t : Thread} (hn : bits w 16 16 = 0) : loopWord t w = (malformed 16, stepPc t.loops t.pc) := by
  simp [loopWord, hn]

theorem loopWord_of_reserved {t : Thread} (hn : bits w 16 16 ≠ 0) {d : Nat}
    (hr : lowReserved w (0x7 * 2 ^ 53 + 2 ^ 51 + 0xFFFF * 2 ^ 32) = some d) :
    loopWord t w = (malformed d, skipBody t.loops t.pc (bits w 16 16)) := by
  simp only [loopWord, hn, hr, if_false]

/-- A LOOP with a body and no reserved bit set: its count decides first, then the depth of the stack. -/
theorem loopWord_of_body {t : Thread} (hn : bits w 16 16 ≠ 0) (hr : lowReserved w (0x7 * 2 ^ 53 + 2 ^ 51 + 0xFFFF * 2 ^ 32) = none) :
    loopWord t w =
      let n := bits w 16 16
      let count := if bit w 52 then (t.ag.get 0 (bits w 48 3)).toNat else bits w 0 16
      if count = 0 then ({ status := .empty }, skipBody t.loops t.pc n)
      else if 4 ≤ t.loops.length then (malformed 56, skipBody t.loops t.pc n)
      else ({}, t.pc + 8, { first := t.pc + 8, last := t.pc + 8 * n, left := count } :: t.loops) := by
  simp only [loopWord, hn, hr, if_false]

/-- A LOOP that may issue reports the completion that loopWord gives, and its thread goes on where loopWord says. -/
theorem exec_ctrlLoop_wordEnds {g : ClusterId} {t : Thr} {w : BitVec 56} (h : z.mayIssue (threadKey g t) (progWord 3 4 w.toNat))
    {r : Completion} {n : Nat × List Loop} (hr : loopWord ((z.atStart (threadKey g t)).thread (threadKey g t)) w.toNat = (r, n)) :
    ∃ u : State, exec (.ctrlLoop g t w) z = .next u ∧ (z.atStart (threadKey g t)).wordEnds u (threadKey g t)
      { (z.atStart (threadKey g t)).thread (threadKey g t) with pc := n.1, loops := n.2 } r := by
  refine ⟨_, ?_, State.wordEnds_reportWord_setThread _ _ _ _⟩
  simp [exec, execCtrlLoop, State.issueTo_of_mayIssue h, hr]

/-- Settles O3: each clause is the case of loopWord that its conditions pick. -/
theorem loopCornersAct : Obligations.LoopCornersAct := by
  intro z g t w hissue k s x n count low behind past y
  refine ⟨fun hn => ?no_body, fun hn d hd => ?reserved, fun hn hr hc => ?no_count, fun hn hr hc hl => ?deep⟩
  case no_body => exact exec_ctrlLoop_wordEnds hissue (loopWord_of_no_body hn)
  case reserved => exact exec_ctrlLoop_wordEnds hissue (loopWord_of_reserved hn hd)
  case no_count => exact exec_ctrlLoop_wordEnds hissue ((loopWord_of_body hn hr).trans (if_pos hc))
  case deep => exact exec_ctrlLoop_wordEnds hissue ((loopWord_of_body hn hr).trans ((if_neg hc).trans (if_pos hl)))

end Sys2Proof.Machine
end

section
/-! SUPPORT. What a QUEUE word does as it issues: its acceptance, the start and the end of its operation, the pairing of R87. -/
namespace Sys2Proof.Machine

variable {s z : State} {k c q w : Nat}

/-! ## The end of a queue operation -/

theorem State.endOp_queue (s : State) (c q : Nat) (o : QOp) (r : Completion) :
    (s.endOp c q o r).queue c q = { s.queue c q with ops := (s.queue c q).ops.filter fun x => x.item != o.item } := by
  simp [State.endOp, State.wake, State.dropOp]

/-- The thread whose operation ends waits no longer. -/
@[simp] theorem State.endOp_wait (s : State) (c q : Nat) (o : QOp) (r : Completion) :
    ((s.endOp c q o r).thread o.key).wait = .none := by
  simp [State.endOp, State.wake]

/-- The item of an operation that ends gets its result. -/
theorem State.itemEnds_endOp (s : State) (c q : Nat) (o : QOp) (r : Completion) : s.itemEnds (s.endOp c q o r) o.item r := by
  intro i hi hid hcomp
  exact ⟨s.now, List.mem_map.mpr ⟨i, hi, by simp [hid, hcomp, State.dropOp]⟩⟩

/-! ## RELEASE (R52, R57, R64) -/

/-- Where the device has released no slot itself, none drains. -/
theorem State.drainAuto_of_none_auto (h : ∀ y ∈ (s.queue c q).slots, y.auto = false) : ∀ n, State.drainAuto c q n s = s
  | 0 => rfl
  | n + 1 => by
    unfold State.drainAuto
    split
    · rename_i y r hy
      simp [h y (by simp [hy])]
    · rfl

/-- On a queue that is not REMOTE and has no spill nothing follows a release of the last slot that waits for it. -/
theorem State.afterRelease_of_quiet (hkind : s.qKind c q ≠ 2) (hauto : ∀ y ∈ (s.queue c q).slots, y.auto = false)
    (hspill : (s.queue c q).spill = []) : s.afterRelease c q = s := by
  simp [State.afterRelease, State.drainAuto_of_none_auto hauto, State.startFill, State.when, hkind, hspill]

/-- A RELEASE whose oldest slot is taken, on such a queue, frees that slot and is done. -/
theorem State.doRelease_of_taken {y : InSlot} {r : List InSlot} (o : QOp) (hslots : (s.queue c q).slots = y :: r)
    (htaken : y.taken = true) (hy : y.auto = false) (hr : ∀ x ∈ r, x.auto = false) (hkind : s.qKind c q ≠ 2)
    (hspill : (s.queue c q).spill = []) : s.doRelease c q o = (s.freeFront c q).endOp c q o {} := by
  have hdrain : State.drainAuto c q 65 s = s := State.drainAuto_of_none_auto (by simpa [hslots, hy] using hr) 65
  have hafter : (s.freeFront c q).afterRelease c q = s.freeFront c q := by
    refine State.afterRelease_of_quiet ?_ ?_ ?_ <;> simp [State.freeFront, State.qKind, hslots, hspill]
    · exact hkind
    · exact hr
  simp [State.doRelease, hdrain, hslots, htaken, hafter]

/-! ## The issue of a QUEUE word (R79, R86, R87) -/

/-- The QUEUE words of a thread, each with the operation that it is (Table 3-6). -/
def queueWords (g : ClusterId) (t : Thr) (w : BitVec 56) : List (Nat × Instr) :=
  [(0, .take g t w), (1, .release g t w), (2, .claim g t w), (3, .send g t w)]

/-- The operation numbered item that word w of thread k asks of its queue (Table 3-6). -/
def queueOp (kind k item w : Nat) : QOp :=
  { kind := kind, key := k, item := item, d := bits w 51 3, flags := bits w 40 8, fmt := bits w 32 8, len := bits w 0 32 }

/-- The state in which the operation of word w of thread k has been accepted and its thread waits for it (R79). -/
def State.queued (s : State) (k c kind w : Nat) : State :=
  let s' := s.accept { id := 0, unit := 0x0031, index := c, chan := k, owner := s.ownerOf k, tag := (s.thread k).tag, info := kind }
  let s' := s'.setThread k { s'.thread k with wait := .item s.nextId }
  s'.setQueue c (bits w 54 2) { s'.queue c (bits w 54 2) with ops := (s'.queue c (bits w 54 2)).ops ++ [queueOp kind k s.nextId w] }

section Queued

variable {kind : Nat}

@[simp] theorem State.queued_ctxDead (s : State) (k c kind w : Nat) : (s.queued k c kind w).ctxDead c = s.ctxDead c := rfl
@[simp] theorem State.queued_qKind (s : State) (k c kind w q : Nat) : (s.queued k c kind w).qKind c q = s.qKind c q := rfl
@[simp] theorem State.queued_qBytes (s : State) (k c kind w q : Nat) : (s.queued k c kind w).qBytes c q = s.qBytes c q := rfl

@[simp] theorem State.queued_queue (s : State) (k c kind w : Nat) : (s.queued k c kind w).queue c (bits w 54 2) =
    { s.queue c (bits w 54 2) with ops := (s.queue c (bits w 54 2)).ops ++ [queueOp kind k s.nextId w] } := by
  simp [State.queued]

@[simp] theorem State.queued_wait (s : State) (k c kind w : Nat) : ((s.queued k c kind w).thread k).wait = .item s.nextId := by
  simp [State.queued]

theorem State.itemBegun_queued (s : State) (k c kind w : Nat) : s.itemBegun (s.queued k c kind w) k 0x0031 none :=
  ⟨_, List.mem_append_right _ (List.mem_singleton_self _), rfl, rfl, rfl, rfl, rfl⟩

/-- A word that R87 pairs is accepted; on a context in BINDING its operation waits, on any other it starts (R89). -/
theorem State.queueWord_of_paired (hz : bits w 48 3 = 0) (hpair : s.pairOk k kind (bits w 54 2) = true) (hctx : s.ctxOf k = some c) :
    s.queueWord k kind w = if s.ctxState c = 1 then s.queued k c kind w
      else (s.queued k c kind w).startOp c (bits w 54 2) (queueOp kind k s.nextId w) := by
  simp only [State.queueWord, hz, hpair, hctx]
  rfl

/-- A word that R87 does not pair is MALFORMED with detail 54. -/
theorem State.queueWord_of_unpaired (hz : bits w 48 3 = 0) (hpair : s.pairOk k kind (bits w 54 2) = false) :
    s.queueWord k kind w = s.reportWord k (malformed 54) := by
  simp [State.queueWord, hz, hpair]

theorem exec_queueWord {g : ClusterId} {t : Thr} {w : BitVec 56} {i : Instr} (hi : (kind, i) ∈ queueWords g t w)
    (h : z.mayIssue (threadKey g t) (progWord 4 kind w.toNat)) :
    exec i z = .next (((z.atStart (threadKey g t)).queueWord (threadKey g t) kind w.toNat).advance (threadKey g t)) := by
  simp only [queueWords, List.mem_cons, Prod.mk.injEq, List.not_mem_nil, or_false] at hi
  obtain ⟨rfl, rfl⟩ | ⟨rfl, rfl⟩ | ⟨rfl, rfl⟩ | ⟨rfl, rfl⟩ := hi <;>
    exact congrArg Host.Outcome.next (State.issue_of_mayIssue h _)

end Queued

/-! ## The start of a queue operation (R45, R51 to R54, R89) -/

section Start

variable {kind n : Nat}

/-- A queue that lets operations start: its context is neither dead nor in BINDING, and it is of a KIND (Tables 2-2, 2-4). -/
abbrev State.opsStart (s : State) (c q : Nat) : Prop := s.ctxDead c = false ∧ s.ctxState c ≠ 1 ∧ s.qKind c q ≠ 0

/-- TAKE and CLAIM wait for their commands. -/
theorem State.startOp_queued_of_ne (hlive : s.opsStart c (bits w 54 2)) (hrelease : kind ≠ 1) (hsend : kind ≠ 3) :
    (s.queued k c kind w).startOp c (bits w 54 2) (queueOp kind k n w) = s.queued k c kind w := by
  obtain ⟨hdead, -, hkind⟩ := hlive
  simp [State.startOp, queueOp, hdead, hkind, hrelease, hsend]

/-- Bits [47:44] of a SEND, which are reserved, are the high half of its FLAGS (Table 3-6). -/
theorem bits_flags_high (w : Nat) : bits (bits w 40 8) 4 4 = bits w 44 4 := by
  simp only [bits]
  omega

/-- A SEND of a claimed slot with a length that the slot holds passes its checks, and waits for credit (R54). -/
theorem State.startOp_queued_send_of_fits (hlive : s.opsStart c (bits w 54 2)) (hclaim : (s.queue c (bits w 54 2)).claimed ≠ [])
    (hflags : bits w 44 4 = 0) (hpos : 0 < bits w 0 32) (hfits : bits w 0 32 ≤ s.qBytes c (bits w 54 2))
    (hqueue : (s.queue c (bits w 54 2)).dead = false) :
    (s.queued k c 3 w).startOp c (bits w 54 2) (queueOp 3 k n w) = s.queued k c 3 w := by
  obtain ⟨hdead, -, hkind⟩ := hlive
  have hcheck : (s.queued k c 3 w).sendCheck c (bits w 54 2) (queueOp 3 k n w) = none := by
    simp [State.sendCheck, queueOp, bits_flags_high, hclaim, hflags, hpos.ne', hfits.not_gt]
  simp only [State.startOp, hcheck]
  simp [queueOp, hdead, hkind, hqueue]

/-- A SEND of length 0 ends EMPTY (R54). -/
theorem State.startOp_queued_send_of_no_bytes (hlive : s.opsStart c (bits w 54 2))
    (hclaim : (s.queue c (bits w 54 2)).claimed ≠ []) (hflags : bits w 44 4 = 0) (hlen : bits w 0 32 = 0) :
    (s.queued k c 3 w).startOp c (bits w 54 2) (queueOp 3 k n w) =
      (s.queued k c 3 w).endOp c (bits w 54 2) (queueOp 3 k n w) { status := .empty } := by
  obtain ⟨hdead, -, hkind⟩ := hlive
  have hcheck : (s.queued k c 3 w).sendCheck c (bits w 54 2) (queueOp 3 k n w) = some { status := .empty } := by
    simp [State.sendCheck, queueOp, bits_flags_high, hclaim, hflags, hlen]
  simp only [State.startOp, hcheck]
  simp [queueOp, hdead, hkind]

/-- A RELEASE of a taken slot ends at once (R52). -/
theorem State.startOp_queued_release_of_taken (hlive : s.opsStart c (bits w 54 2)) (hremote : s.qKind c (bits w 54 2) ≠ 2)
    {y : InSlot} {r : List InSlot} (hslots : (s.queue c (bits w 54 2)).slots = y :: r) (htaken : y.taken = true)
    (hy : y.auto = false) (hr : ∀ x ∈ r, x.auto = false) (hspill : (s.queue c (bits w 54 2)).spill = []) :
    (s.queued k c 1 w).startOp c (bits w 54 2) (queueOp 1 k n w) =
      ((s.queued k c 1 w).freeFront c (bits w 54 2)).endOp c (bits w 54 2) (queueOp 1 k n w) {} := by
  obtain ⟨hdead, -, hkind⟩ := hlive
  have hrelease := State.doRelease_of_taken (s := s.queued k c 1 w) (c := c) (q := bits w 54 2) (queueOp 1 k n w)
    (by simpa using hslots) htaken hy hr hremote (by simpa using hspill)
  rw [← hrelease]
  simp [State.startOp, queueOp, hdead, hkind]

end Start

/-! ## What a QUEUE word that R87 pairs does -/

section Paired

variable {g : ClusterId} {t : Thr} {v : BitVec 56} {i : Instr} {kind : Nat}

/-- The operation of word w of thread k waits in its queue, and its thread for it. -/
abbrev State.opQueued (s u : State) (k c kind w : Nat) : Prop :=
  (u.thread k).wait = .item s.nextId ∧ u.regs = s.regs ∧ u.mem = s.mem ∧ s.itemBegun u k 0x0031 none ∧
    ∃ o, (u.queue c (bits w 54 2)).ops = (s.queue c (bits w 54 2)).ops ++ [o] ∧ o.kind = kind ∧ o.item = s.nextId ∧ o.key = k ∧
      o.d = bits w 51 3 ∧ o.len = bits w 0 32 ∧ o.fmt = bits w 32 8 ∧ o.flags = bits w 40 8

@[simp] theorem State.advance_wait (s : State) (k : Nat) : ((s.advance k).thread k).wait = (s.thread k).wait := by
  simp [State.advance]

theorem State.opQueued_advance_queued (s : State) (k c kind w : Nat) : s.opQueued ((s.queued k c kind w).advance k) k c kind w :=
  ⟨by simp, rfl, rfl, s.itemBegun_queued k c kind w, queueOp kind k s.nextId w, by simp, rfl, rfl, rfl, rfl, rfl, rfl, rfl⟩

/-- An operation that waits on its context, or that starts without an effect, waits in its queue. -/
theorem exec_queueWord_opQueued (hi : (kind, i) ∈ queueWords g t v) (hk : threadKey g t = k) (hs : z.atStart k = s)
    (hz : bits v.toNat 48 3 = 0) (hctx : s.ctxOf k = some c)
    (hmay : s.pairOk k kind (bits v.toNat 54 2) = true ∧ z.mayIssue k (progWord 4 kind v.toNat))
    (hstart : s.ctxState c ≠ 1 → (s.queued k c kind v.toNat).startOp c (bits v.toNat 54 2) (queueOp kind k s.nextId v.toNat) =
      s.queued k c kind v.toNat) :
    ∃ u : State, exec i z = .next u ∧ s.opQueued u k c kind v.toNat := by
  subst hk hs
  refine ⟨_, exec_queueWord hi hmay.2, ?_⟩
  have hword := State.queueWord_of_paired hz hmay.1 hctx
  split at hword
  · rw [hword]
    exact State.opQueued_advance_queued ..
  · rename_i hrun
    rw [hword, hstart hrun]
    exact State.opQueued_advance_queued ..

/-- An operation that ends as it starts leaves a thread that waits no longer and its item with the result. -/
theorem exec_queueWord_endOp (hi : (kind, i) ∈ queueWords g t v) (hk : threadKey g t = k) (hs : z.atStart k = s)
    (hz : bits v.toNat 48 3 = 0) (hctx : s.ctxOf k = some c)
    (hmay : s.pairOk k kind (bits v.toNat 54 2) = true ∧ z.mayIssue k (progWord 4 kind v.toNat)) (hrun : s.ctxState c ≠ 1)
    {s' : State} {r : Completion}
    (hstart : (s.queued k c kind v.toNat).startOp c (bits v.toNat 54 2) (queueOp kind k s.nextId v.toNat) =
      s'.endOp c (bits v.toNat 54 2) (queueOp kind k s.nextId v.toNat) r)
    (hitems : s'.items = (s.queued k c kind v.toNat).items) :
    ∃ u : State, exec i z = .next u ∧ (u.thread k).wait = .none ∧ u.mem = s'.mem ∧
      u.queue c (bits v.toNat 54 2) = { s'.queue c (bits v.toNat 54 2) with
        ops := (s'.queue c (bits v.toNat 54 2)).ops.filter fun x => x.item != s.nextId } ∧
      ∃ i ∈ u.items.live, i.id = s.nextId ∧ i.comp = some r := by
  subst hk hs
  obtain ⟨i, hlive, hid, -, -, -, hcomp⟩ := State.itemBegun_queued (z.atStart (threadKey g t)) (threadKey g t) c kind v.toNat
  obtain ⟨x, hended⟩ := State.itemEnds_endOp s' c (bits v.toNat 54 2) (queueOp kind (threadKey g t) _ v.toNat) r i (hitems ▸ hlive)
    hid hcomp
  refine ⟨_, exec_queueWord hi hmay.2, ?_⟩
  rw [State.queueWord_of_paired hz hmay.1 hctx, if_neg hrun, hstart]
  refine ⟨?_, rfl, ?_, _, hended, hid, rfl⟩
  · exact (State.advance_wait _ _).trans (State.endOp_wait s' c _ (queueOp kind (threadKey g t) _ v.toNat) r)
  · exact (State.advance_queue _ _ _ _).trans (State.endOp_queue ..)

/-- A SEND of length 0 with a slot claimed ends EMPTY and sends nothing (R54). -/
theorem exec_send_of_no_bytes (hk : threadKey g t = k) (hs : z.atStart k = s) (hz : bits v.toNat 48 3 = 0) (hctx : s.ctxOf k = some c)
    (hmay : s.pairOk k 3 (bits v.toNat 54 2) = true ∧ z.mayIssue k (progWord 4 3 v.toNat))
    (hlive : s.opsStart c (bits v.toNat 54 2)) (hclaim : (s.queue c (bits v.toNat 54 2)).claimed ≠ [])
    (hflags : bits v.toNat 44 4 = 0) (hlen : bits v.toNat 0 32 = 0) :
    ∃ u : State, exec (.send g t v) z = .next u ∧ (u.thread k).wait = .none ∧
      (u.queue c (bits v.toNat 54 2)).sent = (s.queue c (bits v.toNat 54 2)).sent ∧
      ∃ i ∈ u.items.live, i.id = s.nextId ∧ i.comp = some { status := .empty } := by
  obtain ⟨u, hu, hwait, -, hqueue, hitem⟩ := exec_queueWord_endOp (i := .send g t v) (by simp [queueWords]) hk hs hz hctx hmay hlive.2.1
    (State.startOp_queued_send_of_no_bytes hlive hclaim hflags hlen) rfl
  exact ⟨u, hu, hwait, by simp [hqueue], hitem⟩

/-- A RELEASE of a taken slot, on a queue with no spill that is not REMOTE, frees it and counts it (R52, R58). -/
theorem exec_release_of_taken (hk : threadKey g t = k) (hs : z.atStart k = s) (hz : bits v.toNat 48 3 = 0) (hctx : s.ctxOf k = some c)
    (hmay : s.pairOk k 1 (bits v.toNat 54 2) = true ∧ z.mayIssue k (progWord 4 1 v.toNat))
    (hlive : s.opsStart c (bits v.toNat 54 2)) (hremote : s.qKind c (bits v.toNat 54 2) ≠ 2) {y : InSlot} {r : List InSlot}
    (hslots : (s.queue c (bits v.toNat 54 2)).slots = y :: r) (htaken : y.taken = true) (hy : y.auto = false)
    (hr : ∀ x ∈ r, x.auto = false) (hspill : (s.queue c (bits v.toNat 54 2)).spill = []) :
    ∃ u : State, exec (.release g t v) z = .next u ∧ (u.thread k).wait = .none ∧
      (u.queue c (bits v.toNat 54 2)).released = (s.queue c (bits v.toNat 54 2)).released + 1 ∧
      (u.queue c (bits v.toNat 54 2)).slots = r ∧ u.mem = s.mem ∧ ∃ i ∈ u.items.live, i.id = s.nextId ∧ i.comp = some {} := by
  obtain ⟨u, hu, hwait, hmem, hqueue, hitem⟩ := exec_queueWord_endOp (i := .release g t v) (by simp [queueWords]) hk hs hz hctx
    hmay hlive.2.1 (State.startOp_queued_release_of_taken hlive hremote hslots htaken hy hr hspill) rfl
  exact ⟨u, hu, hwait, by simp [hqueue, State.freeFront], by simp [hqueue, State.freeFront, hslots], hmem, hitem⟩

end Paired

/-! ## The pairing of R87 -/

@[simp] theorem threadKey_mod (g : Nat) (t : Thr) : threadKey g t % 4 = thrNat t := by
  cases t <;> simp [threadKey, thrNat]

/-- The operations that R87 allows a thread: none of a queue but those of its own direction, none of B in a weight-gradient pass. -/
theorem State.pairOk_iff {g kind : Nat} {t : Thr} : s.pairOk (threadKey g t) kind q = true ↔
    ((s.thread (threadKey g t)).prog = .pass ∨ (s.thread (threadKey g t)).prog = .early) ∧ q / 2 = thrNat t ∧ thrNat t ≤ 1 ∧
      kind / 2 = q % 2 ∧ ¬(thrNat t = 1 ∧ ∃ r, s.rowOf (threadKey g t) = some r ∧ r.bPart = 2) := by
  cases hrow : s.rowOf (threadKey g t) <;> simp [State.pairOk, hrow, and_assoc, imp_iff_not_or]

/-- A word that the model pairs is one of the pairs of R87. -/
theorem State.mem_pairs_of_pairOk {g kind : Nat} {t : Thr}
    [Decidable (t = .B ∧ ¬∃ r, s.rowOf (threadKey g t) = some r ∧ r.bPart = 2)] (hkind : kind < 4)
    (h : s.pairOk (threadKey g t) kind q = true) :
    ((s.thread (threadKey g t)).prog = .pass ∨ (s.thread (threadKey g t)).prog = .early) ∧
      (kind, q) ∈ (if t = .F then [(0, 0), (1, 0), (2, 1), (3, 1)]
        else if t = .B ∧ ¬∃ r, s.rowOf (threadKey g t) = some r ∧ r.bPart = 2 then [(0, 2), (1, 2), (2, 3), (3, 3)] else []) := by
  obtain ⟨hprog, hstream, hpass, hdir, hweights⟩ := State.pairOk_iff.mp h
  refine ⟨hprog, ?_⟩
  cases t with
  | F =>
    rw [if_pos rfl]
    simp only [thrNat] at hstream
    simp only [List.mem_cons, Prod.mk.injEq, List.not_mem_nil, or_false]
    omega
  | B =>
    rw [if_neg (by decide), if_pos ⟨rfl, fun hw => hweights ⟨rfl, hw⟩⟩]
    simp only [thrNat] at hstream
    simp only [List.mem_cons, Prod.mk.injEq, List.not_mem_nil, or_false]
    omega
  | U => exact absurd hpass (by decide)
  | H => exact absurd hpass (by decide)

/-- Settles O9: a word that R87 pairs becomes an operation that waits, or ends as it starts; any other is reported at once. -/
theorem queueWordsAct : Obligations.QueueWordsAct := by
  refine ⟨?paired, ?unpaired⟩
  case paired =>
    intro z g t w c k s q id x may waits live len hctx hz
    refine ⟨fun hmay hrun => ?take, fun hmay hrun => ?claim, fun hmay hrun => ?send, fun hmay hlive hclaim hflags hlen => ?send_empty,
      fun hmay hbind => ?release_binding, fun hmay hlive hremote y r hslots htaken hy hr hspill => ?release⟩
    case take =>
      exact exec_queueWord_opQueued (kind := 0) (by simp [queueWords]) rfl rfl hz hctx hmay fun hb =>
        State.startOp_queued_of_ne (hrun.resolve_left hb) (by simp) (by simp)
    case claim =>
      exact exec_queueWord_opQueued (kind := 2) (by simp [queueWords]) rfl rfl hz hctx hmay fun hb =>
        State.startOp_queued_of_ne (hrun.resolve_left hb) (by simp) (by simp)
    case send =>
      refine exec_queueWord_opQueued (kind := 3) (by simp [queueWords]) rfl rfl hz hctx hmay fun hb => ?_
      obtain ⟨hlive, hclaim, hflags, hpos, hfits, hq⟩ := hrun.resolve_left hb
      exact State.startOp_queued_send_of_fits hlive hclaim hflags hpos hfits hq
    case send_empty => exact exec_send_of_no_bytes rfl rfl hz hctx hmay hlive hclaim hflags hlen
    case release_binding =>
      exact exec_queueWord_opQueued (kind := 1) (by simp [queueWords]) rfl rfl hz hctx hmay fun hb => absurd hbind hb
    case release => exact exec_release_of_taken rfl rfl hz hctx hmay hlive hremote hslots htaken hy hr hspill
  case unpaired =>
    intro z g t w kind i k s x n weights pairs hi hissue hz hpairs
    have hno : s.pairOk k kind (bits w.toNat 54 2) = false := by
      refine Bool.eq_false_iff.mpr fun hpair => hpairs (State.mem_pairs_of_pairOk ?_ hpair)
      simp only [List.mem_cons, Prod.mk.injEq, List.not_mem_nil, or_false] at hi
      omega
    refine ⟨_, exec_queueWord hi hissue, ?_⟩
    rw [State.queueWord_of_unpaired hz hno]
    exact s.wordEnds_reportWord_setThread k _ _

end Sys2Proof.Machine
end

section
/-! SUPPORT. Reads of TIM_NOW: the low read keeps the high word for its opener, the high read takes it (R445). -/
namespace Sys2Proof.Machine

variable {s : State} {h off : Nat}

/-! ## The hub's registers in an access (R384, R423, R455) -/

@[simp] theorem canonOff_timNow (hh : h < 2) : canonOff (Reg.timNow h) = Reg.timNow h :=
  if_neg fun hm => by simp only [Reg.timNow] at hm; omega

/-- The two words of TIM_NOW are read-only registers. -/
theorem regAt_timNow (hh : h < 2) : regAt (Reg.timNow h) = some ⟨Reg.timNow h, [], 0, 0, 0, 0, 0, 0, 0, 0⟩ := by
  interval_cases h <;> rfl

/-- An access of a register below the dies' blocks wakes no die. -/
theorem State.wakeByAccess_of_lt (hlt : off < 0x400000) : s.wakeByAccess off = s := by
  simp [State.wakeByAccess, hlt.not_ge]

/-- An isolated die takes no register below the dies' blocks along. -/
theorem State.regGone_of_lt (hlt : off < 0x400000) : s.regGone off = false := by
  simp only [State.regGone]
  rw [if_neg (by omega), if_neg (by omega)]

/-! ## The words of global time -/

theorem State.view_timNow_lo (s : State) : s.view (Reg.timNow 0) = s.now.setWidth 32 := by
  have hview : s.view (Reg.timNow 0) = BitVec.ofNat 32 s.now.toNat &&& BitVec.allOnes 32 := rfl
  rw [hview, BitVec.and_allOnes, BitVec.ofNat_toNat]

theorem State.view_timNow_hi (s : State) : s.view (Reg.timNow 1) = (s.now >>> 32).setWidth 32 := by
  have hview : s.view (Reg.timNow 1) = BitVec.ofNat 32 (s.now.toNat / 2 ^ 32) &&& BitVec.allOnes 32 := rfl
  rw [hview, BitVec.and_allOnes, ← BitVec.ofNat_toNat, BitVec.toNat_ushiftRight, Nat.shiftRight_eq_div_pow]

/-! ## The two reads -/

/-- The latch list without the word kept for opener o. -/
abbrev State.latchWithout (s : State) (o : Nat) : List (Nat × W32) := s.hub.latch.filter fun e => e.1 != o

/-- The word that opener o is given for TIM_NOW_HI: the one kept for it, or else the current one (log entry 71). -/
def State.timHigh (s : State) (o : Nat) : W32 :=
  ((s.hub.latch.find? fun e => e.1 == o).map Prod.snd).getD ((s.now >>> 32).setWidth 32)

theorem State.timHigh_of_kept {o n : Nat} {v : W32} (hkept : (s.hub.latch.find? fun e => e.1 == o) = some (n, v)) :
    s.timHigh o = v := by
  simp [State.timHigh, hkept]

theorem State.timHigh_of_none {o : Nat} (hnone : (s.hub.latch.find? fun e => e.1 == o) = none) :
    s.timHigh o = (s.now >>> 32).setWidth 32 := by
  simp [State.timHigh, hnone]

theorem State.readReg_timNow_lo (s : State) (o : Nat) : s.readReg o (Reg.timNow 0) =
    (s.setHub { s.hub with latch := s.latchWithout o ++ [(o, (s.now >>> 32).setWidth 32)] }, s.now.setWidth 32) := by
  have hlt : Reg.timNow 0 < 0x400000 := by decide
  simp [State.readReg, regAt_timNow, State.regGone_of_lt hlt, State.wakeByAccess_of_lt hlt, State.view_timNow_lo,
    State.view_timNow_hi]

theorem State.readReg_timNow_hi (s : State) (o : Nat) : s.readReg o (Reg.timNow 1) =
    (s.setHub { s.hub with latch := s.latchWithout o }, s.timHigh o) := by
  have hlt : Reg.timNow 1 < 0x400000 := by decide
  have hne : Reg.timNow 1 ≠ Reg.timNow 0 := by decide
  cases hlatch : s.hub.latch.find? fun e => e.1 == o <;>
    simp [State.readReg, State.timHigh, regAt_timNow, State.regGone_of_lt hlt, State.wakeByAccess_of_lt hlt,
      State.view_timNow_hi, hne, hlatch]

/-- A word kept is the one found for its opener. -/
theorem State.find?_latchWithout_append (s : State) (o : Nat) (v : W32) :
    ((s.latchWithout o ++ [(o, v)]).find? fun e => e.1 == o) = some (o, v) := by
  have hrest : ((s.latchWithout o).find? fun e => e.1 == o) = none := by simp [State.latchWithout, List.find?_eq_none]
  simp [List.find?_append, hrest]

/-- An opener that may access the register is sent the value that the read shows (R419). -/
theorem State.readFor_of_mayAccess {o : Opener} (hmay : s.mayAccess (openerNat o) off false = true) :
    s.readFor o off = (s.readReg (openerNat o) off).1.send (.regValue o off (s.readReg (openerNat o) off).2) := by
  simp [State.readFor, State.readAs, hmay]

theorem exec_timNowRead (o : Opener) (low : Bool) (s : State) :
    exec (.timNowRead o low) s = .next (s.readFor o (Reg.timNow (if low then 0 else 1))) := rfl

theorem exec_timNowRead_lo {o : Opener} (hmay : s.mayAccess (openerNat o) (Reg.timNow 0) false = true) :
    ∃ u : State, exec (.timNowRead o true) s = .next u ∧ u.out = s.out ++ [.regValue o (Reg.timNow 0) (s.now.setWidth 32)] ∧
      u.regs = s.regs ∧
      (u.hub.latch.find? fun e => e.1 == openerNat o) = some (openerNat o, (s.now >>> 32).setWidth 32) := by
  refine ⟨_, exec_timNowRead o true s, ?_⟩
  rw [if_pos rfl, State.readFor_of_mayAccess hmay, State.readReg_timNow_lo]
  exact ⟨rfl, rfl, State.find?_latchWithout_append ..⟩

theorem exec_timNowRead_hi {o : Opener} (hmay : s.mayAccess (openerNat o) (Reg.timNow 1) false = true) {v : W32}
    (hv : s.timHigh (openerNat o) = v) :
    ∃ u : State, exec (.timNowRead o false) s = .next u ∧ u.out = s.out ++ [.regValue o (Reg.timNow 1) v] ∧ u.regs = s.regs := by
  refine ⟨_, exec_timNowRead o false s, ?_⟩
  rw [if_neg Bool.false_ne_true, State.readFor_of_mayAccess hmay, State.readReg_timNow_hi, hv]
  exact ⟨rfl, rfl⟩

/-- Settles O48: a low read keeps the high word, a high read gives the word kept, or the current one where none is. -/
theorem timeReadsAct : Obligations.TimeReadsAct := by
  intro s o n
  refine ⟨fun hmay => ?low, fun v hmay hkept => ?kept, fun hmay hnone => ?fresh⟩
  case low => exact exec_timNowRead_lo hmay
  case kept => exact exec_timNowRead_hi hmay (State.timHigh_of_kept hkept)
  case fresh => exact exec_timNowRead_hi hmay (State.timHigh_of_none hnone)

end Sys2Proof.Machine
end
